-- ==== Sys2Proof/Word.lean ====
section
/-! DEFINITION. The word types of the model (R3, R18, R54). -/

namespace Sys2Proof

/-- A byte of memory. -/
abbrev Byte := BitVec 8

/-- A 32-bit register or instruction word (R17, R19, R54). -/
abbrev Word := BitVec 32

/-- A 64-bit address value: a program counter or a device virtual address (R134). -/
abbrev Addr := BitVec 64

end Sys2Proof
end

