-- ==== Sys2Proof/Machine/Float.lean ====
section
/-! DEFINITION. Number formats and rounding (R31 to R49): standard formats, format slots, the rounding modes, the
exact arithmetic that the instructions round once (R97), and the special functions of R102 and R103. -/

namespace Sys2Proof.Machine

/-- A value as the formats stand for it: NaN, an infinity, or (-1)^neg × m × 2^e with a signed zero. -/
inductive FVal where
  | nan
  | inf (neg : Bool)
  | fin (neg : Bool) (m : Nat) (e : Int)
  deriving DecidableEq, Repr

/-- The rounding modes of R40 that round to a grid; SR carries its random word (R43). -/
inductive Mode where
  | rne | rz | rup | rdn | rna
  | sr (r : Nat)
  deriving DecidableEq, Repr

/-- The mode of an RM code 0 to 4 (R40). -/
def Mode.ofCode : Nat → Mode
  | 1 => .rz
  | 2 => .rup
  | 3 => .rdn
  | 4 => .rna
  | _ => .rne

/-- A standard format by its exponent and fraction widths (R31). -/
structure Fmt where
  eb : Nat
  fb : Nat
  deriving DecidableEq, Repr

/-- FP64 (R31). -/
def f64 : Fmt := { eb := 11, fb := 52 }
/-- FP32 (R31). -/
def f32 : Fmt := { eb := 8, fb := 23 }
/-- BF16 (R31). -/
def bf16 : Fmt := { eb := 8, fb := 7 }
/-- FP16 (R31). -/
def f16 : Fmt := { eb := 5, fb := 10 }

/-- The standard format of a scalar or packed type code (R61). -/
def fmtOfType (ty : Nat) : Fmt :=
  if ty = 8 then f64 else if ty = 9 then f32 else if ty = 10 ∨ ty = 12 then bf16 else f16

/-- The sign bit of a format. -/
def Fmt.sign (f : Fmt) : Nat := 2 ^ (f.eb + f.fb)
/-- The exponent of the smallest nonzero magnitude (R31, R41). -/
def Fmt.emin (f : Fmt) : Int := 2 - 2 ^ (f.eb - 1) - f.fb
/-- The code of +∞. -/
def Fmt.infCode (f : Fmt) : Nat := (2 ^ f.eb - 1) * 2 ^ f.fb
/-- The canonical quiet NaN (R32). -/
def Fmt.nanCode (f : Fmt) : Nat := f.infCode + 2 ^ (f.fb - 1)

/-- The value of a code of a standard format (R31). -/
def Fmt.decode (f : Fmt) (x : Nat) : FVal :=
  let neg : Bool := x / f.sign % 2 = 1
  let ef := x / 2 ^ f.fb % 2 ^ f.eb
  let mf := x % 2 ^ f.fb
  if ef = 2 ^ f.eb - 1 then (if mf = 0 then .inf neg else .nan)
  else if ef = 0 then .fin neg mf f.emin
  else .fin neg (2 ^ f.fb + mf) (f.emin + ef - 1)

/-- A grid of R41: fraction width, exponent of the smallest spacing, and whether the spacing is fixed (e = 0). -/
structure Grid where
  fw : Nat
  emin : Int
  fixed : Bool
  deriving DecidableEq, Repr

/-- Rounding of a magnitude m × 2^e, plus a positive amount below the last bit when sticky, to n × 2^q on the grid
(R41, R43). -/
def roundMag (g : Grid) (mode : Mode) (neg : Bool) (m : Nat) (e : Int) (sticky : Bool) : Nat × Int :=
  let top : Int := e + Nat.log2 m
  let q : Int := if g.fixed then g.emin else max g.emin (top - g.fw)
  let d := (q - e).toNat
  let n := if q ≤ e then m * 2 ^ (e - q).toNat else m / 2 ^ d
  let r := if q ≤ e then 0 else m % 2 ^ d
  let half := 2 ^ d
  let odd : Bool :=
    if g.fw = 0 ∧ ¬ g.fixed then (if n = 0 then false else (q - g.emin + 1) % 2 = 1) else n % 2 = 1
  let up : Bool :=
    match mode with
    | .rz => false
    | .rup => !neg
    | .rdn => neg
    | .rna => half ≤ 2 * r
    | .rne => half < 2 * r || (half == 2 * r && (sticky || odd))
    | .sr rnd => 2 ^ 16 ≤ r * 2 ^ 16 / 2 ^ d + rnd
  let exact : Bool := r == 0 && !sticky
  (if !exact && up && !(m == 0 && !sticky) then n + 1 else n, q)

/-- IEEE overflow of a mode (R41): true gives infinity, false the largest finite value. -/
def overflowsToInf (mode : Mode) (neg : Bool) : Bool :=
  match mode with
  | .rz => false
  | .rup => !neg
  | .rdn => neg
  | _ => true

/-- `RoundTo(fmt, v, mode)` of R41 as a code, for a magnitude with a sticky part. -/
def Fmt.roundFin (f : Fmt) (mode : Mode) (neg : Bool) (m : Nat) (e : Int) (sticky : Bool) : Nat :=
  let s := if neg then f.sign else 0
  if m = 0 ∧ sticky = false then s
  else
    let (n, q) := roundMag { fw := f.fb, emin := f.emin, fixed := false } mode neg m e sticky
    let (n, q) := if n = 2 ^ (f.fb + 1) then (2 ^ f.fb, q + 1) else (n, q)
    if n < 2 ^ f.fb then s + n
    else
      let ef := (q - f.emin + 1).toNat
      if 2 ^ f.eb - 1 ≤ ef then
        s + (if overflowsToInf mode neg then f.infCode else f.infCode - 1)
      else s + ef * 2 ^ f.fb + (n - 2 ^ f.fb)

/-- `RoundTo(fmt, v, mode)` of R41 as a code; NaNs become canonical (R32). -/
def Fmt.round (f : Fmt) (mode : Mode) : FVal → Nat
  | .nan => f.nanCode
  | .inf neg => (if neg then f.sign else 0) + f.infCode
  | .fin neg m e => f.roundFin mode neg m e false

/-- The negation of a value. -/
def FVal.neg : FVal → FVal
  | .nan => .nan
  | .inf s => .inf !s
  | .fin s m e => .fin (!s) m e

/-- The exact product (R97): 0 × ∞ is NaN. -/
def FVal.mul : FVal → FVal → FVal
  | .nan, _ => .nan
  | _, .nan => .nan
  | .inf s, .inf t => .inf (s != t)
  | .inf s, .fin t m _ => if m = 0 then .nan else .inf (s != t)
  | .fin s m _, .inf t => if m = 0 then .nan else .inf (s != t)
  | .fin s m e, .fin t n f => .fin (s != t) (m * n) (e + f)

/-- The signed significand of a finite value at exponent q, exact when q is at most its own. -/
def FVal.atExp (q : Int) : FVal → Int
  | .fin s m e => (if s then -1 else 1) * (m * 2 ^ (e - q).toNat : Nat)
  | _ => 0

/-- The exponent of a finite value. -/
def FVal.exp : FVal → Int
  | .fin _ _ e => e
  | _ => 0

/-- The value is a NaN. -/
def FVal.isNan : FVal → Bool
  | .nan => true
  | _ => false

/-- The sign of a value. -/
def FVal.isNeg : FVal → Bool
  | .nan => false
  | .inf s => s
  | .fin s _ _ => s

/-- The value is an infinity. -/
def FVal.isInf : FVal → Bool
  | .inf _ => true
  | _ => false

/-- The exact sum of values (R97): ∞ − ∞ is NaN, and a zero sum has the sign of R41. -/
def FVal.sum (mode : Mode) (xs : List FVal) : FVal :=
  if xs.any FVal.isNan then .nan
  else if xs.any FVal.isInf then
    let pos := xs.any fun x => x.isInf && !x.isNeg
    let neg := xs.any fun x => x.isInf && x.isNeg
    if pos && neg then .nan else .inf neg
  else
    let q := xs.foldl (fun a x => min a x.exp) ((xs.head?.map FVal.exp).getD 0)
    let t := xs.foldl (fun a x => a + x.atExp q) (0 : Int)
    if t = 0 then
      let allNeg := xs.all FVal.isNeg
      let allPos := xs.all fun x => !x.isNeg
      .fin (if allNeg then true else if allPos then false else mode == .rdn) 0 q
    else .fin (t < 0) t.natAbs q

/-- The order of two values that are no NaN, zeros of either sign equal (R99). -/
def FVal.cmp : FVal → FVal → Ordering
  | .inf s, .inf t => if s = t then .eq else if s then .lt else .gt
  | .inf s, _ => if s then .lt else .gt
  | _, .inf t => if t then .gt else .lt
  | x, y =>
    let q := min x.exp y.exp
    compare (x.atExp q) (y.atExp q)

/-- The first value comes before the second, −0 below +0 (R98). -/
def FVal.below (x y : FVal) : Bool :=
  match x.cmp y with
  | .lt => true
  | .gt => false
  | .eq => x.isNeg && !y.isNeg

/-- FMIN and FMAX on codes (R98). -/
def Fmt.minmax (f : Fmt) (isMax : Bool) (a b : Nat) : Nat :=
  let x := f.decode a
  let y := f.decode b
  match x.isNan, y.isNan with
  | true, true => f.nanCode
  | true, false => b
  | false, true => a
  | false, false => if (if isMax then y.below x else x.below y) then a else b

/-- FADD and FSUB on codes (R97). -/
def Fmt.add (f : Fmt) (mode : Mode) (a b : Nat) : Nat := f.round mode (FVal.sum mode [f.decode a, f.decode b])
/-- FSUB on codes (R97). -/
def Fmt.sub (f : Fmt) (mode : Mode) (a b : Nat) : Nat :=
  f.round mode (FVal.sum mode [f.decode a, (f.decode b).neg])
/-- FMUL on codes (R97). -/
def Fmt.mul (f : Fmt) (mode : Mode) (a b : Nat) : Nat := f.round mode ((f.decode a).mul (f.decode b))
/-- FFMA on codes: the product is not rounded (R97). -/
def Fmt.fma (f : Fmt) (mode : Mode) (a b c : Nat) : Nat :=
  f.round mode (FVal.sum mode [(f.decode a).mul (f.decode b), f.decode c])
/-- FDOT2 on codes of format f with an FP32 addend, rounded once to FP32 (R97). -/
def Fmt.dot2 (f : Fmt) (mode : Mode) (a0 b0 a1 b1 c : Nat) : Nat :=
  f32.round mode (FVal.sum mode
    [(f.decode a0).mul (f.decode b0), (f.decode a1).mul (f.decode b1), f32.decode c])

/-- FCLASS (R100). -/
def Fmt.classify (f : Fmt) (x : Nat) : Nat :=
  match f.decode x with
  | .nan => if x / 2 ^ (f.fb - 1) % 2 = 1 then 2 ^ 9 else 2 ^ 8
  | .inf s => if s then 2 ^ 0 else 2 ^ 7
  | .fin s m _ =>
    if m = 0 then (if s then 2 ^ 3 else 2 ^ 4)
    else if m < 2 ^ f.fb then (if s then 2 ^ 2 else 2 ^ 5)
    else (if s then 2 ^ 1 else 2 ^ 6)

/-- A finite value rounded to an integer, as its magnitude (R101, R106). -/
def roundInt (mode : Mode) (neg : Bool) (m : Nat) (e : Int) : Nat :=
  (roundMag { fw := 1, emin := 0, fixed := true } mode neg m e false).1

/-- FROUND (R101). -/
def Fmt.roundIntegral (f : Fmt) (mode : Mode) (x : Nat) : Nat :=
  match f.decode x with
  | .fin s m e => f.round .rne (.fin s (roundInt mode s m e) 0)
  | v => f.round .rne v

/-- FLDEXP (R101). -/
def Fmt.ldexp (f : Fmt) (mode : Mode) (x : Nat) (n : Int) : Nat :=
  match f.decode x with
  | .fin s m e => f.round mode (.fin s m (e + n))
  | v => f.round mode v

/-- FFREXP: the fraction and the exponent (R101). -/
def Fmt.frexp (f : Fmt) (x : Nat) : Nat × Int :=
  match f.decode x with
  | .fin s m e =>
    if m = 0 then (x, 0)
    else
      let k := e + Nat.log2 m + 1
      (f.round .rne (.fin s m (e - k)), k)
  | .inf _ => (x, 0)
  | .nan => (f.nanCode, 0)

/-- An integer as a value. -/
def FVal.ofInt (n : Int) : FVal := .fin (n < 0) n.natAbs 0

/-- CVTN: a value rounded to an integer and clamped (R106). -/
def FVal.toIntClamped (mode : Mode) (lo hi : Int) : FVal → Int
  | .nan => 0
  | .inf s => if s then lo else hi
  | .fin s m e =>
    let n : Int := roundInt mode s m e
    let n := if s then -n else n
    max lo (min hi n)

/-! ### Format slots (R34 to R42) -/

/-- The fields of a format slot's descriptor word (R34). -/
structure Slot where
  w : Nat
  s : Nat
  eb : Nat
  bias : Int
  spec : Nat
  scale : Nat
  rmode : Nat
  ovft : Bool
  margin : Int
  deriving DecidableEq, Repr

/-- The fields of a descriptor word (R34). -/
def Slot.ofWord (x : Word) : Slot :=
  { w := (x.extractLsb' 8 4).toNat, s := (x.extractLsb' 7 1).toNat, eb := (x.extractLsb' 4 3).toNat,
    bias := (x.extractLsb' 12 8).toInt, spec := (x.extractLsb' 20 2).toNat, scale := (x.extractLsb' 25 2).toNat,
    rmode := (x.extractLsb' 22 3).toNat, ovft := x.extractLsb' 27 1 == 1, margin := (x.extractLsb' 28 4).toInt }

/-- The fraction width m (R34). -/
def Slot.fw (k : Slot) : Nat := k.w - k.s - k.eb

/-- The descriptor is valid (R35). -/
def Slot.valid (x : Word) : Bool :=
  let k := Slot.ofWord x
  2 ≤ k.w && k.w ≤ 8 && k.s + k.eb ≤ k.w && k.scale != 3 && k.rmode ≤ 5 && k.spec != 3
    && x.extractLsb' 0 4 == 0 && !(k.eb == 0 && k.spec != 0) && !(k.spec == 2 && (k.eb < 2 || k.fw < 1))
    && !(k.spec == 1 && k.eb + k.fw < 2)

/-- The container size in bits (R36). -/
def Slot.container (k : Slot) : Nat := if 5 ≤ k.w then 8 else if 3 ≤ k.w then 4 else 2

/-- The exponent of the smallest nonzero magnitude, `lsb(k)` of R47. -/
def Slot.lsb (k : Slot) : Int := if k.eb = 0 then -k.bias else 1 - k.bias - k.fw

/-- The grid of a slot (R41). -/
def Slot.grid (k : Slot) : Grid := { fw := k.fw, emin := k.lsb, fixed := k.eb = 0 }

/-- `Decode(k, c)` (R37). -/
def Slot.decode (k : Slot) (c : Nat) : FVal :=
  let c := c % 2 ^ k.w
  if k.eb = 0 then
    let n : Int := if k.s = 1 ∧ 2 ^ (k.w - 1) ≤ c then (c : Int) - 2 ^ k.w else c
    .fin (n < 0) n.natAbs (-k.bias)
  else
    let neg : Bool := k.s = 1 && c / 2 ^ (k.w - 1) % 2 = 1
    let ef := c / 2 ^ k.fw % 2 ^ k.eb
    let mf := c % 2 ^ k.fw
    if k.spec = 1 ∧ ef = 2 ^ k.eb - 1 ∧ mf = 2 ^ k.fw - 1 then .nan
    else if k.spec = 2 ∧ ef = 2 ^ k.eb - 1 then (if mf = 0 then .inf neg else .nan)
    else if ef = 0 then .fin neg mf (1 - k.bias - k.fw)
    else .fin neg (2 ^ k.fw + mf) (ef - k.bias - k.fw)

/-- MaxCode (R38). -/
def Slot.maxCode (k : Slot) : Nat :=
  if k.eb = 0 then 2 ^ (k.w - k.s) - 1
  else if k.spec = 1 then 2 ^ (k.eb + k.fw) - 2
  else if k.spec = 2 then (2 ^ k.eb - 2) * 2 ^ k.fw + 2 ^ k.fw - 1
  else 2 ^ (k.eb + k.fw) - 1

/-- The code of the most negative finite value; 0 for an unsigned slot (R42). -/
def Slot.minCode (k : Slot) : Nat :=
  if k.s = 0 then 0 else if k.eb = 0 then 2 ^ (k.w - 1) else 2 ^ (k.w - 1) + k.maxCode

/-- NaNCode(k) (R38). -/
def Slot.nanCode (k : Slot) : Nat :=
  if k.spec = 1 then 2 ^ (k.eb + k.fw) - 1 else (2 ^ k.eb - 1) * 2 ^ k.fw + 2 ^ (k.fw - 1)

/-- emax(k): floor(log2 MaxFin) (R38). -/
def Slot.emax (k : Slot) : Int :=
  match k.decode k.maxCode with
  | .fin _ m e => e + Nat.log2 m
  | _ => 0

/-- The code whose Decode is the grid point n × 2^q (R42). -/
def Slot.codeOf (k : Slot) (neg : Bool) (n : Nat) (q : Int) : Nat :=
  if k.eb = 0 then (if neg then (2 ^ k.w - n) % 2 ^ k.w else n)
  else
    let (n, q) := if n = 2 ^ (k.fw + 1) then (2 ^ k.fw, q + 1) else (n, q)
    let s := if neg ∧ k.s = 1 then 2 ^ (k.w - 1) else 0
    if n < 2 ^ k.fw then s + n else s + (q - k.lsb + 1).toNat * 2 ^ k.fw + (n - 2 ^ k.fw)

/-- `Encode(k, v, mode)`: the code and the overflow indication (R42). -/
def Slot.encode (k : Slot) (mode : Mode) : FVal → Nat × Bool
  | .nan => if k.spec = 0 then (0, true) else (k.nanCode, false)
  | .inf neg => (if neg then k.minCode else k.maxCode, true)
  | .fin neg m e =>
    let (n, q) := roundMag k.grid mode neg m e false
    let v := FVal.fin neg n q
    if n = 0 then (k.codeOf (neg && k.eb != 0) 0 q, false)
    else if v.cmp (k.decode k.maxCode) = .gt then (k.maxCode, true)
    else if k.s = 0 ∧ neg then (0, true)
    else if neg ∧ v.cmp (k.decode k.minCode) = .lt then (k.minCode, true)
    else (k.codeOf neg n q, false)

/-- A value times 2^t. -/
def FVal.scale (t : Int) : FVal → FVal
  | .fin s m e => .fin s m (e + t)
  | v => v

/-- The random word generator of R44. -/
def draw64 (seed g c : BitVec 64) : BitVec 64 :=
  let x := seed ^^^ (g * 0x9E3779B97F4A7C15#64)
  let x := x + (c + 1) * 0xD1B54A32D192ED03#64
  let x := (x ^^^ (x >>> 30)) * 0xBF58476D1CE4E5B9#64
  let x := (x ^^^ (x >>> 27)) * 0x94D049BB133111EB#64
  x ^^^ (x >>> 31)

/-! ### Special functions (R102, R103) -/

/-- The fraction bits of the fixed-point work below; log 10. -/
def specialBits : Nat := 704

/-- Floor of the square root, one result bit for each unit of fuel. -/
def isqrtAux : Nat → Nat → Nat → Nat
  | 0, _, r => r
  | k + 1, n, r => if (r + 2 ^ k) * (r + 2 ^ k) ≤ n then isqrtAux k n (r + 2 ^ k) else isqrtAux k n r

/-- Floor of the square root. -/
def isqrt (n : Nat) : Nat := isqrtAux (Nat.log2 n / 2 + 1) n 0

/-- The sum of x^(2k+1) / (2k+1) in fixed point of P bits, from the power p = x^(2k+1). -/
def atanhSeries (P x2 : Nat) : Nat → Nat → Nat → Nat → Nat
  | 0, _, _, acc => acc
  | fuel + 1, k, p, acc => atanhSeries P x2 fuel (k + 1) (p * x2 / 2 ^ P) (acc + p / (2 * k + 1))

/-- The alternating sum of the arctangent series, from the power p = x^(2k+1). -/
def atanSeries (d2 : Nat) : Nat → Nat → Int → Int → Int
  | 0, _, _, acc => acc
  | fuel + 1, k, p, acc =>
    atanSeries d2 fuel (k + 1) (p / d2) (if k % 2 = 0 then acc + p / (2 * k + 1) else acc - p / (2 * k + 1))

/-- ln 2 in fixed point. -/
def ln2Fixed : Nat := 2 * atanhSeries specialBits (2 ^ specialBits / 9) 240 0 (2 ^ specialBits / 3) 0

/-- π in fixed point, by Machin's formula. -/
def piFixed : Nat :=
  (16 * atanSeries 25 320 0 (2 ^ specialBits / 5) 0 - 4 * atanSeries 57121 100 0 (2 ^ specialBits / 239) 0).toNat

/-- The sum of t^k / k! in fixed point from the term p. -/
def expSeries (P t : Nat) : Nat → Nat → Nat → Nat → Nat
  | 0, _, _, acc => acc
  | fuel + 1, k, p, acc => expSeries P t fuel (k + 1) (p * t / 2 ^ P / (k + 1)) (acc + p)

/-- The alternating sum of t^(2k+r) / (2k+r)! from the term p, with j = 2k + r. -/
def trigSeries (P t2 : Nat) : Nat → Nat → Bool → Nat → Int → Int
  | 0, _, _, _, acc => acc
  | fuel + 1, j, minus, p, acc =>
    trigSeries P t2 fuel (j + 2) (!minus) (p * t2 / 2 ^ P / ((j + 1) * (j + 2)))
      (if minus then acc - p else acc + p)

/-- sin(π r) for 0 ≤ r ≤ 1/2 in fixed point. -/
def sinPiFixed (r : Nat) : Nat :=
  let P := specialBits
  let quarter := 2 ^ (P - 2)
  if r ≤ quarter then
    let t := r * piFixed / 2 ^ P
    (trigSeries P (t * t / 2 ^ P) 100 1 false t 0).toNat
  else
    let t := (2 ^ (P - 1) - r) * piFixed / 2 ^ P
    (trigSeries P (t * t / 2 ^ P) 100 0 false (2 ^ P) 0).toNat

/-- A quotient of magnitudes with its sticky part. -/
def roundQuotient (mode : Mode) (neg : Bool) (m : Nat) (e : Int) (n : Nat) (f : Int) : Nat :=
  let k := Nat.log2 n + 64
  let q := m * 2 ^ k / n
  f32.roundFin mode neg q (e - f - k) (m * 2 ^ k % n != 0)

/-- FDIV (R102, R103). -/
def fdiv (mode : Mode) (a b : Nat) : Nat :=
  match f32.decode a, f32.decode b with
  | .nan, _ => f32.nanCode
  | _, .nan => f32.nanCode
  | .inf _, .inf _ => f32.nanCode
  | .inf s, y => f32.round mode (.inf (s != y.isNeg))
  | x, .inf t => f32.round mode (.fin (x.isNeg != t) 0 0)
  | .fin s m e, .fin t n f =>
    if n = 0 then (if m = 0 then f32.nanCode else f32.round mode (.inf (s != t)))
    else if m = 0 then f32.round mode (.fin (s != t) 0 0)
    else roundQuotient mode (s != t) m e n f

/-- FRCP (R102, R103). -/
def frcp (mode : Mode) (a : Nat) : Nat := fdiv mode 0x3F800000 a

/-- The significand and an even exponent of a finite value. -/
def evenExp (m : Nat) (e : Int) : Nat × Int := if e % 2 = 0 then (m, e) else (2 * m, e - 1)

/-- FSQRT (R102, R103). -/
def fsqrt (mode : Mode) (a : Nat) : Nat :=
  match f32.decode a with
  | .nan => f32.nanCode
  | .inf s => if s then f32.nanCode else f32.round mode (.inf false)
  | .fin s m e =>
    if m = 0 then a
    else if s then f32.nanCode
    else
      let (m, e) := evenExp m e
      let n := m * 2 ^ 128
      let r := isqrt n
      f32.roundFin mode false r (e / 2 - 64) (r * r != n)

/-- FRSQ (R102, R103). -/
def frsq (mode : Mode) (a : Nat) : Nat :=
  match f32.decode a with
  | .nan => f32.nanCode
  | .inf s => if s then f32.nanCode else 0
  | .fin s m e =>
    if m = 0 then f32.round mode (.inf s)
    else if s then f32.nanCode
    else
      let (m, e) := evenExp m e
      let n := 2 ^ 256 / m
      let r := isqrt n
      f32.roundFin mode false r (-(e / 2) - 128) (r * r * m != 2 ^ 256)

/-- FEXP2 (R102, R103). -/
def fexp2 (mode : Mode) (a : Nat) : Nat :=
  match f32.decode a with
  | .nan => f32.nanCode
  | .inf s => if s then 0 else f32.round mode (.inf false)
  | .fin s m e =>
    let P := specialBits
    if m = 0 then 0x3F800000
    else if 9 ≤ e + Nat.log2 m then f32.roundFin mode false 1 (if s then -400 else 400) true
    else
      let x : Int := (if s then -1 else 1) * (m * 2 ^ (e + P).toNat : Nat)
      let n := x / 2 ^ P
      let f := (x % 2 ^ P).toNat
      if f = 0 then f32.roundFin mode false 1 n false
      else f32.roundFin mode false (expSeries P (f * ln2Fixed / 2 ^ P) 200 0 (2 ^ P) 0) (n - P) true

/-- FLOG2 (R102, R103). -/
def flog2 (mode : Mode) (a : Nat) : Nat :=
  match f32.decode a with
  | .nan => f32.nanCode
  | .inf s => if s then f32.nanCode else f32.round mode (.inf false)
  | .fin s m e =>
    let P := specialBits
    if m = 0 then f32.round mode (.inf true)
    else if s then f32.nanCode
    else
      let top := Nat.log2 m
      let k : Int := e + top
      if m = 2 ^ top then f32.round mode (FVal.ofInt k)
      else
        let z := (m - 2 ^ top) * 2 ^ P / (m + 2 ^ top)
        let l := 2 * atanhSeries P (z * z / 2 ^ P) 240 0 z 0 * 2 ^ P / ln2Fixed
        let t : Int := k * 2 ^ P + l
        f32.roundFin mode (t < 0) t.natAbs (-P) true

/-- sin(π x) with a given sign for x = r ÷ 2^P, r below 2^(P+1), where no exact result of R103 applies. -/
def roundSin (mode : Mode) (neg : Bool) (r : Nat) : Nat :=
  let P := specialBits
  let one := 2 ^ P
  let (neg, r) := if one < r then (!neg, r - one) else (neg, r)
  let r := if one / 2 < r then one - r else r
  if 2 * r = one then f32.round mode (.fin neg 1 0)
  else f32.roundFin mode neg (sinPiFixed r) (-P) true

/-- FSINP (R102, R103). -/
def fsinp (mode : Mode) (a : Nat) : Nat :=
  match f32.decode a with
  | .nan => f32.nanCode
  | .inf _ => f32.nanCode
  | .fin s m e =>
    let P := specialBits
    let r := m * 2 ^ (e + P).toNat % 2 ^ (P + 1)
    if r = 0 ∨ r = 2 ^ P then (if s then 0x80000000 else 0) else roundSin mode s r

/-- FCOSP (R102, R103). -/
def fcosp (mode : Mode) (a : Nat) : Nat :=
  match f32.decode a with
  | .nan => f32.nanCode
  | .inf _ => f32.nanCode
  | .fin _ m e =>
    let P := specialBits
    let r := (m * 2 ^ (e + P).toNat + 2 ^ (P - 1)) % 2 ^ (P + 1)
    if r = 0 ∨ r = 2 ^ P then 0 else roundSin mode false r

end Sys2Proof.Machine
end

