-- ==== Sys2Proof/Config.lean ====
section
/-! DEFINITION. What the specification leaves open: free values without a body, of which nothing can be proved
(logs 2 and 7), and the fixed figures of the device. -/

namespace Sys2Proof.Config

/-- The advance of Lammas time in 2^-16 ns over the n-th clock that passes by itself (R331, R332); log 2. -/
opaque taiGap : Nat → Nat

/-- Which of the lines that may leave a full set goes when the n-th line comes (R160, R167); log 82. -/
opaque victim : Nat → Nat

/-- The n-th word whose value the specification does not state; log 7. -/
opaque freeWord : Nat → Word

/-- A byte that the device would read where no mapping of its own VF answers, by virtual address; log 9. -/
opaque freeByte : Nat → Byte

/-- The VF that Furze binds an aperture channel to, by 64 × die + channel (R228); log 13. -/
opaque channelVf : Nat → Nat

/-- The part's revision number in the capability list (R410); log 97. -/
opaque revision : Nat

/-- The Folak EtherType in the capability list (R380, R410); log 97. -/
opaque etherType : Nat

/-- The rate in ns a second at which BOUND grows in HOLDOVER, at most 100 (R333); log 17. -/
opaque holdoverRate : Nat

/-- The chip's fabric MAC address (R379); log 97. -/
opaque fabricMac : Nat

/-- The MAC address of a Folak port (R383); log 97. -/
opaque portMac : Nat → Nat

/-- Whether Furze withholds the issue cycles of a clock while power or thermal protection acts (R13, R411); log 121. -/
opaque withheld : Nat → Bool

/-- Compute clusters of the package (R9, R12). -/
def clusters : Nat := 320

/-- Shared-cache slices of the package (R167). -/
def slices : Nat := 192

/-- Application cores of the package (R11, R12). -/
def cores : Nat := 64

/-- Quarter stacks of the package, twelve to a die (R11, R174). -/
def quarters : Nat := 48

/-- Bytes of a quarter stack (R12, R174). -/
def quarterBytes : Nat := 12 * 2 ^ 30

/-- Arithmetic clocks in one microsecond (R2). -/
def clocksPerUs : Nat := 2400

end Sys2Proof.Config
end

