-- ==== Sys2Proof/Syntax.lean ====
section
/-! DEFINITION. The syntax of a Worzer program and of the device's events: operand specifiers (R59), the fields
of the base form (R55, R56), of the extended form (R57, R58, R60, R61) and of the clause header (R64), the
operands of the events of spec/opcode_table.json, and the one inductive `Instr` with one constructor per row. -/

namespace Sys2Proof

/-- A register specifier (R59): class 00 is V, class 01 is S0 to S255, class 10 is S256 to S511, class 11 is
read by the operand kind of its position (R21). -/
inductive Opnd where
  | v (i : BitVec 8)
  | slo (i : BitVec 8)
  | shi (i : BitVec 8)
  | k (i : BitVec 8)
  deriving DecidableEq, Repr

/-- The fields of an extended-form instruction (R57, R58, R60, R61) other than its opcode: guard GP and GN, FLAG,
IMM20, the four specifiers, the subfields of MOD ([13:10], [9:7], [6:4], [3:0]) and the trailing literal. -/
structure Ext where
  gp : BitVec 3 := 7
  gn : Bool := false
  flag : BitVec 4 := 15
  imm : BitVec 20 := 0
  op0 : Opnd := .v 0
  op1 : Opnd := .v 0
  op2 : Opnd := .v 0
  op3 : Opnd := .v 0
  ty : BitVec 4 := 0
  rm : BitVec 3 := 0
  sc : BitVec 3 := 0
  lo : BitVec 4 := 0
  lit : Option (BitVec 64) := none
  deriving DecidableEq, Repr

/-- Source B of a base-form instruction: a V register, or the literal that replaces it (R56). -/
inductive BSrc where
  | reg (i : BitVec 8)
  | lit (x : BitVec 32)
  deriving DecidableEq, Repr

/-- The fields of a base-form instruction (R55). -/
structure Base where
  vd : BitVec 8
  va : BitVec 8
  b : BSrc
  deriving DecidableEq, Repr

/-- The fields of a clause header (R64). -/
structure Header where
  wait : BitVec 12
  set1 : BitVec 4
  set2 : BitVec 4
  count : BitVec 4
  deriving DecidableEq, Repr

/-- The extended-form operations of R73, with the BRA modes of R112 and the BAR forms of R205 apart. -/
inductive Op where
  | add | sub | mul | mulh | mad | div | min | max | abs | neg | lea | cmp
  | sel | mov | movi | cvti | and | or | xor | andn | not | shl | shrl | shra
  | rot | bfe | bfi | popc | clz | ctz | brev | permb | plop | pmov | fadd | fsub
  | fmul | ffma | fmin | fmax | fcmp | fclass | fround | fldexp | ffrexp | pfma | fdot2 | frcp
  | frsq | fsqrt | fdiv | fexp2 | flog2 | fsinp | fcosp | cvt | cvtf | cvtn | qnt | dqn
  | qblk | qscl | pack | unpk | rnd | rowMatch | bfly | shfl | vote | rowred | elect | braU
  | braS | braM | brx | call | ret | reform | exit | yield | nop | trap | brk | sreg
  | swreg | icinv | ld | st | lds | sts | ldt | stt | ldc | pref | stx | ldf
  | ste | feinit | waita | atom | red | atoms | barArv | barWait | barSync | barSet | barSwap | barexp
  | fence | cpy | cpym | qpop | qpeek | qpush | qadv | qrst | wbld | mma | azero | adrain
  | aread | aadd | glean | nextit | glend | gadd | glstat | arnew | ardrop | arseal | arqry | aalloc
  | statrd | statfl | statrst | task | tdep | tsig | uint | pmrd | mark | clk
  deriving DecidableEq, Repr

/-- A Folak request or response as it reaches this chip (R381): path, origin stamp, request tag, target window,
generation and offset, initiator node, owner of its frame (R383), width in bytes, operation and type codes, data. -/
structure Flit where
  path : Nat
  stamp : Nat
  tag : Nat
  win : Nat
  gen : Nat
  off : Nat
  node : Nat
  owner : Nat
  width : Nat
  op : BitVec 3
  ty : BitVec 4
  data : List Byte
  deriving DecidableEq, Repr

/-- A gang control flit (R337, R348), with the owner under which it came (R385). -/
structure GangMsg where
  owner : Nat
  gang : Nat
  time : Nat
  guard : Nat
  member : Nat
  deriving DecidableEq, Repr

/-- A flit of a received frame (R381): a request, a response, a revoke or a drain marker with its owner, node and window (R388),
or a gang control flit of a kind for a VF (R337; log 15). -/
inductive InFlit where
  | read (f : Flit) | write (f : Flit) | atomic (f : Flit) | reduction (f : Flit)
  | data (f : Flit) | ack (f : Flit) | revoked (f : Flit) | error (f : Flit)
  | revoke (owner node win : Nat) | drain (owner node win : Nat)
  | gang (kind vf : Nat) (m : GangMsg)
  deriving DecidableEq, Repr

/-- A Folak frame at a port (R380): its SCI (R383), whether it passed FEC and Hedgerow's check, its packet number, LSEQ, LACK,
origin stamp and flits. -/
structure Frame where
  port : Nat
  sci : Nat
  secured : Bool
  pn : Nat
  lseq : Nat
  lack : Nat
  stamp : Nat
  flits : List InFlit
  deriving DecidableEq, Repr

/-- A window request to Furze (R386). -/
structure WindowReq where
  vf : Nat
  owner : Nat
  banks : Bool
  base : Nat
  pages : Nat
  r : Bool
  w : Bool
  a : Bool
  importers : List Nat
  deriving DecidableEq, Repr

/-- An import request to Furze (R387). -/
structure ImportReq where
  vf : Nat
  node : Nat
  win : Nat
  gen : Nat
  pages : Nat
  r : Bool
  w : Bool
  a : Bool
  confirmed : Bool
  deriving DecidableEq, Repr

/-- A reshaping of one partition's elastic share with the new address-range table (R393). -/
structure ReshapeReq where
  part : Nat
  share : List Nat
  weight : Nat
  ranges : List (BitVec 128)
  deriving DecidableEq, Repr

/-- How a PTP message travels (R331): over IEEE 802.3, UDP over IPv4 or over IPv6, or otherwise. -/
inductive PtpTransport where
  | ethernet | ipv4 | ipv6 | other
  deriving DecidableEq, Repr

/-- The delay mechanism of a PTP message (R331): request and response, peer delay, or another. -/
inductive PtpDelay where
  | endToEnd | peerToPeer | other
  deriving DecidableEq, Repr

/-- A PTP message as it reaches the Lammas unit (R331 to R333): its port, 0 to 23 a Folak port and from 24 on a logical front-end
port; transport, whether one-step, delay mechanism, whether it uses an option that R331 does not list, its domain; and what the
servo makes of it: the correction in units of 2^-16 ns, whether the unit is then locked, and the bound on its error. -/
structure PtpMsg where
  port : Nat
  transport : PtpTransport
  oneStep : Bool
  delay : PtpDelay
  unlisted : Bool
  domain : Nat
  corr : Int
  locked : Bool
  bound : Nat
  deriving DecidableEq, Repr

/-- A gang command record (R337). -/
structure GangCmd where
  coord : Bool
  policy : Bool
  gang : Nat
  gmemb : Nat
  guard : Nat
  time : Nat
  list : Nat
  target : Nat
  member : Nat
  deriving DecidableEq, Repr

/-- One VF of a provisioning record (R263, R268, R281, R298, R328, R383), with the addresses of its Lammas command window,
queue aperture, copy aperture, pager window, counter window and control window, 0 for none (R410). -/
structure VfRec where
  vf : Nat
  owner : Nat
  wins : List Nat
  poolBase : Nat
  poolN : Nat
  descBase : Nat
  rootBase : Nat
  rootQuota : Nat
  caps : List Nat
  slice : Nat
  deriving DecidableEq, Repr

/-- An interleave group of quarter stacks of one die (R174): its quarter stacks by number, 12 × die + 4 × stack + quarter, the
first byte of its physical range, and its granule in bytes where the record names one. -/
structure Ileave where
  quarters : List Nat
  base : Nat
  granule : Option Nat
  deriving DecidableEq, Repr

/-- A storage namespace (R390): its NQN, target address and target port. -/
structure Storage where
  nqn : List Byte
  addr : List Byte
  port : Nat
  deriving DecidableEq, Repr

/-- One partition of a provisioning record (R390, R392, R305): cores by blocks of 8 of one die, clusters by crossbar groups,
quarter stacks with their interleave groups (R174), the logical front-end port, 4 × physical port + port. -/
structure PartRec where
  part : Nat
  cores : List Nat
  groups : List Nat
  quarters : List Nat
  ileaves : List Ileave
  port : Nat
  storage : Option Storage
  push : Nat
  weight : Nat
  share : Option (List Nat)
  vfs : List VfRec
  deriving DecidableEq, Repr

/-- A provisioning record (R406): its sequence, whether signature and certificate verify, the digest, the
partitions, whether each physical front-end port runs as four logical ports (R390), the address-range table, the route
table (R379) and the keyed owners of each port (R384). -/
structure ProvRecord where
  seq : Nat
  verified : Bool
  digest : BitVec 256
  parts : List PartRec
  split : List Bool
  ranges : List (BitVec 128)
  routes : List (Nat × List Nat)
  owners : List (Nat × Nat)
  deriving DecidableEq, Repr

/-- What an application core or the host reaches in a VF: its device virtual memory (R366), or a page of the device by the
offset in it: the capability list (R409), the control window (R391), the counter window (R394), the Lammas command window
(R337), the pager window (R365), a queue page (R268), a channel page of a die (R228). -/
inductive Page where
  | memory | capability | control | counters | lammas | pager
  | queue (q : Nat)
  | channel (die chan : Nat)
  deriving DecidableEq, Repr

/-- An access of an application core, or under the number 64 of the host (R389), to a page of a VF: at a device virtual
address, or at an offset; a load, a store, or an instruction fetch (R366). -/
structure CoreAccess where
  vf : Nat
  core : Nat
  page : Page
  va : BitVec 64
  width : Nat
  store : Bool
  fetch : Bool
  data : List Byte
  deriving DecidableEq, Repr

/-- What Furze does with the partition stage (R365, R367): a mapping of a page of 2^shift bytes with its rights, PROTECTION, or the
invalidation of a range. -/
inductive PStageAnswer where
  | map (pa shift : Nat) (r w x : Bool)
  | protection
  | invalidate (size : Nat)
  deriving DecidableEq, Repr

/-- The registers that a plain register write reaches (R391, R394, R395, R400); those of a cluster through the window of
a VF (R394). -/
inductive RegName where
  | groot (vf : Nat) | pager (vf : Nat) | ring (vf : Nat)
  | counter (vf cl i : Nat) | control (vf cl i : Nat) | rbase (vf cl i : Nat) | rlimit (vf cl i : Nat)
  | lctl (vf cl : Nat) | bkpt (vf cl i : Nat) | shared (vf i : Nat) | sharedControl (vf i : Nat)
  | tbase (vf : Nat) | tctl (vf : Nat) | tcons (vf : Nat) | reserved
  deriving DecidableEq, Repr

/-- One constructor per row of spec/opcode_table.json: the clause header, the base words of R72, the extended
instructions of R73, and the events, whose operands name the state they act on. -/
inductive Instr where
  | runClause (h : Header)
  | addBase (b : Base)
  | subBase (b : Base)
  | mulBase (b : Base)
  | andBase (b : Base)
  | orBase (b : Base)
  | xorBase (b : Base)
  | andnBase (b : Base)
  | shlBase (b : Base)
  | shrlBase (b : Base)
  | shraBase (b : Base)
  | minI32Base (b : Base)
  | maxI32Base (b : Base)
  | minN32Base (b : Base)
  | maxN32Base (b : Base)
  | faddBase (b : Base)
  | fsubBase (b : Base)
  | fmulBase (b : Base)
  | fminBase (b : Base)
  | fmaxBase (b : Base)
  | ffmaBase (b : Base)
  | pfmaBf16x2Base (b : Base)
  | pfmaF16x2Base (b : Base)
  | madBase (b : Base)
  | rotBase (b : Base)
  | add (e : Ext)
  | sub (e : Ext)
  | mul (e : Ext)
  | mulh (e : Ext)
  | mad (e : Ext)
  | div (e : Ext)
  | min (e : Ext)
  | max (e : Ext)
  | abs (e : Ext)
  | neg (e : Ext)
  | lea (e : Ext)
  | cmp (e : Ext)
  | sel (e : Ext)
  | mov (e : Ext)
  | movi (e : Ext)
  | cvti (e : Ext)
  | and (e : Ext)
  | or (e : Ext)
  | xor (e : Ext)
  | andn (e : Ext)
  | not (e : Ext)
  | shl (e : Ext)
  | shrl (e : Ext)
  | shra (e : Ext)
  | rot (e : Ext)
  | bfe (e : Ext)
  | bfi (e : Ext)
  | popc (e : Ext)
  | clz (e : Ext)
  | ctz (e : Ext)
  | brev (e : Ext)
  | permb (e : Ext)
  | plop (e : Ext)
  | pmov (e : Ext)
  | fadd (e : Ext)
  | fsub (e : Ext)
  | fmul (e : Ext)
  | ffma (e : Ext)
  | fmin (e : Ext)
  | fmax (e : Ext)
  | fcmp (e : Ext)
  | fclass (e : Ext)
  | fround (e : Ext)
  | fldexp (e : Ext)
  | ffrexp (e : Ext)
  | pfma (e : Ext)
  | fdot2 (e : Ext)
  | frcp (e : Ext)
  | frsq (e : Ext)
  | fsqrt (e : Ext)
  | fdiv (e : Ext)
  | fexp2 (e : Ext)
  | flog2 (e : Ext)
  | fsinp (e : Ext)
  | fcosp (e : Ext)
  | cvt (e : Ext)
  | cvtf (e : Ext)
  | cvtn (e : Ext)
  | qnt (e : Ext)
  | dqn (e : Ext)
  | qblk (e : Ext)
  | qscl (e : Ext)
  | pack (e : Ext)
  | unpk (e : Ext)
  | rnd (e : Ext)
  | rowMatch (e : Ext)
  | bfly (e : Ext)
  | shfl (e : Ext)
  | vote (e : Ext)
  | rowred (e : Ext)
  | elect (e : Ext)
  | braU (e : Ext)
  | braS (e : Ext)
  | braM (e : Ext)
  | brx (e : Ext)
  | call (e : Ext)
  | ret (e : Ext)
  | reform (e : Ext)
  | exit (e : Ext)
  | yield (e : Ext)
  | nop (e : Ext)
  | trap (e : Ext)
  | brk (e : Ext)
  | sreg (e : Ext)
  | swreg (e : Ext)
  | icinv (e : Ext)
  | ld (e : Ext)
  | st (e : Ext)
  | lds (e : Ext)
  | sts (e : Ext)
  | ldt (e : Ext)
  | stt (e : Ext)
  | ldc (e : Ext)
  | pref (e : Ext)
  | stx (e : Ext)
  | ldf (e : Ext)
  | ste (e : Ext)
  | feinit (e : Ext)
  | waita (e : Ext)
  | atom (e : Ext)
  | red (e : Ext)
  | atoms (e : Ext)
  | barArv (e : Ext)
  | barWait (e : Ext)
  | barSync (e : Ext)
  | barSet (e : Ext)
  | barSwap (e : Ext)
  | barexp (e : Ext)
  | fence (e : Ext)
  | cpy (e : Ext)
  | cpym (e : Ext)
  | qpop (e : Ext)
  | qpeek (e : Ext)
  | qpush (e : Ext)
  | qadv (e : Ext)
  | qrst (e : Ext)
  | wbld (e : Ext)
  | mma (e : Ext)
  | azero (e : Ext)
  | adrain (e : Ext)
  | aread (e : Ext)
  | aadd (e : Ext)
  | glean (e : Ext)
  | nextit (e : Ext)
  | glend (e : Ext)
  | gadd (e : Ext)
  | glstat (e : Ext)
  | arnew (e : Ext)
  | ardrop (e : Ext)
  | arseal (e : Ext)
  | arqry (e : Ext)
  | aalloc (e : Ext)
  | statrd (e : Ext)
  | statfl (e : Ext)
  | statrst (e : Ext)
  | task (e : Ext)
  | tdep (e : Ext)
  | tsig (e : Ext)
  | uint (e : Ext)
  | pmrd (e : Ext)
  | mark (e : Ext)
  | clk (e : Ext)
  | rowCollectiveAct (g row : Nat)
  | rowStall (g row : Nat)
  | flagCompletion (g i : Nat)
  | scoreboardResult (g i : Nat)
  | feTimeout (g t : Nat)
  | waitaPoll (g t : Nat)
  | setPhaseComplete (task set : Nat)
  | copyUnitService (cl : Nat)
  | copyComplete (cl i : Nat)
  | qpushTileFilled (g q tile : Nat)
  | qadvTileFree (g q tile : Nat)
  | qrstReset (g q : Nat)
  | copyApertureStart (die chan : Nat) (data : BitVec 64)
  | matrixCommandComplete (cl : Nat) (fill : Bool)
  | helperAbandon (g gl part : Nat)
  | arenaChangePoint (vf i : Nat)
  | sealPoint (vf idx : Nat)
  | sweepEnd (vf idx : Nat)
  | windrowPushTimer (i : Nat)
  | windrowMerge (i : Nat)
  | queueSubmit (vf q : Nat) (data : BitVec 64)
  | placement (part : Nat)
  | agingTick (task : Nat)
  | coresidentSetTimeout (task set : Nat)
  | groupExit (g : Nat)
  | taskRetire (task : Nat)
  | sheafDraw (cl slot : Nat)
  | binAgeExpiry (g : Nat) (pc : BitVec 64)
  | yieldDelayExpiry (g : Nat) (pc : BitVec 64)
  | pinTimeout (line : Nat)
  | saveFrame (g : Nat)
  | resultDelivery (i j : Nat)
  | restore (i cl : Nat)
  | worldSwitch (part vf : Nat)
  | counterLowRead (hart vf cl i : Nat)
  | counterHighRead (hart vf cl i : Nat)
  | debugHalt (g : Nat)
  | pageWalk (i : Nat)
  | pagerInval (vf : Nat) (data : BitVec 64)
  | pagerReplay (vf : Nat) (data : BitVec 64)
  | pagerReplayFail (vf : Nat) (data : BitVec 64)
  | folakRead (f : Flit)
  | folakWrite (f : Flit)
  | folakAtomic (f : Flit)
  | folakReduction (f : Flit)
  | folakDataResponse (f : Flit)
  | folakAcknowledgement (f : Flit)
  | folakRevoked (f : Flit)
  | folakError (f : Flit)
  | linkRetransmit (port : Nat)
  | nodeLoss (node : Nat)
  | mkaSakInstall (port owner : Nat) (sak : Nat)
  | windowExport (w : Nat) (r : WindowReq)
  | windowImport (j : Nat) (r : ImportReq)
  | windowRevoke (w : Nat)
  | revokeFlit (node w : Nat)
  | drainMarker (w node : Nat)
  | treg (vf : Nat) (data : BitVec 64)
  | reshape (r : ReshapeReq)
  | ptpMessage (m : PtpMsg)
  | clockLoss
  | gangRegister (vf : Nat) (c : GangCmd)
  | gangStop (vf : Nat) (c : GangCmd)
  | gangResume (vf : Nat) (c : GangCmd)
  | gangAbort (vf : Nat) (c : GangCmd)
  | gangUnregister (vf : Nat) (c : GangCmd)
  | gangStartTime (vf e : Nat)
  | gangStopTime (vf e : Nat)
  | gangGuardExpiry (vf e : Nat)
  | stragglerPolicyExpiry (vf e : Nat)
  | gangResumeTime (vf e : Nat)
  | gangSilenceTimeout (vf e : Nat)
  | gangMsgStop (vf : Nat) (m : GangMsg)
  | gangMsgResume (vf : Nat) (m : GangMsg)
  | gangMsgAbort (vf : Nat) (m : GangMsg)
  | gangMsgHalted (vf : Nat) (m : GangMsg)
  | gangMsgSaved (vf : Nat) (m : GangMsg)
  | gangMsgResumed (vf : Nat) (m : GangMsg)
  | gangMsgMode (vf : Nat) (m : GangMsg)
  | gangMsgArrive (vf : Nat) (m : GangMsg)
  | gangMsgRelease (vf : Nat) (m : GangMsg)
  | gangMsgReadyToGo (vf : Nat) (m : GangMsg)
  | gangMsgGo (vf : Nat) (m : GangMsg)
  | gangMsgFlush (vf : Nat) (m : GangMsg)
  | powerGood
  | stageBComplete (quarters ports : List Nat)
  | provisioningRecord (r : ProvRecord)
  | partitionStart (part : Nat) (meas : BitVec 256)
  | clusterRelease (part : Nat)
  | vfReset (vf : Nat)
  | attestationQuote (nonce : BitVec 256)
  | thermalThrottle (on : Bool)
  | thermalShutdown
  | registerWrite (r : RegName) (v : BitVec 64)
  | lossOfLock
  | linkUp (port : Nat)
  | folakFrame (f : Frame)
  | applicationCoreAccess (a : CoreAccess)
  | partitionStageMiss (vf : Nat) (gpa : BitVec 64) (ans : PStageAnswer)
  | debuggerHold (g : Nat) (on : Bool)
  deriving DecidableEq, Repr

/-- The instruction of an extended operation with its fields. -/
def Instr.ofOp : Op → Ext → Instr
  | .add, e => .add e
  | .sub, e => .sub e
  | .mul, e => .mul e
  | .mulh, e => .mulh e
  | .mad, e => .mad e
  | .div, e => .div e
  | .min, e => .min e
  | .max, e => .max e
  | .abs, e => .abs e
  | .neg, e => .neg e
  | .lea, e => .lea e
  | .cmp, e => .cmp e
  | .sel, e => .sel e
  | .mov, e => .mov e
  | .movi, e => .movi e
  | .cvti, e => .cvti e
  | .and, e => .and e
  | .or, e => .or e
  | .xor, e => .xor e
  | .andn, e => .andn e
  | .not, e => .not e
  | .shl, e => .shl e
  | .shrl, e => .shrl e
  | .shra, e => .shra e
  | .rot, e => .rot e
  | .bfe, e => .bfe e
  | .bfi, e => .bfi e
  | .popc, e => .popc e
  | .clz, e => .clz e
  | .ctz, e => .ctz e
  | .brev, e => .brev e
  | .permb, e => .permb e
  | .plop, e => .plop e
  | .pmov, e => .pmov e
  | .fadd, e => .fadd e
  | .fsub, e => .fsub e
  | .fmul, e => .fmul e
  | .ffma, e => .ffma e
  | .fmin, e => .fmin e
  | .fmax, e => .fmax e
  | .fcmp, e => .fcmp e
  | .fclass, e => .fclass e
  | .fround, e => .fround e
  | .fldexp, e => .fldexp e
  | .ffrexp, e => .ffrexp e
  | .pfma, e => .pfma e
  | .fdot2, e => .fdot2 e
  | .frcp, e => .frcp e
  | .frsq, e => .frsq e
  | .fsqrt, e => .fsqrt e
  | .fdiv, e => .fdiv e
  | .fexp2, e => .fexp2 e
  | .flog2, e => .flog2 e
  | .fsinp, e => .fsinp e
  | .fcosp, e => .fcosp e
  | .cvt, e => .cvt e
  | .cvtf, e => .cvtf e
  | .cvtn, e => .cvtn e
  | .qnt, e => .qnt e
  | .dqn, e => .dqn e
  | .qblk, e => .qblk e
  | .qscl, e => .qscl e
  | .pack, e => .pack e
  | .unpk, e => .unpk e
  | .rnd, e => .rnd e
  | .rowMatch, e => .rowMatch e
  | .bfly, e => .bfly e
  | .shfl, e => .shfl e
  | .vote, e => .vote e
  | .rowred, e => .rowred e
  | .elect, e => .elect e
  | .braU, e => .braU e
  | .braS, e => .braS e
  | .braM, e => .braM e
  | .brx, e => .brx e
  | .call, e => .call e
  | .ret, e => .ret e
  | .reform, e => .reform e
  | .exit, e => .exit e
  | .yield, e => .yield e
  | .nop, e => .nop e
  | .trap, e => .trap e
  | .brk, e => .brk e
  | .sreg, e => .sreg e
  | .swreg, e => .swreg e
  | .icinv, e => .icinv e
  | .ld, e => .ld e
  | .st, e => .st e
  | .lds, e => .lds e
  | .sts, e => .sts e
  | .ldt, e => .ldt e
  | .stt, e => .stt e
  | .ldc, e => .ldc e
  | .pref, e => .pref e
  | .stx, e => .stx e
  | .ldf, e => .ldf e
  | .ste, e => .ste e
  | .feinit, e => .feinit e
  | .waita, e => .waita e
  | .atom, e => .atom e
  | .red, e => .red e
  | .atoms, e => .atoms e
  | .barArv, e => .barArv e
  | .barWait, e => .barWait e
  | .barSync, e => .barSync e
  | .barSet, e => .barSet e
  | .barSwap, e => .barSwap e
  | .barexp, e => .barexp e
  | .fence, e => .fence e
  | .cpy, e => .cpy e
  | .cpym, e => .cpym e
  | .qpop, e => .qpop e
  | .qpeek, e => .qpeek e
  | .qpush, e => .qpush e
  | .qadv, e => .qadv e
  | .qrst, e => .qrst e
  | .wbld, e => .wbld e
  | .mma, e => .mma e
  | .azero, e => .azero e
  | .adrain, e => .adrain e
  | .aread, e => .aread e
  | .aadd, e => .aadd e
  | .glean, e => .glean e
  | .nextit, e => .nextit e
  | .glend, e => .glend e
  | .gadd, e => .gadd e
  | .glstat, e => .glstat e
  | .arnew, e => .arnew e
  | .ardrop, e => .ardrop e
  | .arseal, e => .arseal e
  | .arqry, e => .arqry e
  | .aalloc, e => .aalloc e
  | .statrd, e => .statrd e
  | .statfl, e => .statfl e
  | .statrst, e => .statrst e
  | .task, e => .task e
  | .tdep, e => .tdep e
  | .tsig, e => .tsig e
  | .uint, e => .uint e
  | .pmrd, e => .pmrd e
  | .mark, e => .mark e
  | .clk, e => .clk e

/-- The operation and fields of an extended-form instruction. -/
def Instr.asExt : Instr → Option (Op × Ext)
  | .add e => some (.add, e)
  | .sub e => some (.sub, e)
  | .mul e => some (.mul, e)
  | .mulh e => some (.mulh, e)
  | .mad e => some (.mad, e)
  | .div e => some (.div, e)
  | .min e => some (.min, e)
  | .max e => some (.max, e)
  | .abs e => some (.abs, e)
  | .neg e => some (.neg, e)
  | .lea e => some (.lea, e)
  | .cmp e => some (.cmp, e)
  | .sel e => some (.sel, e)
  | .mov e => some (.mov, e)
  | .movi e => some (.movi, e)
  | .cvti e => some (.cvti, e)
  | .and e => some (.and, e)
  | .or e => some (.or, e)
  | .xor e => some (.xor, e)
  | .andn e => some (.andn, e)
  | .not e => some (.not, e)
  | .shl e => some (.shl, e)
  | .shrl e => some (.shrl, e)
  | .shra e => some (.shra, e)
  | .rot e => some (.rot, e)
  | .bfe e => some (.bfe, e)
  | .bfi e => some (.bfi, e)
  | .popc e => some (.popc, e)
  | .clz e => some (.clz, e)
  | .ctz e => some (.ctz, e)
  | .brev e => some (.brev, e)
  | .permb e => some (.permb, e)
  | .plop e => some (.plop, e)
  | .pmov e => some (.pmov, e)
  | .fadd e => some (.fadd, e)
  | .fsub e => some (.fsub, e)
  | .fmul e => some (.fmul, e)
  | .ffma e => some (.ffma, e)
  | .fmin e => some (.fmin, e)
  | .fmax e => some (.fmax, e)
  | .fcmp e => some (.fcmp, e)
  | .fclass e => some (.fclass, e)
  | .fround e => some (.fround, e)
  | .fldexp e => some (.fldexp, e)
  | .ffrexp e => some (.ffrexp, e)
  | .pfma e => some (.pfma, e)
  | .fdot2 e => some (.fdot2, e)
  | .frcp e => some (.frcp, e)
  | .frsq e => some (.frsq, e)
  | .fsqrt e => some (.fsqrt, e)
  | .fdiv e => some (.fdiv, e)
  | .fexp2 e => some (.fexp2, e)
  | .flog2 e => some (.flog2, e)
  | .fsinp e => some (.fsinp, e)
  | .fcosp e => some (.fcosp, e)
  | .cvt e => some (.cvt, e)
  | .cvtf e => some (.cvtf, e)
  | .cvtn e => some (.cvtn, e)
  | .qnt e => some (.qnt, e)
  | .dqn e => some (.dqn, e)
  | .qblk e => some (.qblk, e)
  | .qscl e => some (.qscl, e)
  | .pack e => some (.pack, e)
  | .unpk e => some (.unpk, e)
  | .rnd e => some (.rnd, e)
  | .rowMatch e => some (.rowMatch, e)
  | .bfly e => some (.bfly, e)
  | .shfl e => some (.shfl, e)
  | .vote e => some (.vote, e)
  | .rowred e => some (.rowred, e)
  | .elect e => some (.elect, e)
  | .braU e => some (.braU, e)
  | .braS e => some (.braS, e)
  | .braM e => some (.braM, e)
  | .brx e => some (.brx, e)
  | .call e => some (.call, e)
  | .ret e => some (.ret, e)
  | .reform e => some (.reform, e)
  | .exit e => some (.exit, e)
  | .yield e => some (.yield, e)
  | .nop e => some (.nop, e)
  | .trap e => some (.trap, e)
  | .brk e => some (.brk, e)
  | .sreg e => some (.sreg, e)
  | .swreg e => some (.swreg, e)
  | .icinv e => some (.icinv, e)
  | .ld e => some (.ld, e)
  | .st e => some (.st, e)
  | .lds e => some (.lds, e)
  | .sts e => some (.sts, e)
  | .ldt e => some (.ldt, e)
  | .stt e => some (.stt, e)
  | .ldc e => some (.ldc, e)
  | .pref e => some (.pref, e)
  | .stx e => some (.stx, e)
  | .ldf e => some (.ldf, e)
  | .ste e => some (.ste, e)
  | .feinit e => some (.feinit, e)
  | .waita e => some (.waita, e)
  | .atom e => some (.atom, e)
  | .red e => some (.red, e)
  | .atoms e => some (.atoms, e)
  | .barArv e => some (.barArv, e)
  | .barWait e => some (.barWait, e)
  | .barSync e => some (.barSync, e)
  | .barSet e => some (.barSet, e)
  | .barSwap e => some (.barSwap, e)
  | .barexp e => some (.barexp, e)
  | .fence e => some (.fence, e)
  | .cpy e => some (.cpy, e)
  | .cpym e => some (.cpym, e)
  | .qpop e => some (.qpop, e)
  | .qpeek e => some (.qpeek, e)
  | .qpush e => some (.qpush, e)
  | .qadv e => some (.qadv, e)
  | .qrst e => some (.qrst, e)
  | .wbld e => some (.wbld, e)
  | .mma e => some (.mma, e)
  | .azero e => some (.azero, e)
  | .adrain e => some (.adrain, e)
  | .aread e => some (.aread, e)
  | .aadd e => some (.aadd, e)
  | .glean e => some (.glean, e)
  | .nextit e => some (.nextit, e)
  | .glend e => some (.glend, e)
  | .gadd e => some (.gadd, e)
  | .glstat e => some (.glstat, e)
  | .arnew e => some (.arnew, e)
  | .ardrop e => some (.ardrop, e)
  | .arseal e => some (.arseal, e)
  | .arqry e => some (.arqry, e)
  | .aalloc e => some (.aalloc, e)
  | .statrd e => some (.statrd, e)
  | .statfl e => some (.statfl, e)
  | .statrst e => some (.statrst, e)
  | .task e => some (.task, e)
  | .tdep e => some (.tdep, e)
  | .tsig e => some (.tsig, e)
  | .uint e => some (.uint, e)
  | .pmrd e => some (.pmrd, e)
  | .mark e => some (.mark, e)
  | .clk e => some (.clk, e)
  | _ => none

/-- The base operation of a base major (R72). -/
def Instr.ofBase (major : Nat) (b : Base) : Option Instr :=
  match major with
  | 1 => some (.addBase b)
  | 2 => some (.subBase b)
  | 3 => some (.mulBase b)
  | 4 => some (.andBase b)
  | 5 => some (.orBase b)
  | 6 => some (.xorBase b)
  | 7 => some (.andnBase b)
  | 8 => some (.shlBase b)
  | 9 => some (.shrlBase b)
  | 10 => some (.shraBase b)
  | 11 => some (.minI32Base b)
  | 12 => some (.maxI32Base b)
  | 13 => some (.minN32Base b)
  | 14 => some (.maxN32Base b)
  | 15 => some (.faddBase b)
  | 16 => some (.fsubBase b)
  | 17 => some (.fmulBase b)
  | 18 => some (.fminBase b)
  | 19 => some (.fmaxBase b)
  | 20 => some (.ffmaBase b)
  | 21 => some (.pfmaBf16x2Base b)
  | 22 => some (.pfmaF16x2Base b)
  | 23 => some (.madBase b)
  | 24 => some (.rotBase b)
  | _ => none

/-- The base major and the fields of a base-form instruction (R72). -/
def Instr.asBase : Instr → Option (Nat × Base)
  | .addBase b => some (1, b)
  | .subBase b => some (2, b)
  | .mulBase b => some (3, b)
  | .andBase b => some (4, b)
  | .orBase b => some (5, b)
  | .xorBase b => some (6, b)
  | .andnBase b => some (7, b)
  | .shlBase b => some (8, b)
  | .shrlBase b => some (9, b)
  | .shraBase b => some (10, b)
  | .minI32Base b => some (11, b)
  | .maxI32Base b => some (12, b)
  | .minN32Base b => some (13, b)
  | .maxN32Base b => some (14, b)
  | .faddBase b => some (15, b)
  | .fsubBase b => some (16, b)
  | .fmulBase b => some (17, b)
  | .fminBase b => some (18, b)
  | .fmaxBase b => some (19, b)
  | .ffmaBase b => some (20, b)
  | .pfmaBf16x2Base b => some (21, b)
  | .pfmaF16x2Base b => some (22, b)
  | .madBase b => some (23, b)
  | .rotBase b => some (24, b)
  | _ => none

end Sys2Proof
end

