-- ==== Sys2Proof/WellFormed.lean ====
section
/-! DEFINITION. Which fields an instruction may hold (R69): for each extended operation its opcode (R73), the
operand kinds of its four positions, its literal operand, its types, rounding modes, scopes and modifier bits.
Whether a register lies inside the launch's allocation (R17, R21) is no property of the word: the meanings
check it. -/

namespace Sys2Proof

/-- The kinds of R21 that a class 11 specifier may name. -/
inductive Kind where
  | pred | stream | tile | weight | barrier
  deriving DecidableEq, Repr

/-- The number of names of a kind (R21). -/
def Kind.count : Kind → Nat
  | .pred => 8 | .stream => 16 | .tile => 128 | .weight => 32 | .barrier => 96

/-- What one operand position accepts. `reg v s i n`: a V register, an S register, a small immediate, each where its
flag is set, naming n registers; `mem v s n`: the same without immediate, or absent (R59); `named`: a class 11
name; `imm lo hi`: a small immediate index in the range; `absent`: class 11, index 0; `unused`: 0. -/
inductive Pos where
  | unused
  | reg (v s i : Bool) (n : Nat)
  | mem (v s : Bool) (n : Nat)
  | named (k : Kind)
  | imm (lo hi : Nat)
  | absent
  deriving DecidableEq, Repr

/-- Whether a specifier fits a position (R18, R21, R59). -/
def Pos.accepts : Pos → Opnd → Bool
  | .unused, o => o == .v 0
  | .reg v _ _ n, .v i => v && i.toNat % n == 0
  | .reg _ s _ n, .slo i => s && i.toNat % n == 0
  | .reg _ s _ n, .shi i => s && i.toNat % n == 0
  | .reg _ _ im _, .k _ => im
  | .mem v _ n, .v i => v && i.toNat % n == 0
  | .mem _ s n, .slo i => s && i.toNat % n == 0
  | .mem _ s n, .shi i => s && i.toNat % n == 0
  | .mem _ _ _, .k i => i == 0
  | .named k, .k i => i.toNat < k.count
  | .named _, _ => false
  | .imm lo hi, .k i => lo ≤ i.toNat && i.toNat ≤ hi
  | .imm _ _, _ => false
  | .absent, o => o == .k 0

/-- The operand that a trailing literal supplies (R60), with whether all 64 bits may be used. -/
inductive LitPos where
  | none
  | op1 (wide : Bool)
  | op2 (wide : Bool)
  | op3 (wide : Bool)
  | imm (wide : Bool)
  deriving DecidableEq, Repr

/-- The registers that a value of a type code occupies (R18, R61). -/
def regsOfType (ty : Nat) : Nat :=
  if ty = 3 ∨ ty = 7 ∨ ty = 8 then 2 else if ty = 15 then 4 else 1

/-- The registers of a memory width code (R133). -/
def regsOfWidth (w : Nat) : Nat := if w = 3 then 2 else if w = 4 then 4 else 1

namespace Ext

/-- The registers of the instruction's type. -/
def tyRegs (e : Ext) : Nat := regsOfType e.ty.toNat
/-- The registers of the source type held in MOD[3:0] (R85). -/
def srcRegs (e : Ext) : Nat := regsOfType e.lo.toNat
/-- The whole MOD field (R58). -/
def mod (e : Ext) : BitVec 14 := e.ty ++ e.rm ++ e.sc ++ e.lo
/-- The reconvergence distance of BRA `.m` (R112). -/
def distance (e : Ext) : Nat := e.mod.toNat / 4
/-- The window boundary K of GLEAN (R246). -/
def window (e : Ext) : Nat := e.mod.toNat / 32
/-- The reduction slot count R of GLEAN (R246). -/
def slots (e : Ext) : Nat := e.mod.toNat / 4 % 8
/-- The ORD bit of a memory instruction (R132), and BIT of R200. -/
def ord (e : Ext) : Bool := e.rm.toNat % 2 = 1
/-- The HINT field of a memory instruction (R132). -/
def hint (e : Ext) : Nat := e.rm.toNat / 2
/-- The index scale code of a memory instruction (R132). -/
def scale (e : Ext) : Nat := e.lo.toNat / 2
/-- SRC of QNT and DQN (R107). -/
def src (e : Ext) : Nat := e.lo.toNat % 4
/-- The barrier field of CPY and CPYM (R222). -/
def copyBarrier (e : Ext) : Nat := e.mod.toNat / 128
/-- The class set of FENCE (R205), bit 0 for V up to bit 5 for I. -/
def classes (e : Ext) : Nat := e.mod.toNat / 256
/-- The alignment exponent of AALLOC (R286). -/
def alignExp (e : Ext) : Nat := e.mod.toNat % 32

/-- The index scale code is valid and MOD[0] is 0 (R132, R200). -/
def scaleOk (e : Ext) : Bool := e.lo.toNat % 2 == 0 && e.lo.toNat / 2 ≤ 4

end Ext

/-- Scope, rounding and low modifier bits are all zero. -/
def Ext.plain (e : Ext) : Bool := e.rm == 0 && e.sc == 0 && e.lo == 0

/-- MOD is zero. -/
def Ext.bare (e : Ext) : Bool := e.ty == 0 && e.plain

/-- The special registers of R26 that SREG reads, with their width in registers. -/
def sregWidth (i : Nat) : Option Nat :=
  if i = 0x0A ∨ i = 0x0B ∨ i = 0x0D then some 2 else if i ≤ 0x11 then some 1 else none

namespace Op

/-- Major and minor opcode (R73). -/
def code : Op → Nat × Nat
  | .add => (0x20, 0) | .sub => (0x20, 1) | .mul => (0x20, 2) | .mulh => (0x20, 3)
  | .mad => (0x20, 4) | .div => (0x20, 5) | .min => (0x20, 6) | .max => (0x20, 7)
  | .abs => (0x20, 8) | .neg => (0x20, 9) | .lea => (0x20, 10) | .cmp => (0x20, 11)
  | .sel => (0x20, 12) | .mov => (0x20, 13) | .movi => (0x20, 14) | .cvti => (0x20, 15)
  | .and => (0x21, 0) | .or => (0x21, 1) | .xor => (0x21, 2) | .andn => (0x21, 3)
  | .not => (0x21, 4) | .shl => (0x21, 5) | .shrl => (0x21, 6) | .shra => (0x21, 7)
  | .rot => (0x21, 8) | .bfe => (0x21, 9) | .bfi => (0x21, 10) | .popc => (0x21, 11)
  | .clz => (0x21, 12) | .ctz => (0x21, 13) | .brev => (0x21, 14) | .permb => (0x21, 15)
  | .plop => (0x22, 0) | .pmov => (0x22, 1)
  | .fadd => (0x23, 0) | .fsub => (0x23, 1) | .fmul => (0x23, 2) | .ffma => (0x23, 3)
  | .fmin => (0x23, 4) | .fmax => (0x23, 5) | .fcmp => (0x23, 6) | .fclass => (0x23, 7)
  | .fround => (0x23, 8) | .fldexp => (0x23, 9) | .ffrexp => (0x23, 10) | .pfma => (0x23, 11)
  | .fdot2 => (0x23, 12)
  | .frcp => (0x24, 0) | .frsq => (0x24, 1) | .fsqrt => (0x24, 2) | .fdiv => (0x24, 3)
  | .fexp2 => (0x24, 4) | .flog2 => (0x24, 5) | .fsinp => (0x24, 6) | .fcosp => (0x24, 7)
  | .cvt => (0x25, 0) | .cvtf => (0x25, 1) | .cvtn => (0x25, 2) | .qnt => (0x25, 3)
  | .dqn => (0x25, 4) | .qblk => (0x25, 5) | .qscl => (0x25, 6) | .pack => (0x25, 7)
  | .unpk => (0x25, 8) | .rnd => (0x25, 9)
  | .rowMatch => (0x26, 0) | .bfly => (0x26, 1) | .shfl => (0x26, 2) | .vote => (0x26, 3)
  | .rowred => (0x26, 4) | .elect => (0x26, 5)
  | .braU => (0x27, 0) | .braS => (0x27, 0) | .braM => (0x27, 0) | .brx => (0x27, 1)
  | .call => (0x27, 2) | .ret => (0x27, 3) | .reform => (0x27, 4) | .exit => (0x27, 5)
  | .yield => (0x27, 6) | .nop => (0x27, 7) | .trap => (0x27, 8) | .brk => (0x27, 9)
  | .sreg => (0x27, 10) | .swreg => (0x27, 11) | .icinv => (0x27, 12)
  | .ld => (0x28, 0) | .st => (0x28, 1) | .lds => (0x28, 2) | .sts => (0x28, 3)
  | .ldt => (0x28, 4) | .stt => (0x28, 5) | .ldc => (0x28, 6) | .pref => (0x28, 7)
  | .stx => (0x28, 8)
  | .ldf => (0x29, 0) | .ste => (0x29, 1) | .feinit => (0x29, 2) | .waita => (0x29, 3)
  | .atom => (0x2A, 0) | .red => (0x2A, 1) | .atoms => (0x2A, 2)
  | .barArv => (0x2B, 0) | .barWait => (0x2B, 0) | .barSync => (0x2B, 0) | .barSet => (0x2B, 0)
  | .barSwap => (0x2B, 0) | .barexp => (0x2B, 1) | .fence => (0x2B, 2)
  | .cpy => (0x2C, 0) | .cpym => (0x2C, 1) | .qpop => (0x2C, 2) | .qpeek => (0x2C, 3)
  | .qpush => (0x2C, 4) | .qadv => (0x2C, 5) | .qrst => (0x2C, 6)
  | .wbld => (0x2D, 0) | .mma => (0x2D, 1) | .azero => (0x2D, 2) | .adrain => (0x2D, 3)
  | .aread => (0x2D, 4) | .aadd => (0x2D, 5)
  | .glean => (0x2E, 0) | .nextit => (0x2E, 1) | .glend => (0x2E, 2) | .gadd => (0x2E, 3)
  | .glstat => (0x2E, 4)
  | .arnew => (0x2F, 0) | .ardrop => (0x2F, 1) | .arseal => (0x2F, 2) | .arqry => (0x2F, 3)
  | .aalloc => (0x2F, 4)
  | .statrd => (0x30, 0) | .statfl => (0x30, 1) | .statrst => (0x30, 2)
  | .task => (0x31, 0) | .tdep => (0x31, 1) | .tsig => (0x31, 2) | .uint => (0x31, 3)
  | .clk => (0x31, 4) | .pmrd => (0x31, 5) | .mark => (0x31, 6)

/-- The operation of a major and minor opcode and MOD[3:0], which parts the BRA modes (R112) and BAR forms (R205). -/
def ofCode (major minor lo : Nat) : Option Op :=
  match major, minor with
  | 0x20, 0 => some .add | 0x20, 1 => some .sub | 0x20, 2 => some .mul | 0x20, 3 => some .mulh
  | 0x20, 4 => some .mad | 0x20, 5 => some .div | 0x20, 6 => some .min | 0x20, 7 => some .max
  | 0x20, 8 => some .abs | 0x20, 9 => some .neg | 0x20, 10 => some .lea | 0x20, 11 => some .cmp
  | 0x20, 12 => some .sel | 0x20, 13 => some .mov | 0x20, 14 => some .movi | 0x20, 15 => some .cvti
  | 0x21, 0 => some .and | 0x21, 1 => some .or | 0x21, 2 => some .xor | 0x21, 3 => some .andn
  | 0x21, 4 => some .not | 0x21, 5 => some .shl | 0x21, 6 => some .shrl | 0x21, 7 => some .shra
  | 0x21, 8 => some .rot | 0x21, 9 => some .bfe | 0x21, 10 => some .bfi | 0x21, 11 => some .popc
  | 0x21, 12 => some .clz | 0x21, 13 => some .ctz | 0x21, 14 => some .brev | 0x21, 15 => some .permb
  | 0x22, 0 => some .plop | 0x22, 1 => some .pmov
  | 0x23, 0 => some .fadd | 0x23, 1 => some .fsub | 0x23, 2 => some .fmul | 0x23, 3 => some .ffma
  | 0x23, 4 => some .fmin | 0x23, 5 => some .fmax | 0x23, 6 => some .fcmp | 0x23, 7 => some .fclass
  | 0x23, 8 => some .fround | 0x23, 9 => some .fldexp | 0x23, 10 => some .ffrexp | 0x23, 11 => some .pfma
  | 0x23, 12 => some .fdot2
  | 0x24, 0 => some .frcp | 0x24, 1 => some .frsq | 0x24, 2 => some .fsqrt | 0x24, 3 => some .fdiv
  | 0x24, 4 => some .fexp2 | 0x24, 5 => some .flog2 | 0x24, 6 => some .fsinp | 0x24, 7 => some .fcosp
  | 0x25, 0 => some .cvt | 0x25, 1 => some .cvtf | 0x25, 2 => some .cvtn | 0x25, 3 => some .qnt
  | 0x25, 4 => some .dqn | 0x25, 5 => some .qblk | 0x25, 6 => some .qscl | 0x25, 7 => some .pack
  | 0x25, 8 => some .unpk | 0x25, 9 => some .rnd
  | 0x26, 0 => some .rowMatch | 0x26, 1 => some .bfly | 0x26, 2 => some .shfl | 0x26, 3 => some .vote
  | 0x26, 4 => some .rowred | 0x26, 5 => some .elect
  | 0x27, 0 =>
    match lo % 4 with
    | 0 => some .braS | 1 => some .braU | 2 => some .braM | _ => none
  | 0x27, 1 => some .brx | 0x27, 2 => some .call | 0x27, 3 => some .ret | 0x27, 4 => some .reform
  | 0x27, 5 => some .exit | 0x27, 6 => some .yield | 0x27, 7 => some .nop | 0x27, 8 => some .trap
  | 0x27, 9 => some .brk | 0x27, 10 => some .sreg | 0x27, 11 => some .swreg | 0x27, 12 => some .icinv
  | 0x28, 0 => some .ld | 0x28, 1 => some .st | 0x28, 2 => some .lds | 0x28, 3 => some .sts
  | 0x28, 4 => some .ldt | 0x28, 5 => some .stt | 0x28, 6 => some .ldc | 0x28, 7 => some .pref
  | 0x28, 8 => some .stx
  | 0x29, 0 => some .ldf | 0x29, 1 => some .ste | 0x29, 2 => some .feinit | 0x29, 3 => some .waita
  | 0x2A, 0 => some .atom | 0x2A, 1 => some .red | 0x2A, 2 => some .atoms
  | 0x2B, 0 =>
    match lo with
    | 0 => some .barArv | 1 => some .barWait | 2 => some .barSync | 3 => some .barSet
    | 4 => some .barSwap | _ => none
  | 0x2B, 1 => some .barexp | 0x2B, 2 => some .fence
  | 0x2C, 0 => some .cpy | 0x2C, 1 => some .cpym | 0x2C, 2 => some .qpop | 0x2C, 3 => some .qpeek
  | 0x2C, 4 => some .qpush | 0x2C, 5 => some .qadv | 0x2C, 6 => some .qrst
  | 0x2D, 0 => some .wbld | 0x2D, 1 => some .mma | 0x2D, 2 => some .azero | 0x2D, 3 => some .adrain
  | 0x2D, 4 => some .aread | 0x2D, 5 => some .aadd
  | 0x2E, 0 => some .glean | 0x2E, 1 => some .nextit | 0x2E, 2 => some .glend | 0x2E, 3 => some .gadd
  | 0x2E, 4 => some .glstat
  | 0x2F, 0 => some .arnew | 0x2F, 1 => some .ardrop | 0x2F, 2 => some .arseal | 0x2F, 3 => some .arqry
  | 0x2F, 4 => some .aalloc
  | 0x30, 0 => some .statrd | 0x30, 1 => some .statfl | 0x30, 2 => some .statrst
  | 0x31, 0 => some .task | 0x31, 1 => some .tdep | 0x31, 2 => some .tsig | 0x31, 3 => some .uint
  | 0x31, 4 => some .clk | 0x31, 5 => some .pmrd | 0x31, 6 => some .mark
  | _, _ => none

/-- A destination register of n words (R81). -/
def dst (n : Nat) : Pos := .reg true true false n
/-- A source register or small immediate of n words (R81). -/
def src (n : Nat) : Pos := .reg true true true n

/-- The V or S source of QNT and DQN that gives the scale (R107). -/
def scaleSrc (e : Ext) : Pos :=
  match e.src with
  | 0 => .unused
  | 1 => .reg false true true 1
  | 2 => .reg true true false 1
  | _ => .reg false true false 1

/-- What the four specifier positions of an operation accept, from its entry's table. -/
def positions (o : Op) (e : Ext) : List Pos :=
  let n := e.tyRegs
  let w := regsOfWidth e.ty.toNat
  match o with
  | .add | .sub | .mul | .mulh | .div | .min | .max | .and | .or | .xor | .andn | .shl | .shrl
  | .shra | .rot | .fadd | .fsub | .fmul | .fmin | .fmax | .fdiv | .bfe => [dst n, src n, src n, .unused]
  | .fldexp => [dst 1, src 1, src 1, .unused]
  | .mad | .ffma | .pfma | .bfi | .permb => [dst n, src n, src n, src n]
  | .fdot2 => [dst 1, src 1, src 1, src 1]
  | .abs | .neg | .mov | .not | .brev | .fround | .frcp | .frsq | .fsqrt | .fexp2 | .flog2
  | .fsinp | .fcosp => [dst n, src n, .unused, .unused]
  | .popc | .clz | .ctz | .fclass => [dst 1, src n, .unused, .unused]
  | .lea => [dst 2, .mem true true 2, src 1, .unused]
  | .cmp | .fcmp => [.named .pred, src n, src n, .unused]
  | .sel => [dst n, .named .pred, src n, src n]
  | .movi => [dst n, .unused, .unused, .unused]
  | .cvti | .cvtf | .cvtn => [dst n, src e.srcRegs, .unused, .unused]
  | .plop => [.named .pred, .named .pred, .named .pred, .named .pred]
  | .pmov =>
    match e.op0 with
    | .k _ => [.named .pred, src 1, .unused, .unused]
    | _ => [dst 1, .named .pred, .unused, .unused]
  | .ffrexp => [dst 1, dst 1, src 1, .unused]
  | .cvt => [dst n, src e.srcRegs, if e.ty = 12 ∨ e.ty = 13 then src 1 else .unused, .unused]
  | .qnt => [.reg true false false 1, .reg true false false 1, scaleSrc e,
      if e.rm = 6 then .reg true false false 1 else .unused]
  | .dqn => [.reg true false false 1, .reg true false false 1, scaleSrc e, .unused]
  | .qblk => [.reg true false false 1, .reg true false false 1, dst 1, .unused]
  | .qscl => [dst 1, dst 1, .unused, .unused]
  | .pack | .unpk => [.reg true false false 1, .reg true false false 1, .unused, .unused]
  | .rnd => [dst 1, .unused, .unused, .unused]
  | .rowMatch => [dst 1, .reg true false false n, .unused, .unused]
  | .bfly => [.reg true false false n, .reg true false false n, .reg false true true 1, .unused]
  | .shfl => [.reg true false false n, .reg true false false n, src 1, .unused]
  | .vote => [if e.lo = 2 then dst 1 else .named .pred, .named .pred, .unused, .unused]
  | .rowred => [dst n, .reg true false false n, .unused, .unused]
  | .elect => [.named .pred, .unused, .unused, .unused]
  | .braU | .braS | .braM | .reform | .exit | .yield | .nop | .trap | .brk | .icinv | .glend | .fence =>
    [.unused, .unused, .unused, .unused]
  | .brx | .ret => [.unused, dst 2, .unused, .unused]
  | .call => [.reg true false false 2, .mem true true 2, .unused, .unused]
  | .sreg => [dst ((sregWidth (e.imm.toNat % 256)).getD 1), .unused, .unused, .unused]
  | .swreg => [.unused, src ((sregWidth (e.imm.toNat % 256)).getD 1), .unused, .unused]
  | .ld => [dst w, .mem true true 2, .mem true true 1, .unused]
  | .st => [.unused, .mem true true 2, .mem true true 1, dst w]
  | .lds => [dst w, .mem true true 1, .mem true true 1, .unused]
  | .sts => [.unused, .mem true true 1, .mem true true 1, dst w]
  | .ldt => [dst w, .reg false true false 1, .reg true false false 4, .unused]
  | .stt => [.unused, .reg false true false 1, .reg true false false 4, dst w]
  | .ldc => [dst w, .mem false true 1, .mem true true 1, .unused]
  | .pref => [.unused, .mem true true 2, .mem true true 1, .unused]
  | .stx => [src 1, .mem true true 1, .mem true true 1, dst w]
  | .ldf => [.reg true false false w, .mem true true 1, .mem true true 1, .unused]
  | .ste => [.unused, .mem true true 1, .mem true true 1, dst w]
  | .feinit => [.unused, .mem true true 1, .mem true true 1, src 1]
  | .waita => [.unused, .mem true true 2, .mem true true 1, src n]
  | .atom => [dst n, .mem true true 2, .mem true true 1,
      if e.rm = 7 then dst (2 * n) else .reg true true (n = 1) n]
  | .red => [.unused, .mem true true 2, .mem true true 1, .reg true (n < 4) (n = 1) n]
  | .atoms => [if e.lo.toNat / 2 % 2 = 1 then .unused else dst n, .mem true true 1, .mem true true 1,
      if e.rm = 7 then dst (2 * n) else .reg true true (n = 1) n]
  | .barArv | .barWait | .barSync | .barSwap => [.named .barrier, .unused, .unused, .unused]
  | .barSet => [.named .barrier, .imm 0 3, .unused, .unused]
  | .barexp => [.named .barrier,
      match e.op1 with
      | .k _ => .imm 0 127
      | _ => .reg false true false 1, .unused, .unused]
  | .cpy => [dst 1, .mem false true 2, .mem false true 2, .unused]
  | .cpym => [dst 1, .mem false true 2, .mem false true 2, .reg false true true 1]
  | .qpop => [.reg false true false 1, .named .stream, .unused, .unused]
  | .qpeek => [.reg false true false 2, .named .stream, .unused, .unused]
  | .qpush | .qadv | .qrst => [.unused, .named .stream, .unused, .unused]
  | .wbld => [.named .weight, .mem false true (if e.lo.toNat / 4 % 2 = 1 then 1 else 2),
      .reg false true true 1, .unused]
  | .mma => [.named .tile, .mem false true 1, .named .weight, .reg false true true 1]
  | .azero => [.named .tile, if e.lo.toNat / 8 = 1 then .unused else .reg false true true 1, .unused, .unused]
  | .adrain =>
    match e.lo.toNat / 4 with
    | 2 => [.named .tile, .reg false true false 1, .reg false true false 4, .unused]
    | f => [.named .tile, .mem false true (if e.lo.toNat / 2 % 2 = 1 then 1 else 2), .reg false true true 1,
        if f = 1 then .reg false true true 1 else .unused]
  | .aread => [.reg true false false (if e.ty = 15 then 4 else 1), .named .tile,
      if e.ty = 6 then .unused else .reg false true true 1, if e.ty = 6 then .unused else .imm 1 32]
  | .aadd =>
    match e.lo.toNat / 2 with
    | 0 => [.named .tile, .named .tile, .unused, .unused]
    | f => [.named .tile, .mem false true (if f = 2 then 1 else 2), .reg false true true 1, .unused]
  | .glean => [dst 1, .reg false true true 1, .reg false true true 1,
      if e.slots = 0 then .unused else .reg false true false 1]
  | .nextit => [.reg true false false 1, .named .pred, .unused, .unused]
  | .gadd => [.reg false true false 1, src 1, .unused, .unused]
  | .glstat => [dst 2, .unused, .unused, .unused]
  | .arnew => [dst 1, src 1, dst 2, .unused]
  | .ardrop | .arseal => [.unused, src 1, .unused, .unused]
  | .arqry => [dst 2, src 1, .unused, .unused]
  | .aalloc => [dst 2, src 1, src 1, .unused]
  | .statrd => [dst (if e.lo = 4 then 2 else if e.lo = 7 then 4 else 1), dst 1,
      if e.lo = 7 then src 1 else .unused, .unused]
  | .statfl | .statrst => [.unused, dst 1, .unused, .unused]
  | .task => [dst 1, src 1, src 1, .unused]
  | .tdep => [dst 1, src 1, src 1, if e.lo = 1 then src 1 else .unused]
  | .tsig => [dst 1, src 1, .unused, .unused]
  | .uint => [.unused, src 1, src 2, .unused]
  | .clk => [dst (if e.lo = 0 then 2 else if e.lo = 1 then 4 else 1), .unused, .unused, .unused]
  | .pmrd => [dst 2, .imm 0 15, .unused, .unused]
  | .mark => [.unused, src 1, .unused, .unused]

/-- The literal operand of an operation, from its entry. -/
def literal (o : Op) (e : Ext) : LitPos :=
  let wide : Bool := e.tyRegs = 2
  match o with
  | .add | .sub | .mul | .mulh | .mad | .div | .min | .max | .cmp | .and | .or | .xor | .andn | .shl
  | .shrl | .shra | .rot | .bfe | .fadd | .fsub | .fmul | .ffma | .fmin | .fmax | .fcmp | .pfma
  | .fdot2 | .fdiv => .op2 wide
  | .fldexp | .ffrexp => .op2 false
  | .abs | .neg | .mov | .not | .brev | .popc | .clz | .ctz | .fclass | .fround | .frcp | .frsq
  | .fsqrt | .fexp2 | .flog2 | .fsinp | .fcosp => .op1 wide
  | .cvti | .cvtf | .cvtn | .cvt => .op1 (e.srcRegs = 2)
  | .sel | .bfi | .permb => .op3 wide
  | .movi => .imm wide
  | .lea | .ld | .st | .lds | .sts | .ldc | .pref | .stx | .ldf | .ste | .feinit | .waita | .atom | .red
  | .atoms | .braU | .braS | .braM | .wbld | .mma | .glean => .imm false
  | .call => if e.op1 = .k 0 then .imm false else .none
  | .barexp => .op1 true
  | .cpym => .op3 false
  | .azero => if e.lo.toNat / 8 = 1 then .none else .op1 false
  | .aadd => .none
  | .arnew => .op2 true
  | .aalloc => .op2 false
  | .task => .op2 false
  | .tdep => if e.lo = 1 then .op3 false else .none
  | .tsig => .op1 false
  | .uint => .op2 true
  | _ => .none

/-- TYPE, RM, SCOPE and the other MOD bits are ones that the entry accepts. -/
def modOk (o : Op) (e : Ext) : Bool :=
  let t := e.ty.toNat
  let int4 : Bool := t ∈ [2, 3, 6, 7]
  let rnd5 : Bool := e.rm.toNat ≤ 4 && e.sc == 0 && e.lo == 0
  match o with
  | .add | .sub | .mul | .mulh | .mad | .div | .min | .max | .bfe => int4 && e.plain
  | .abs | .neg | .shra => (t = 2 || t = 3) && e.plain
  | .lea => e.ty == 0 && e.rm == 0 && e.sc == 0 && e.lo.toNat ≤ 4
  | .cmp => int4 && e.rm == 0 && e.sc == 0 && e.lo.toNat ≤ 5
  | .sel | .mov | .movi | .and | .or | .xor | .andn | .not | .shl | .shrl | .rot | .bfi | .popc | .clz
  | .ctz | .brev => (t = 6 || t = 7) && e.plain
  | .cvti => t ≤ 7 && e.rm == 0 && e.sc == 0 && e.lo.toNat ≤ 7
  | .permb => t = 6 && e.plain
  | .plop | .pmov => e.bare
  | .fadd | .fmul => 8 ≤ t && t ≤ 13 && rnd5
  | .fsub => 9 ≤ t && t ≤ 13 && rnd5
  | .ffma => 8 ≤ t && t ≤ 11 && rnd5
  | .fmin | .fmax => 9 ≤ t && t ≤ 13 && e.plain
  | .fcmp => 8 ≤ t && t ≤ 11 && e.rm == 0 && e.sc == 0 && e.lo.toNat % 8 ≤ 6
  | .fclass | .ffrexp => 9 ≤ t && t ≤ 11 && e.plain
  | .fround | .fldexp => 9 ≤ t && t ≤ 11 && rnd5
  | .pfma | .fdot2 => (t = 12 || t = 13) && rnd5
  | .frcp | .frsq | .fsqrt | .fdiv | .fexp2 | .flog2 | .fsinp | .fcosp => t = 9 && rnd5
  | .cvt =>
    ((8 ≤ t && t ≤ 11 && 8 ≤ e.lo.toNat && e.lo.toNat ≤ 11) || ((t = 12 || t = 13) && e.lo == 9))
      && e.sc == 0 && (e.rm.toNat ≤ 4 || (e.rm == 5 && 10 ≤ t))
  | .cvtf => 9 ≤ t && t ≤ 11 && e.rm.toNat ≤ 4 && e.sc == 0 && e.lo.toNat ≤ 7
  | .cvtn => t ≤ 7 && e.rm.toNat ≤ 4 && e.sc == 0 && 9 ≤ e.lo.toNat && e.lo.toNat ≤ 11
  | .qnt => t = 14 && (e.lo.toNat ≤ 3 || e.lo == 7)
  | .dqn => t = 14 && e.rm.toNat ≤ 4 && e.lo.toNat ≤ 2
  | .qblk => t = 14 && e.rm != 6
  | .qscl => t = 14 && e.rm == 0 && (e.lo == 0 || e.lo == 4)
  | .pack | .unpk => t = 14 && e.rm == 0 && e.lo == 0
  | .rnd => e.bare
  | .rowMatch | .bfly => (t = 6 || t = 7) && e.plain
  | .shfl => (t = 6 || t = 7) && e.rm == 0 && e.sc == 0 && e.lo.toNat ≤ 3
  | .vote => t = 0 && e.rm == 0 && e.sc == 0 && e.lo.toNat ≤ 2
  | .rowred => int4 && e.rm == 0 && e.sc == 0 && e.lo.toNat ≤ 5
  | .elect => e.bare
  | .braU => e.mod == 1
  | .braS => e.mod == 0
  | .braM => e.mod.toNat % 4 = 2 && e.mod.toNat / 4 != 0
  | .brx | .call | .ret | .reform | .exit | .yield | .nop | .trap | .brk | .sreg | .swreg | .icinv => e.bare
  | .ld | .st => t ≤ 4 && e.scaleOk && (if e.ord then e.sc.toNat ≤ 5 else e.sc == 0)
  | .lds | .sts | .ldc | .stx => t ≤ 4 && e.rm == 0 && e.sc == 0 && e.scaleOk
  | .ldt | .stt => t ≤ 4 && e.plain
  | .pref => t = 0 && !e.ord && e.sc == 0 && e.scaleOk
  | .ldf => 2 ≤ t && t ≤ 4 && e.rm.toNat ≤ 1 && e.sc == 0 && e.scaleOk
  | .ste => 2 ≤ t && t ≤ 4 && e.rm == 0 && e.sc == 0 && e.scaleOk
  | .feinit => t = 0 && e.rm.toNat ≤ 1 && e.sc == 0 && e.scaleOk
  | .waita => (t = 6 || t = 7) && e.rm == 0 && 1 ≤ e.sc.toNat && e.sc.toNat ≤ 5 && e.scaleOk
  | .atom => (int4 || (t = 9 && (e.rm.toNat ≤ 2 || 6 ≤ e.rm.toNat))) && e.sc.toNat ≤ 5
      && e.lo.toNat / 2 % 2 = 0
  | .red => (int4 || (t = 9 && e.rm.toNat ≤ 2) || ((t = 12 || t = 13 || t = 15) && e.rm == 0))
      && e.rm.toNat ≤ 5 && e.sc.toNat ≤ 5 && e.lo.toNat / 2 % 2 = 0 && e.lo.toNat / 4 % 2 = 0
  | .atoms => (int4 || (t = 9 && (e.rm.toNat ≤ 2 || 6 ≤ e.rm.toNat))) && e.sc == 0 && e.lo.toNat / 4 = 0
  | .barArv => e.mod == 0
  | .barWait => e.mod == 1
  | .barSync => e.mod == 2
  | .barSet => e.mod == 3
  | .barSwap => e.mod == 4
  | .barexp => e.bare
  | .fence => e.classes != 0 && e.rm.toNat % 2 = 0 && 1 ≤ e.sc.toNat && e.sc.toNat ≤ 5 && e.lo == 0
  | .cpy | .cpym => e.sc.toNat / 2 = 0 && (e.sc.toNat % 2 = 1 || e.copyBarrier = 0) && e.copyBarrier < 96
  | .qpop | .qpeek | .qpush | .qadv | .qrst => e.bare
  | .wbld => (t = 14 || ((t = 10 || t = 11) && e.sc == 0)) && e.rm == 0 && e.lo.toNat % 4 = 0
  | .mma => (t = 14 && e.lo.toNat < 8 || ((t = 10 || t = 11) && e.sc == 0 && e.lo == 0)) && e.rm == 0
  | .azero =>
    if e.lo.toNat / 8 = 1 then
      (t = 14 || ((t = 10 || t = 11) && e.sc == 0 && e.lo == 8)) && e.rm == 0
    else e.bare
  | .adrain =>
    let f := e.lo.toNat / 4
    f ≤ 2 && (t = 9 || t = 10 || t = 11 || t = 14 || t = 15) && (t = 14 || e.sc == 0)
      && (f != 1 || t = 9) && (t != 15 || (f = 0 && e.rm == 0))
      && (e.rm.toNat ≤ 4 || (e.rm == 5 && (t = 10 || t = 11 || t = 14)) || (e.rm == 7 && t = 14))
      && (f != 2 || e.lo.toNat / 2 % 2 = 0)
  | .aread => (t = 9 || t = 10 || t = 11 || t = 15 || t = 6) && e.sc == 0 && e.lo == 0
      && (if 9 ≤ t && t ≤ 11 then e.rm.toNat ≤ 4 else e.rm == 0)
  | .aadd => t = 0 && e.rm == 0 && e.sc == 0 && e.lo.toNat / 8 = 0 && e.lo.toNat % 2 = 0
      && e.lo.toNat / 2 ≤ 2
  | .glean => e.window ≤ 256 && e.slots ≤ 4 && e.lo.toNat % 4 = 0
  | .nextit | .glend | .glstat => e.bare
  | .gadd => (t = 2 || t = 6) && e.rm.toNat ≤ 2 && e.sc == 0 && e.lo == 0
  | .arnew | .ardrop | .arseal => e.bare
  | .arqry => t = 0 && e.rm == 0 && e.sc == 0 && e.lo.toNat ≤ 4
  | .aalloc => t = 0 && e.rm == 0 && e.alignExp ≤ 16 && e.sc.toNat ≤ 1
  | .statrd => t = 0 && e.rm == 0 && e.sc.toNat ≤ 1 && e.lo.toNat ≤ 7
  | .statfl | .statrst => e.bare
  | .task | .tsig | .uint | .pmrd | .mark => e.bare
  | .tdep => t = 0 && e.rm == 0 && e.sc == 0 && e.lo.toNat ≤ 1
  | .clk => t = 0 && e.rm == 0 && e.sc == 0 && e.lo.toNat ≤ 2

/-- IMM20 holds what the entry allows. -/
def immOk (o : Op) (e : Ext) : Bool :=
  let i := e.imm.toNat
  match o with
  | .lea | .movi | .ld | .st | .lds | .sts | .ldc | .pref | .stx | .ldf | .ste | .feinit | .waita | .atom
  | .red | .atoms | .braU | .braS | .braM | .wbld | .glean => e.lit == none || e.imm == 0
  | .call => if e.op1 = .k 0 then e.lit == none || e.imm == 0 else e.imm == 0
  | .trap | .brk | .mark => true
  | .plop => i < 256
  | .sreg => i < 256 && (sregWidth i).isSome
  | .swreg => i = 0x0C || i = 0x0D
  | .cpy => i < 64
  | .cpym => i < 2 ^ 19
  | .mma => (i / 128 % 2 = 1 || i / 256 % 128 = 0) && i / 256 % 128 < 96
      && (e.lit == none || i % 128 = 0)
  | .adrain => i < 2 ^ 17 && (e.lo.toNat % 2 = 1 || i / 1024 = 0) && i / 1024 < 96
      && (e.ty != 15 || i % 1024 = 0)
  | _ => e.imm == 0

/-- The operation may name a completion flag in this form (R22). -/
def mayFlag (o : Op) (e : Ext) : Bool :=
  match o with
  | .ld | .lds | .ldt | .ldc | .frcp | .frsq | .fsqrt | .fdiv | .fexp2 | .flog2 | .fsinp | .fcosp | .div => true
  | .fadd | .fmul | .ffma | .fcmp => e.ty == 8
  | .cvt => e.ty == 8 || e.lo == 8
  | _ => false

/-- FLAG is 15, or 0 to 11 on an operation that may name a flag and whose destination is a V register or, for
FCMP, a predicate (R22, R57). -/
def flagOk (o : Op) (e : Ext) : Bool :=
  e.flag == 15 || (e.flag.toNat < 12 && o.mayFlag e &&
    match e.op0 with
    | .v _ => true
    | .k _ => true
    | _ => false)

/-- The literal, where there is one, is one the entry accepts (R60); MMA's displacement that is no multiple of 128 is not
(R69, R232; log 103). -/
def litOk (o : Op) (e : Ext) : Bool :=
  match e.lit with
  | none => true
  | some x =>
    let narrow : Bool := x.toNat < 2 ^ 32
    match o.literal e with
    | .none => false
    | .op1 wide => (wide || narrow) && e.op1 == .v 0 && (o != .barexp || x.toNat < 2 ^ 56)
    | .op2 wide => (wide || narrow) && e.op2 == .v 0 && (o != .arnew || x.toNat < 2 ^ 56)
    | .op3 wide => (wide || narrow) && e.op3 == .v 0
    | .imm wide => (wide || narrow) && (o != .mma || x.toNat % 128 = 0)

/-- Each position accepts its specifier; the position that the literal replaces holds 0 (R59, R60). -/
def opsOk (o : Op) (e : Ext) : Bool :=
  let ps := o.positions e
  let skip (k : Nat) : Bool :=
    e.lit.isSome && (match o.literal e with
      | .op1 _ => k = 1
      | .op2 _ => k = 2
      | .op3 _ => k = 3
      | _ => false)
  (skip 0 || (ps.getD 0 .unused).accepts e.op0) && (skip 1 || (ps.getD 1 .unused).accepts e.op1)
    && (skip 2 || (ps.getD 2 .unused).accepts e.op2) && (skip 3 || (ps.getD 3 .unused).accepts e.op3)

/-- The last reduction slot of GLEAN is an S register (R247). -/
def slotsOk (o : Op) (e : Ext) : Bool :=
  match o, e.op3 with
  | .glean, .shi i => i.toNat + 256 + e.slots ≤ 512
  | _, _ => true

/-- The encoding of the operation with these fields is one that R69 does not refuse. -/
def wellFormed (o : Op) (e : Ext) : Bool :=
  o.modOk e && o.immOk e && o.flagOk e && o.litOk e && o.opsOk e && o.slotsOk e

end Op

/-- The header is valid (R65). -/
def Header.wellFormed (h : Header) : Bool :=
  !(12 ≤ h.set1.toNat && h.set1.toNat ≤ 14) && !(12 ≤ h.set2.toNat && h.set2.toNat ≤ 14)
    && !(h.set1 == 15 && h.set2 != 15) && !(h.set1 == h.set2 && h.set1 != 15)

/-- The instruction is one that the encoding of its row can express and R69 does not refuse; an event has no
encoding and is well formed as it stands. -/
def Instr.wellFormed (i : Instr) : Bool :=
  match i.asExt with
  | some (o, e) => o.wellFormed e
  | none =>
    match i with
    | .runClause h => h.wellFormed
    | _ => true

/-- The instruction ends its clause (R67). -/
def Op.endsClause : Op → Bool
  | .braM | .braS | .brx | .call | .ret | .reform | .yield | .barWait | .barSync | .barSet | .barSwap
  | .ldf | .ste | .waita | .glean | .glend | .trap | .brk => true
  | _ => false

/-- The row is an event: it has no word of its own. -/
def Instr.isEvent (i : Instr) : Bool :=
  match i with
  | .runClause _ => false
  | _ => i.asExt.isNone && i.asBase.isNone

end Sys2Proof
end

