-- ==== Sys2Proof/Decode.lean ====
section
/-! DEFINITION. The decoder and the encoder of instruction words (R54 to R65), on any bytes, with the reason of
each refusal (R69). -/

namespace Sys2Proof

/-- Why the bytes are no instruction (R69). -/
inductive DecodeError where
  /-- Fewer bytes than the length field asks for. -/
  | truncated
  /-- A word that is no valid header, where it has the major opcode of one (R65). -/
  | badHeader
  /-- An encoding that R69 answers with ILLEGAL_OPCODE. -/
  | illegal
  deriving DecidableEq, Repr

/-- The number of words of an instruction, from bits [31:30] of its first word (R54). -/
def lengthWords (w : Word) : Nat :=
  match (w.extractLsb' 30 2).toNat with
  | 0 => 1
  | 3 => 5
  | _ => 3

/-- The major opcode of a first word (R54). -/
def majorOf (w : Word) : Nat := (w.extractLsb' 24 6).toNat

/-- A register specifier from its ten bits (R59). -/
def Opnd.ofBits (x : BitVec 10) : Opnd :=
  let i := x.extractLsb' 0 8
  match (x.extractLsb' 8 2).toNat with
  | 0 => .v i
  | 1 => .slo i
  | 2 => .shi i
  | _ => .k i

/-- The ten bits of a register specifier (R59). -/
def Opnd.toBits : Opnd → BitVec 10
  | .v i => 0#2 ++ i
  | .slo i => 1#2 ++ i
  | .shi i => 2#2 ++ i
  | .k i => 3#2 ++ i

/-- The clause header of a word (R64). -/
def Header.ofWord (w : Word) : Header :=
  { wait := w.extractLsb' 12 12, set1 := w.extractLsb' 8 4, set2 := w.extractLsb' 4 4, count := w.extractLsb' 0 4 }

/-- The word of a clause header (R64). -/
def Header.toWord (h : Header) : Word := 0#8 ++ h.wait ++ h.set1 ++ h.set2 ++ h.count

/-- The fields of an extended-form instruction from its first word, its field E and its literal (R57, R58, R61). -/
def Ext.ofWords (w : Word) (x : BitVec 64) (l : Option (BitVec 64)) : Ext :=
  { gp := x.extractLsb' 61 3
    gn := x.extractLsb' 60 1 == 1
    flag := w.extractLsb' 20 4
    imm := w.extractLsb' 0 20
    op0 := Opnd.ofBits (x.extractLsb' 50 10)
    op1 := Opnd.ofBits (x.extractLsb' 40 10)
    op2 := Opnd.ofBits (x.extractLsb' 30 10)
    op3 := Opnd.ofBits (x.extractLsb' 20 10)
    ty := x.extractLsb' 10 4
    rm := x.extractLsb' 7 3
    sc := x.extractLsb' 4 3
    lo := x.extractLsb' 0 4
    lit := l }

/-- The first word of an extended-form instruction (R57). -/
def Ext.firstWord (major : Nat) (e : Ext) : Word :=
  (if e.lit.isSome then 3#2 else 2#2) ++ BitVec.ofNat 6 major ++ e.flag ++ e.imm

/-- The field E of an extended-form instruction (R58). -/
def Ext.fieldE (minor : Nat) (e : Ext) : BitVec 64 :=
  e.gp ++ (if e.gn then 1#1 else 0#1) ++ e.op0.toBits ++ e.op1.toBits ++ e.op2.toBits ++ e.op3.toBits
    ++ BitVec.ofNat 6 minor ++ e.ty ++ e.rm ++ e.sc ++ e.lo

/-- The base-form instruction of a first word and its literal (R55, R56). -/
def decodeBase (w : Word) (lit : Option (BitVec 64)) : Except DecodeError Instr :=
  let vb := w.extractLsb' 0 8
  let src : Option BSrc :=
    match lit with
    | none => some (.reg vb)
    | some x => if vb == 0 && x.extractLsb' 32 32 == 0 then some (.lit (x.extractLsb' 0 32)) else none
  match src with
  | none => .error .illegal
  | some b =>
    match Instr.ofBase (majorOf w) { vd := w.extractLsb' 16 8, va := w.extractLsb' 8 8, b := b } with
    | some i => .ok i
    | none => .error .illegal

/-- The extended-form instruction of its first word, its field E and its literal (R57 to R61, R69). -/
def decodeExt (w : Word) (x : BitVec 64) (lit : Option (BitVec 64)) : Except DecodeError Instr :=
  let e := Ext.ofWords w x lit
  match Op.ofCode (majorOf w) (x.extractLsb' 14 6).toNat e.lo.toNat with
  | none => .error .illegal
  | some o => if o.wellFormed e then .ok (Instr.ofOp o e) else .error .illegal

/-- The instruction that begins a list of words, with the words after it (R54). -/
def decodeWords (ws : List Word) : Except DecodeError (Instr × List Word) :=
  match ws with
  | [] => .error .truncated
  | w :: rest =>
    match (w.extractLsb' 30 2).toNat, rest with
    | 0, _ =>
      if majorOf w = 0 then
        let h := Header.ofWord w
        if h.wellFormed then .ok (.runClause h, rest) else .error .badHeader
      else (decodeBase w none).map fun i => (i, rest)
    | 1, a :: b :: rest' => (decodeBase w (some (b ++ a))).map fun i => (i, rest')
    | 2, a :: b :: rest' => (decodeExt w (b ++ a) none).map fun i => (i, rest')
    | 3, a :: b :: c :: d :: rest' => (decodeExt w (b ++ a) (some (d ++ c))).map fun i => (i, rest')
    | _, _ => .error .truncated

/-- The little-endian words of a list of bytes (R3, R54). -/
def wordsOfBytes : List Byte → List Word
  | a :: b :: c :: d :: rest => (d ++ c ++ b ++ a) :: wordsOfBytes rest
  | _ => []

/-- The little-endian bytes of a list of words (R3). -/
def bytesOfWords : List Word → List Byte
  | [] => []
  | w :: rest =>
    w.extractLsb' 0 8 :: w.extractLsb' 8 8 :: w.extractLsb' 16 8 :: w.extractLsb' 24 8 :: bytesOfWords rest

/-- The instruction that begins a list of bytes. -/
def decode (bs : List Byte) : Except DecodeError Instr := (decodeWords (wordsOfBytes bs)).map Prod.fst

/-- The words of an instruction, from the encoding tables of R55 to R64; an event has none. -/
def encode (i : Instr) : List Word :=
  match i.asExt with
  | some (o, e) =>
    let x := e.fieldE o.code.2
    let head := [e.firstWord o.code.1, x.extractLsb' 0 32, x.extractLsb' 32 32]
    match e.lit with
    | none => head
    | some l => head ++ [l.extractLsb' 0 32, l.extractLsb' 32 32]
  | none =>
    match i.asBase with
    | some (major, b) =>
      match b.b with
      | .reg r => [0#2 ++ BitVec.ofNat 6 major ++ b.vd ++ b.va ++ r]
      | .lit x => [1#2 ++ BitVec.ofNat 6 major ++ b.vd ++ b.va ++ 0#8, x, 0]
    | none =>
      match i with
      | .runClause h => [h.toWord]
      | _ => []

/-- The number of words of an instruction (R54). -/
def Instr.length (i : Instr) : Nat :=
  match i.asExt with
  | some (_, e) => if e.lit.isSome then 5 else 3
  | none =>
    match i.asBase with
    | some (_, b) =>
      match b.b with
      | .reg _ => 1
      | .lit _ => 3
    | none => 1

/-- The five words, 160 bits, that begin with the table's word w of nbits bits, every higher bit zero. -/
def tableWords (nbits w : Nat) : List Word :=
  let x := w % 2 ^ nbits
  [BitVec.ofNat 32 x, BitVec.ofNat 32 (x / 2 ^ 32), BitVec.ofNat 32 (x / 2 ^ 64),
    BitVec.ofNat 32 (x / 2 ^ 96), BitVec.ofNat 32 (x / 2 ^ 128)]

/-- The instruction that the decoder reads from the bits w of a row of the opcode table. -/
def decodeTableWord (nbits w : Nat) : Option Instr :=
  match decode (bytesOfWords (tableWords nbits w)) with
  | .ok i => some i
  | .error _ => none

end Sys2Proof
end

