-- ==== Sys2Proof/Machine/State.lean ====
section
/-! DEFINITION. The state of the package as plain data: threads, sheaves and thread groups (R14, R17 to R30, R142 to
R147), launches and tasks (R264 to R275), clusters (R141, R394), the memory side (R159 to R188), the engines (R214 to
R244), the VFs (R263, R281, R298, R335, R391), the fabric (R378 to R388) and the package (R331, R403 to R411); the
fault and refusal names; and the state right after reset. -/

namespace Sys2Proof.Machine

/-! ### Threads -/

/-- What a read of a register raises: a deferred ARENA_STALE or ECC_UNCORRECTED (R25), or the register's own
uncorrectable error (R175). -/
inductive MarkKind where
  | stale | ecc | hurt
  deriving DecidableEq, Repr

/-- A register that a result goes to: V, S or a predicate. -/
inductive Reg where
  | v (i : Nat) | s (i : Nat) | p (i : Nat)
  deriving DecidableEq, Repr

/-- The order key of a thread in its group (R251): TIDX of the thread or of a helper's recruiter, and GLPART. -/
structure Key where
  t : Nat
  gl : Nat
  deriving DecidableEq, Repr

/-- Where an instruction stands: its first word's address, its clause header, the header after the clause (0 where
there is none), its first word, and its index in the clause (R68, R372). -/
structure Site where
  pc : Addr
  hdr : Addr
  next : Addr
  word : Word
  idx : Nat
  deriving DecidableEq, Repr

/-- What a thread in a bin waits for (R144): a full/empty condition with its word offsets (R201), the watched word
(R204) with its arena handle, a barrier phase (R206), the delay of YIELD (R118), the helpers at GLEND (R255). -/
inductive Hold where
  | ldf (off words : Nat) (take : Bool) (dst : Nat)
  | ste (off : Nat) (data : List Word)
  | waita (va pa arena bytes : Nat) (wide monitor : Bool) (value : Nat)
  | barrier (b : Nat)
  | delay
  | glend
  deriving DecidableEq, Repr

/-- Where a thread is (R144): eligible in the bin of its PC since a clock; held there by an instruction since a clock,
with the order of its arrival; in a sheaf; stopped by a debugger (R401) before or after an instruction; exited or
vacant; vacant and lent to a glean (R251). -/
inductive Place where
  | bin (filed : Nat)
  | held (h : Hold) (site : Site) (since order : Nat)
  | sheaf
  | stopped (site : Site) (hdr : Header) (mid : Bool)
  | exited
  | lent
  deriving DecidableEq, Repr

/-- The fixed op of a reduction slot (R254): 0 add, 1 min, 2 max; the type is signed. -/
structure GOp where
  op : Nat
  signed : Bool
  deriving DecidableEq, Repr

/-- A fault as R371 and R372 record it: class code, ADDR, ACCESS and INFO. -/
structure Flt where
  cls : Nat
  addr : Nat := 0
  access : Nat := 0
  info : Nat := 0
  deriving DecidableEq, Repr

/-- A participant's part of a glean (R253): the glean, the current iteration, the staged values, the draws made in this
run (R44), and, under release (R257), the instructions issued and the clock of the last issue. -/
structure GPart where
  glean : Nat
  cur : Option Nat
  staged : List (Option Word)
  draws : Nat
  release : Option (Nat × Nat)
  deriving DecidableEq, Repr

/-- A glean (R248 to R258): recruiter, count, next fresh index, returned set, window boundary, first slot and number of
slots, fixed ops, accumulators, slot values at GLEAN, body, GLEAN's own site and header, D of R44, whether it rejoined
and whether it is solo, the slots it borrowed (group, TIDX), its grant register, a charged fault, and what its released
helpers had under way, which its end waits for (R260). -/
structure Glean where
  id : Nat
  recr : Nat
  count : Nat
  next : Nat
  returned : List Nat
  k : Nat
  sr : Nat
  r : Nat
  ops : List (Option GOp)
  acc : List Word
  atGlean : List Word
  body : Addr
  site : Site
  d : Word
  rejoined : Bool
  solo : Bool
  want : Nat
  lent : List (Nat × Nat × Nat)
  gdst : Opnd
  charged : Option (Flt × Nat × Addr × Nat)
  owed : List Nat
  deriving DecidableEq, Repr

/-- A thread or a glean helper: key, place, next PC, V registers, P registers (bit 7 reads true), flag counts, DRAWS,
marks of V, SEQ of R372, tickets by barrier (R206), its part in a glean that holds a table entry, its solo glean
(R250), and whether it is on its way into the clause at HANDLER, or in it, through handler entry (R371). -/
structure Thread where
  key : Key
  place : Place
  pc : Addr
  v : List Word
  p : BitVec 8
  flags : List Nat
  draws : Word
  marks : List (Nat × MarkKind)
  seq : Word
  tickets : List (Nat × Nat)
  part : Option GPart
  solo : Option (Glean × GPart)
  entered : Bool
  deriving DecidableEq, Repr

/-- An outstanding result (R22 to R25): the thread it is addressed to, or none for the group's S registers; the flag it
lowers, or none for the scoreboard; the registers with their values and marks; whether the value has arrived; the
number by which a copy or a fabric request finds it. -/
structure Out where
  key : Key
  flag : Option Nat
  regs : List (Reg × Word × Option MarkKind)
  ready : Bool
  tag : Nat
  deriving DecidableEq, Repr

/-! ### Sheaves and groups -/

/-- An open `.m` region (R116): its end, its target, its taking and continuing threads, and its stage 1 or 2. -/
structure Region where
  rc : Addr
  target : Addr
  taking : List Key
  cont : List Key
  stage : Nat
  deriving DecidableEq, Repr

/-- What a drawn sheaf waits for: a row-collective with the rows that have acted (R124), a ring (R225), a page (R366),
an answer FAIL for a page with the fault class it raises (R367), an arena change (R291, R295), or nothing; or a context
of its slot, since what held it outside the contexts ended at a clock: ahead of every bin after a collective (R147),
by its filing time after a page's replay (R144), with an answer FAIL still to raise. -/
inductive SheafHold where
  | free
  | collective (o : Op) (e : Ext) (site : Site) (rows : List Nat)
  | stream (q order : Nat) (rst : Bool) (site : Site)
  | page (va page : Nat) (write fetch engine : Bool)
  | failed (page cls : Nat)
  | arena (change : Nat)
  | back (since : Nat) (ahead : Bool) (fail : Option (Nat × Nat))
  deriving DecidableEq, Repr

/-- A sheaf (R143 to R147): its threads, the next PC, whether it is inside a clause, with the header, its address and
the next index; regions, innermost first; the clocks drawn and last issued; the words that it has fetched in the clause
it is in, by physical address (R122); and, while it stays at an instruction that acts thread by thread, the threads whose
part has been carried out (R217, R233, R279). -/
structure Sheaf where
  members : List Key
  pc : Addr
  inClause : Bool
  hdr : Header
  hdrPc : Addr
  idx : Nat
  regions : List Region
  drawn : Nat
  last : Nat
  hold : SheafHold
  code : List (Nat × Word)
  acted : List Key
  deriving DecidableEq, Repr

/-- A collective under way (R152): row, PC, the clock of its first arrival, less what it stood still. -/
structure Inst where
  row : Nat
  pc : Addr
  since : Nat
  deriving DecidableEq, Repr

/-- A barrier (R206): expected count, whether it took the default of R78, arrivals, phase, pending bytes; the phases not
yet complete that are set phases, each with its grid set and whether by `.swap`; and whether the current phase has
arrived at its set. -/
structure Bar where
  c : Nat
  dflt : Bool
  arrivals : Nat
  phase : Nat
  pending : Nat
  sets : List (Nat × Nat × Bool)
  sent : Bool
  deriving DecidableEq, Repr

/-- The state of a ring tile (R224); a pushed tile is RESERVED and becomes FILLED, and an advanced one is POPPED and becomes
FREE, once what is named has ended (R226). -/
inductive TileState where
  | free | reserved | filled | popped
  | pushed (ids : List Nat)
  | advanced (ids : List Nat)
  deriving DecidableEq, Repr

/-- A stream's state (R224): affine indices, or ring pointers R, P, A with tile states and error bits. -/
structure Stream where
  idx : List Nat
  r : Nat
  p : Nat
  a : Nat
  tiles : List (TileState × Bool)
  deriving DecidableEq, Repr

/-- A cell's special state (R48). -/
inductive Special where
  | none | pinf | ninf | nan
  deriving DecidableEq, Repr

/-- A deferred mark of a slot or tile (R243), with the site of the instruction that set it. -/
structure MxMark where
  cls : Nat
  site : Site
  deriving DecidableEq, Repr

/-- An accumulator tile (R46, R48): 1,024 cells with special states, anchor, overflow flag, deferred mark, and the
cells with an uncorrectable error (R175). -/
structure Tile where
  n : List (BitVec 128)
  sp : List Special
  anchor : Int
  ov : Bool
  mark : Option MxMark
  bad : List Nat
  deriving DecidableEq, Repr

/-- A weight slot (R236): layout, container, panels, whether its source is scratchpad, source address, stored form,
deferred mark, and whether a parity error stands that no refill mends (R175). -/
structure Weight where
  sp24 : Bool
  c : Nat
  p : Nat
  scratch : Bool
  src : Nat
  data : List Byte
  mark : Option MxMark
  bad : Bool
  deriving DecidableEq, Repr

/-- The launch record (R265), its fields as read. -/
structure Launch where
  entry : Addr
  handler : Addr
  seed : BitVec 64
  csize : Nat
  threads : Nat
  nv : Nat
  argc : Nat
  scratch : Nat
  exch : Nat
  ntiles : Nat
  nslots : Nat
  nbars : Nat
  cexp : Nat
  fexp : Nat
  ks : List Word
  args : List Word
  streams : List (BitVec 256)
  sets : List (BitVec 64)
  gx : Nat
  gy : Nat
  gz : Nat
  exps : List Nat
  templates : List (BitVec 512)
  deriving DecidableEq, Repr

/-- Whether a group may issue (R318, R344, R401): running; halting for a save since a clock, and once all its threads have
halted, the time of TAI at which they had (R322); held by a debugger's halt
since a clock; restored with issue closed until the resume of its gang. -/
inductive Stop where
  | running
  | halting (since : Nat) (ns : Option Nat)
  | held (since : Nat)
  | closed
  deriving DecidableEq, Repr

/-- An STX that is not acknowledged yet: its member has not started (R155, R212). Its number, thread, group index of the
member, exchange offset, bytes. -/
structure Stx where
  id : Nat
  key : Key
  gidx : Nat
  off : Nat
  data : List Byte
  deriving DecidableEq, Repr

/-- An arrival at a barrier that waits for its thread's earlier accesses (R206, R211): thread, barrier, the set with whether by
`.swap`, and what it waits for. -/
structure Arrival where
  key : Key
  bar : Nat
  set : Option (Nat × Bool)
  after : List Nat
  deriving DecidableEq, Repr

/-- A pending FENCE or STATFL of a thread (R213, R313): the class set and the commands it waits for, and for a FENCE where it
stands, with the header of its clause (R319). -/
structure Fence where
  key : Key
  classes : Nat
  ids : List Nat
  site : Option (Site × Header) := none
  deriving DecidableEq, Repr

/-- A thread group on a cluster (R142). `task` is the identity of its task; `lrec` is the launch record's VA; `s0` is
the start set of its scratchpad lines and `ways` the way of each (R162); `spoilt` lists the scratchpad words with an
uncorrectable error (R175); `swapped` says which bank is visible (R164), and `swaps` whether the banks were ever
exchanged (R189); `stx` and `arvs` are stores and arrivals that wait (R206, R212); `aged` holds, for a bin that BIN_AGE_EXPIRY has marked, the filing time it aged from
(R145). -/
structure Group where
  uid : Nat
  vf : Nat
  task : Nat
  gidx : Nat
  cl : Nat
  slot : Nat
  s0 : Nat
  ways : List Nat
  launch : Launch
  lrec : Nat
  s : List Word
  marksS : List (Nat × MarkKind)
  handler : Addr
  threads : List Thread
  sheaves : List Sheaf
  outs : List Out
  insts : List Inst
  bars : List Bar
  streams : List Stream
  scratch : List Host.Cell
  fe : List Nat
  spoilt : List Nat
  swapped : Bool
  swaps : Bool
  tiles : List Tile
  weights : List Weight
  gleans : List Glean
  fences : List Fence
  stx : List Stx
  arvs : List Arrival
  stop : Stop
  dbg : Bool
  started : Nat
  aged : List (Addr × Nat)
  sets : List (Nat × Nat)
  deriving DecidableEq, Repr

/-! ### Engines -/

/-- One delivery of a copy (R216, R223): the receiving group index, units written, whether it has started, the reserved
tile, the page it waits on, the line that a pin refuses it (R186), its status once ended, whether that end has been
carried out, the origin stamp of the unit under way (R339), and whether its token can no longer be written (R229). -/
structure CPart where
  gidx : Nat
  unit : Nat
  started : Bool
  tile : Option Nat
  wait : Option Nat
  pin : Option Nat
  status : Option Nat
  ended : Bool
  stamp : Option Nat
  lost : Bool
  deriving DecidableEq, Repr

/-- A copy command (R217 to R229). An aperture copy has no group; `chan` is its channel, `token` its token address, and `block`
the argument block that it has still to read (R229). `ks` are K0 to K7 and `args` the argument words of the launch that the
template belongs to; `far` holds the lines read from another chip for the current unit, one byte standing for a failing status;
`got` what a CPYM has read of its source, by unit: the destination codes with their overflows, and the status of the first
element that fails (R223); `began` is the TAI time at which its first unit started (R400); `after` names what its thread had
under way that comes first (R221, R307). -/
structure Copy where
  id : Nat
  cl : Nat
  vf : Nat
  group : Option Nat
  key : Key
  chan : Option Nat
  block : Option Nat
  tmpl : BitVec 512
  tindex : Nat
  ks : List Word
  args : List Word
  lrec : Nat
  csize : Nat
  src : Nat
  dst : Nat
  slack : Nat
  entered : Nat
  bar : Option Nat
  token : Nat
  sigma : Option Int
  parts : List CPart
  far : List (Nat × List Byte)
  got : List (Nat × List (Nat × Bool) × Option Nat)
  began : Nat
  after : List Nat
  site : Site
  deriving DecidableEq, Repr

/-- A matrix command (R233): the operation and its encoding, the resolved addresses and values, its origin, and whether it
has performed and waits for the acknowledgements of its writes to another chip (R244); `after` names what its thread had
under way that comes first (R182 case 7), and `far` the lines read from another chip, with the class of the mark that one
gives, or 0 (R378); `tens` is the descriptor of a tensor drain as its issue read it (R300), and `pages` the pages that it reaches,
each with its physical page and its arena handle, as its issue has translated them (R237, R241, R365). -/
structure MxCmd where
  id : Nat
  cl : Nat
  group : Nat
  key : Key
  o : Op
  e : Ext
  base : Nat
  x : Nat
  y : Nat
  tens : Nat
  coords : List Word
  seed : BitVec 64
  drawG : BitVec 64
  drawC : Nat
  site : Site
  start : Nat
  performed : Bool
  after : List Nat
  far : List (Nat × List Byte × Nat)
  pages : List (Nat × Nat × Nat)
  deriving DecidableEq, Repr

/-! ### Memory side -/

/-- A TLB entry (R364): cluster, VF, the first 4 KiB page and physical page of the 2^shift bytes that it maps, rights and the
arena handle of the leaf (R284). -/
structure Tlb where
  cl : Nat
  vf : Nat
  page : Nat
  pa : Nat
  shift : Nat
  r : Bool
  w : Bool
  x : Bool
  arena : Nat
  deriving DecidableEq, Repr

/-- A walk under way on the die of the cluster that missed first, or, with a token, a page that waits for its pager (R364,
R366). -/
structure Walk where
  cl : Nat
  vf : Nat
  page : Nat
  va : Nat
  write : Bool
  fetch : Bool
  engine : Bool
  token : Option Nat
  deriving DecidableEq, Repr

/-- A group-held line (R186). -/
structure Pin where
  cl : Nat
  group : Nat
  line : Nat
  vf : Nat
  arena : Nat
  taken : Nat
  deriving DecidableEq, Repr

/-- A staged reduction partial (R188): the number by which a fence names it (R213), cluster, location, operation, type,
width in bytes, value, tag, and whether an uncorrectable error spoils it (R175). -/
structure Partial where
  id : Nat
  cl : Nat
  pa : Nat
  op : Nat
  ty : Nat
  width : Nat
  val : Nat
  vf : Nat
  arena : Nat
  bad : Bool
  deriving DecidableEq, Repr

/-- A line written since its last write-back under an arena handle other than the root's, with its memory contents
from before (R167, R292). -/
structure Dirty where
  line : Nat
  vf : Nat
  arena : Nat
  old : List Byte
  deriving DecidableEq, Repr

/-- The fields of a statistics record as numbers (R301). -/
structure Stat where
  amax : Nat
  flags : Nat
  zeros : Nat
  count : Nat
  nans : Nat
  infs : Nat
  ov : Nat
  bins : List Nat
  deriving DecidableEq, Repr

/-- A windrow entry (R169, R305): die, slice of the die, VF, the record's VA with the arena handle of its lines (R292), the merged
contribution, the clock of its first contribution or, once it is pushed, of its leaving the slice, and the number of its last
update in the order of all updates, whether an uncorrectable error stands in it (R175), and the number by which a fence names
it with the threads whose contributions it holds, each with how many (R189, R213, R395). -/
structure Windrow where
  id : Nat
  givers : List (Nat × Key × Nat)
  die : Nat
  slice : Nat
  vf : Nat
  recVa : Nat
  arena : Nat
  stat : Stat
  first : Nat
  last : Nat
  bad : Bool
  deriving DecidableEq, Repr

/-- A byte that the device writes into a group-held line, and that waits for the end of the pin (R186; log 81): the number by
which a fence names it, VF, arena handle, address and value. -/
structure Late where
  id : Nat
  vf : Nat
  arena : Nat
  pa : Nat
  byte : Byte
  deriving DecidableEq, Repr

/-- A line of another chip in a cluster cache: a fill that an atomic or a release at cluster scope or narrower has asked for, by
its group and the thread that names its sheaf, for that one access; or a line held for the group (R159, R185, R186), with the
arena handle of the access (R284): its bytes as they stand and as they were filled. Without bytes as they stand, the
exporter met an old generation, or, without any, answered ERROR (R292, R378). -/
structure FarLine where
  cl : Nat
  group : Nat
  key : Key
  line : Nat
  vf : Nat
  arena : Nat
  data : List Byte
  old : List Byte
  deriving DecidableEq, Repr

/-- The memory side: bytes by physical address in canonical form, and what the caches hold that matters. `tlb` is the TLBs of
the clusters and `tlb2` the second-level TLBs, whose entries name their die (R364), each with its newest entry first. `refused` names the
accesses that a pin refuses and that wait: the line, the identity of the group or command, and a thread of it (R186). `errored`
lists the ERRORED lines (R376), and `spoilt` those with an uncorrectable error in HBM4E (R175). -/
structure MemSide where
  mem : List Host.Cell
  tlb : List Tlb
  tlb2 : List Tlb
  walks : List Walk
  pins : List Pin
  refused : List (Nat × Nat × Key)
  late : List Late
  far : List FarLine
  partials : List Partial
  dirty : List Dirty
  errored : List Nat
  spoilt : List Nat
  windrows : List Windrow
  pushes : List Windrow
  deriving DecidableEq, Repr

/-- The state of a cluster-cache line that holds global data and is not INVALID (R159). -/
inductive LineKind where
  | clean | held | update
  deriving DecidableEq, Repr

/-- A cluster-cache line with global data (R159): cluster, way, state, the line, its arena tag, the order in which it came,
and its retention class, 0 the lowest and 2 the highest (R136). Lines in SCRATCH state stand with their groups (`Group.ways`). -/
structure CLine where
  cl : Nat
  way : Nat
  kind : LineKind
  line : Nat
  vf : Nat
  arena : Nat
  came : Nat
  rank : Nat
  deriving DecidableEq, Repr

/-- The state of a slice line that is not INVALID (R167). -/
inductive SliceKind where
  | clean | dirty | replica
  deriving DecidableEq, Repr

/-- A slice line (R167): package slice number, state, the line, its arena tag, and its retention class (R136). -/
structure SLine where
  slice : Nat
  kind : SliceKind
  line : Nat
  vf : Nat
  arena : Nat
  rank : Nat
  deriving DecidableEq, Repr

/-- An entry of a slice's reduction directory (R170): the slice, the line, the clusters that hold partials of it. -/
structure DirEntry where
  slice : Nat
  line : Nat
  holders : List Nat
  deriving DecidableEq, Repr

/-- What the caches hold by tag (R159 to R161, R167, R168, R170): cluster-cache lines, slice lines, directories, the oldest
entry first, and the number of the next line that comes. The bytes stand in `MemSide`. -/
structure Hier where
  lines : List CLine
  slices : List SLine
  dir : List DirEntry
  next : Nat
  deriving DecidableEq, Repr

/-- A protected structure (R175). -/
inductive Guarded where
  | register | clusterClean | clusterData | cell | weight | sliceClean | sliceDirty | memory
  deriving DecidableEq, Repr

/-- What Furze logs of an error (R374, R376): the structure, the die, the location, whether it was uncorrectable. -/
structure ErrRec where
  at_ : Guarded
  die : Nat
  loc : Nat
  hard : Bool
  deriving DecidableEq, Repr

/-! ### Clusters, VFs, tasks -/

/-- An issue slot of a cluster (R148 to R150): the clock of its last issue, the clock of its last issue to each of the
seven engines (R149), the clock until which DIV occupies its integer engine (R87), and the last clocks that events 4
and 5 have counted for it (R395). -/
structure IssueSlot where
  last : Option Nat
  engines : List (Option Nat)
  busy : Nat
  stalled : Option Nat
  masked : Option Nat
  deriving DecidableEq, Repr

/-- An engine that the four slots share (R149): the clock at which it last took an instruction, and the slot it took. -/
structure SharedEngine where
  last : Option Nat
  slot : Nat
  deriving DecidableEq, Repr

/-- The counter block of a cluster, its breakpoints included (R394). -/
structure Counters where
  c : List Nat
  ctl : List (BitVec 64)
  ranges : List (Addr × Addr)
  lanes : List Nat
  idle : Nat
  lctl : Bool
  bkpt : List (BitVec 64)
  deriving DecidableEq, Repr

/-- A cluster: its partition once released, the clock of release (R26), groups started since (R142), the counter block of
the running VF (R394), issue slots and shared engines (R148, R149). -/
structure Cluster where
  part : Option Nat
  released : Nat
  started : Nat
  cnt : Counters
  slots : List IssueSlot
  matrixIssue : SharedEngine
  copyIssue : SharedEngine
  deriving DecidableEq, Repr

/-- An arena table entry (R281) with the copies' GEN and STATE (R282): STATE 0 FREE, 1 LIVE, 2 SEALED, 3 SWEEPING. -/
structure Arena where
  charged : Nat
  bump : Nat
  quota : Nat
  base : Nat
  parent : Nat
  depth : Nat
  gen : Nat
  state : Nat
  cgen : Nat
  cstate : Nat
  deriving DecidableEq, Repr

/-- A change on its way from the arena unit (R282): a drop or a seal of the listed indices, the first the named arena;
and, once its point, the copies' acknowledgement, has passed, the number of the last request sent before it, which its
drain markers follow (R295). -/
structure Change where
  id : Nat
  drop : Bool
  idxs : List Nat
  passed : Option Nat
  deriving DecidableEq, Repr

/-- A sweep in progress (R293): the dropped indices, the first the named arena, its old handle, and its number in the
order of drop points. -/
structure Sweep where
  idxs : List Nat
  handle : Nat
  order : Nat
  deriving DecidableEq, Repr

/-- A notification target (R277, R391): identity, hart, ring header VA, LOGN, pending bit. -/
structure Target where
  tgt : Nat
  hart : Nat
  ring : Nat
  logn : Nat
  pend : Bool
  deriving DecidableEq, Repr

/-- A gang table entry (R335), with the node addresses of the members, the reports heard by step, the members that are
late, the members whose FLUSH and whose lock report have arrived, whether RELEASE or GO has come, whether this member's
own report of the step is sent, whether its stop is a timed one (R347), and the times of the last word from the
coordinator and of the step's start. -/
structure Gang where
  time : Nat
  start : Nat
  gang : Nat
  gmemb : Nat
  heard : Nat
  guard : Nat
  task : Nat
  target : Nat
  member : Nat
  coord : Bool
  policy : Bool
  mode : Bool
  state : Nat
  members : List Nat
  reports : List Nat
  late : List Nat
  flushed : List Nat
  locks : List Nat
  released : Bool
  sent : Bool
  byTime : Bool
  heardAt : Nat
  since : Nat
  deriving DecidableEq, Repr

/-- A counter latch of one hart (R330): counter and high half. -/
structure Latch where
  hart : Nat
  cl : Nat
  i : Nat
  high : Nat
  deriving DecidableEq, Repr

/-- A leaf of the partition stage (R360, R361): the first 4 KiB guest-physical and physical page of the 2^shift bytes that it
maps, and its rights. -/
structure PMap where
  gpa : Nat
  pa : Nat
  shift : Nat
  r : Bool
  w : Bool
  x : Bool
  deriving DecidableEq, Repr

/-- The state of one VF (R263, R268, R281, R298, R328, R335, R365, R391, R400). `arenas` lists the entries that differ
from a FREE entry of generation 0; `frames` the physical frames given to the VF since its setup (R405); `saved` its
saved counters by cluster, or none while the clusters hold them (R328, R329); `began` is the clock since which it has run in its
slice (R328); `cmd` holds the bytes of a gang command record as they are stored (R337); `shared` its 64 shared-unit counters with
their controls (R394); `wins` the addresses of its windows (R410). -/
structure VF where
  owner : Nat
  wins : List Nat
  poolBase : Nat
  poolN : Nat
  descBase : Nat
  caps : List Nat
  live : List Nat
  seqs : List Nat
  slice : Nat
  running : Bool
  groot : Nat
  gen : Bool
  pager : Nat
  ring : Addr
  targets : List Target
  arenas : List (Nat × Arena)
  changes : List Change
  sweeps : List Sweep
  pmap : List PMap
  frames : List Nat
  tokens : Nat
  gangs : List Gang
  tbase : Addr
  tctl : BitVec 64
  tprod : Nat
  tcons : Nat
  tlost : Nat
  latches : List Latch
  saved : Option (List (Nat × Counters))
  began : Nat
  cmd : List Byte
  shared : List Nat
  sharedCtl : List (BitVec 64)
  deriving DecidableEq, Repr

/-- A group as saved (R321 to R324): the group, the copies stopped with it, the time of TAI at its halt, and whether COMPLETE is
set. -/
structure Saved where
  group : Group
  copies : List Copy
  ns : Nat
  complete : Bool
  deriving DecidableEq, Repr

/-- A submitted task (R264 to R275): identity, VF, TCB index, queue, number, launch record and its VA, grid, save area, gang
fields; finished groups below the reorder window, cursor, groups placed; the clock from which aging counts and the
time of TAI at which it became READY; saved groups; the cluster that its blocked group keeps, and the clusters on which room is
being made for groups of it (R273); sets with the clock at which their first member started, and sets that failed
once (R274). -/
structure Task where
  uid : Nat
  vf : Nat
  idx : Nat
  queue : Nat
  seq : Nat
  launch : Launch
  lrec : Nat
  gx : Nat
  gy : Nat
  gz : Nat
  save : Nat
  timed : Bool
  gang : Nat
  start : Nat
  notify : Bool
  note : BitVec 64
  dropArena : Bool
  arena : Nat
  placed : List Nat
  finished : List Nat
  cursor : Nat
  readyAt : Nat
  agedAt : Nat
  saved : List Saved
  setStart : List (Nat × Nat)
  setFailed : List Nat
  reserved : Option Nat
  promised : List (Nat × Nat)
  deriving DecidableEq, Repr

/-! ### Fabric and package -/

/-- A window table entry (R386) with its importers and the drain markers still to come (R388). -/
structure Window where
  base : Nat
  pages : Nat
  owner : Nat
  vf : Nat
  gen : Nat
  a : Bool
  w : Bool
  r : Bool
  kind : Bool
  state : Nat
  importers : List Nat
  markers : List Nat
  deriving DecidableEq, Repr

/-- An import (R387): whether in use, VF, node, window, generation, pages, rights, and whether revoked (R369). -/
structure Import where
  used : Bool
  vf : Nat
  node : Nat
  win : Nat
  gen : Nat
  pages : Nat
  r : Bool
  w : Bool
  a : Bool
  revoked : Bool
  deriving DecidableEq, Repr

/-- A request of this chip on another (R381): its tag, its VF, the import, the group and the outstanding result it feeds (by
tag), or the copy or matrix command it serves, with its physical address; for a core's load, the VF and the core; for a
thread's access, its key, its path class as FENCE names it, whether it is an acquire (R182, R189), and for a fill the arena
handle (R284); its owner (R383). -/
structure Req where
  tag : Nat
  vf : Nat
  owner : Nat
  imp : Nat
  node : Nat
  group : Nat
  out : Nat
  copy : Nat
  pa : Nat
  core : Option (Nat × Nat)
  key : Key
  cls : Nat
  acq : Bool
  arena : Nat
  deriving DecidableEq, Repr

/-- A flit as sent (R381): kind, destination node, path, stamp, tag, target window, generation and offset, initiator node,
operation, width, data and control payload. -/
structure SentFlit where
  kind : Nat
  node : Nat
  path : Nat
  stamp : Nat
  tag : Nat
  win : Nat
  gen : Nat
  off : Nat
  init : Nat
  op : Nat
  width : Nat
  data : List Byte
  deriving DecidableEq, Repr

/-- A frame that waits for its acknowledgement (R380, R382): LSEQ, LACK, the origin stamp of its first flit, owner, flits,
sendings so far, clock and packet number of the last. -/
structure SentFrame where
  lseq : Nat
  lack : Nat
  stamp : Nat
  owner : Nat
  flits : List SentFlit
  sends : Nat
  last : Nat
  pn : Nat
  deriving DecidableEq, Repr

/-- A Folak port (R379 to R384): whether trained, up, next LSEQ, unacknowledged frames, next packet number, highest
LSEQ received, highest packet number received by owner, and the owners with their SAKs, each with the packet number that the
port had reached when it was installed (R384). -/
structure Port where
  trained : Bool
  up : Bool
  lseq : Nat
  unacked : List SentFrame
  pn : Nat
  lack : Nat
  rpn : List (Nat × Nat)
  saks : List (Nat × Nat × Nat)
  deriving DecidableEq, Repr

/-- A flit of an accepted frame on its way to what it addresses: the port, whether it has been there and waits, since a pin, a
page or a group's start refuses it for now, and the flit (R186, R367, R382). -/
structure Delivery where
  port : Nat
  waits : Bool
  flit : InFlit
  deriving DecidableEq, Repr

/-- The fabric side. `inbox` holds the delivered flits that have still to act, in order, and `drops` the frames that Hedgerow
has dropped, by owner (R382, R384). -/
structure Fabric where
  windows : List Window
  imports : List Import
  ports : List Port
  routes : List (Nat × List Nat)
  reqs : List Req
  waiting : List (Nat × SentFlit)
  lostSince : List (Nat × Nat)
  lost : List Nat
  inbox : List Delivery
  drops : List (Nat × Nat)
  deriving DecidableEq, Repr

/-- What the device answers or raises towards cores, debuggers and Furze. -/
inductive CoreMsg where
  | pageFault (vf core : Nat) (va : Addr) (store : Bool)
  | guestPageFault (vf core : Nat) (va : Addr)
  | accessFault (vf core : Nat) (va : Addr) (store : Bool)
  | fetchPageFault (vf core : Nat) (va : Addr)
  | fetchAccessFault (vf core : Nat) (va : Addr)
  | value (vf core : Nat) (data : List Byte)
  | notice (vf hart tgt : Nat)
  | quote (digests : List (BitVec 256))
  deriving DecidableEq, Repr

/-- Things that are discarded or refused and counted. -/
inductive Tally where
  | store | notice | token | frame | flit | record | decrement | arena | status | mark | stat | ptp | command | fault
  deriving DecidableEq, Repr

/-- The Lammas unit (R331 to R333): TAI in units of 2^-16 ns, LOCK, LOSS, BOUND, whether it has locked since stage B, the time of
its last loss of lock, the correction that it has still to make by slewing, and the timestamp of the last PTP message by port
and domain. -/
structure Lammas where
  tai : Nat
  lock : Nat
  loss : Bool
  bound : Nat
  locked : Bool
  lostAt : Nat
  slew : Int
  stamps : List (Nat × Nat × Nat)
  deriving DecidableEq, Repr

/-- Bring-up (R403 to R411): stage 0 none, 1 A, 2 B, 3 a record applied; unavailable quarter stacks and ports; the
stored and the applied record; stage of each partition (0, 1 C, 2 D) and its image measurement; the firmware
measurement; the range table (R171), shares, weights (R392) and push timers (R305); corrected errors counted by structure
and die, and Furze's log of errors (R374, R376); withholding (R13); power removed. -/
structure Chip where
  stage : Nat
  badQuarters : List Nat
  badPorts : List Nat
  stored : Option ProvRecord
  applied : Option ProvRecord
  parts : List Nat
  meas : List (BitVec 256)
  fw : BitVec 256
  ranges : List (BitVec 128)
  shares : List (List Nat)
  weights : List Nat
  push : List Nat
  soft : List (Guarded × Nat × Nat)
  log : List ErrRec
  throttled : Bool
  dead : Bool
  deriving DecidableEq, Repr

/-- An instruction word that a cluster holds since it fetched it in a VF, by physical address, with the arena handle of its
leaf (R122, R190, R284). -/
structure CodeWord where
  cl : Nat
  vf : Nat
  pa : Nat
  arena : Nat
  word : Word
  deriving DecidableEq, Repr

/-- An error that strikes (R175, R374 to R377): a correctable one in a structure of a die at a location, in a cluster where
there is one; or an uncorrectable one in a V or S register, a scratchpad word, a partial, a cell, a weight slot, a
windrow entry or a stored line. -/
inductive Harm where
  | soft (at_ : Guarded) (die loc : Nat) (cl : Option Nat)
  | vreg (g t r : Nat)
  | sreg (g r : Nat)
  | word (g o : Nat)
  | part (i : Nat)
  | cell (g tile n : Nat)
  | weight (g slot : Nat)
  | windrow (i : Nat)
  | line (line : Nat)
  deriving DecidableEq, Repr

/-- An entry of the schedule (log 1): the event that moves next, the issue slot whose turn in this clock comes next, clocks
and TAI units of
each clock that pass, the eviction of a cluster-cache or of a slice line, a number of partials that another order
passes over, an error that strikes, or an instruction word that a cluster no longer holds. -/
inductive Sched where
  | event (i : Instr)
  | issue (cl slot : Nat)
  | time (clocks tai : Nat)
  | evict (cl line : Nat)
  | spill (slice line : Nat)
  | rotate (n : Nat)
  | damage (h : Harm)
  | refetch (cl pa : Nat)
  deriving DecidableEq, Repr

/-- The state of the package. `clock` counts arithmetic clocks; `uids` numbers groups, commands and results; `nonce`
numbers free values; `schedule` and `cur`, the issuing sheaf, are the model's own (log 1); `hier` holds the cache tags
and `icache` the words held for fetch. -/
structure State where
  clock : Nat
  uids : Nat
  nonce : Nat
  schedule : List Sched
  cur : Option (Nat × Nat)
  groups : List Group
  tasks : List Task
  clusters : List Cluster
  vfs : List VF
  ms : MemSide
  hier : Hier
  icache : List CodeWord
  copies : List Copy
  fill : List MxCmd
  compute : List MxCmd
  fab : Fabric
  lam : Lammas
  chip : Chip
  msgs : List CoreMsg
  tally : List (Tally × Nat)
  deriving DecidableEq, Repr

/-! ### Faults and refusals -/

/-- Why the machine stops: it never does. The specification gives an effect, an exception or a wait to everything that a
program or a device does, and to a package without power too (R403, R411). -/
inductive Fault where
  deriving DecidableEq, Repr

/-- Why an instruction has no meaning. -/
inductive Refusal where
  /-- Raised by `exec` for an instruction that the model does not give a meaning. Safe: nothing is claimed. -/
  | notModelled (mnemonic : String)
  /-- Raised by `exec` for a thread instruction when no sheaf issues; `step` never does that. Safe. -/
  | noIssuingSheaf
  deriving DecidableEq, Repr

/-! ### The state after reset -/

/-- A free arena entry of generation 0 (R281). -/
def Arena.reset : Arena :=
  { charged := 0, bump := 0, quota := 0, base := 0, parent := 0, depth := 0, gen := 0, state := 0, cgen := 0, cstate := 0 }

/-- A FREE gang entry (R335). -/
def Gang.reset : Gang :=
  { time := 0, start := 0, gang := 0, gmemb := 0, heard := 0, guard := 30, task := 0, target := 0, member := 0,
    coord := false, policy := false, mode := false, state := 0, members := [], reports := [], late := [],
    flushed := [], locks := [], released := false, sent := false, byTime := true, heardAt := 0
    since := 0 }

/-- The counters of a cluster at reset (R395). -/
def Counters.reset : Counters :=
  { c := List.replicate 16 0, ctl := List.replicate 16 0, ranges := List.replicate 16 (0, 0)
    lanes := List.replicate 68 0, idle := 0, lctl := false, bkpt := List.replicate 4 0 }

/-- An issue slot that has not issued. -/
def IssueSlot.reset : IssueSlot :=
  { last := none, engines := List.replicate 7 none, busy := 0, stalled := none, masked := none }

/-- A shared engine that has taken nothing; slot 0 goes first (log 80). -/
def SharedEngine.reset : SharedEngine := { last := none, slot := 3 }

/-- A cluster that is not released. -/
def Cluster.reset : Cluster :=
  { part := none, released := 0, started := 0, cnt := Counters.reset
    slots := List.replicate 4 IssueSlot.reset, matrixIssue := SharedEngine.reset, copyIssue := SharedEngine.reset }

/-- The cache tags at reset: every line INVALID, every directory empty. -/
def Hier.reset : Hier := { lines := [], slices := [], dir := [], next := 0 }

/-- A VF before its setup (R263, R391); caps: log 5. -/
def VF.reset : VF :=
  { owner := 0, wins := [], poolBase := 0, poolN := 0, descBase := 0, caps := List.replicate 64 7, live := List.replicate 64 0
    seqs := List.replicate 64 0, slice := 0, running := false, groot := 0, gen := false, pager := 0, ring := 0
    targets := [], arenas := [], changes := [], sweeps := [], pmap := [], frames := [], tokens := 0
    gangs := List.replicate 64 Gang.reset, tbase := 0, tctl := 0, tprod := 0, tcons := 0, tlost := 0
    latches := [], saved := some [], began := 0, cmd := List.replicate 64 0, shared := List.replicate 64 0, sharedCtl := List.replicate 64 0 }

/-- A FREE window (R386). -/
def Window.reset : Window :=
  { base := 0, pages := 0, owner := 0, vf := 0, gen := 0, a := false, w := false, r := false, kind := false
    state := 0, importers := [], markers := [] }

/-- An unused import (R387). -/
def Import.reset : Import :=
  { used := false, vf := 0, node := 0, win := 0, gen := 0, pages := 0, r := false, w := false, a := false
    revoked := false }

/-- A port before training. -/
def Port.reset : Port :=
  { trained := false, up := false, lseq := 0, unacked := [], pn := 0, lack := 4095, rpn := [], saks := [] }

/-- The memory side at reset: nothing listed, nothing held. -/
def MemSide.reset : MemSide :=
  { mem := [], tlb := [], tlb2 := [], walks := [], pins := [], refused := [], late := [], far := [], partials := [], dirty := [],
    errored := [], spoilt := [], windrows := [], pushes := [] }

/-- The fabric at reset. -/
def Fabric.reset : Fabric :=
  { windows := List.replicate 256 Window.reset, imports := List.replicate 256 Import.reset
    ports := List.replicate 24 Port.reset, routes := [], reqs := [], waiting := [], lostSince := [], lost := [], inbox := [], drops := [] }

/-- The package right after reset: power just good, nothing configured (R403). -/
def State.reset : State :=
  { clock := 0, uids := 0, nonce := 0, schedule := [], cur := none, groups := [], tasks := []
    clusters := List.replicate Config.clusters Cluster.reset, vfs := List.replicate 128 VF.reset
    ms := MemSide.reset, hier := Hier.reset, icache := [], copies := [], fill := [], compute := [], fab := Fabric.reset
    lam := { tai := 0, lock := 0, loss := false, bound := 0xFFFF, locked := false, lostAt := 0, slew := 0, stamps := [] }
    chip :=
      { stage := 0, badQuarters := [], badPorts := [], stored := none, applied := none, parts := List.replicate 8 0
        meas := List.replicate 8 0, fw := 0, ranges := List.replicate 64 0, shares := List.replicate 8 (List.range 192)
        weights := List.replicate 8 1, push := List.replicate 8 8, soft := [], log := []
        throttled := false, dead := false }
    msgs := [], tally := [] }

end Sys2Proof.Machine
end

