-- ==== Sys2Proof/Machine/Memory.lean ====
section
/-! DEFINITION. Memory as a sorted list of cells (log 4), little-endian bytes (R3), what the memory side notes of partials
(R188), written lines and pins (R186), and the two stages of translation (R360 to R364). -/

namespace Sys2Proof.Machine

/-- A sparse byte memory by address. -/
abbrev Memory := List Host.Cell

namespace Memory

/-- What an address that is not listed reads as (log 4). -/
def unlisted : Byte := 0

/-- The byte at an address. -/
def read : Memory → Nat → Byte
  | [], _ => unlisted
  | (b, x) :: m, a => if a = b then x else read m a

/-- A write of one byte, which keeps the canonical form. -/
def write : Memory → Nat → Byte → Memory
  | [], a, x => if x = unlisted then [] else [(a, x)]
  | (b, y) :: m, a, x =>
    if a < b then (if x = unlisted then (b, y) :: m else (a, x) :: (b, y) :: m)
    else if a = b then (if x = unlisted then m else (a, x) :: m)
    else (b, y) :: write m a x

/-- Addresses strictly rise from a bound, and no entry equals what an unlisted address reads as. -/
def wfFrom : Nat → Memory → Bool
  | _, [] => true
  | lo, (a, x) :: m => lo ≤ a && x != unlisted && wfFrom (a + 1) m

/-- The canonical form. -/
def wf (m : Memory) : Bool := wfFrom 0 m

/-- n bytes from an address. -/
def readN (m : Memory) : Nat → Nat → List Byte
  | _, 0 => []
  | a, n + 1 => m.read a :: readN m (a + 1) n

/-- A list of bytes stored from an address upward. -/
def writeN : Memory → Nat → List Byte → Memory
  | m, _, [] => m
  | m, a, x :: xs => writeN (m.write a x) (a + 1) xs

end Memory

/-- The little-endian value of bytes (R3). -/
def leNat : List Byte → Nat
  | [] => 0
  | b :: bs => b.toNat + 256 * leNat bs

/-- n little-endian bytes of a value (R3). -/
def natBytes : Nat → Nat → List Byte
  | 0, _ => []
  | n + 1, x => BitVec.ofNat 8 x :: natBytes n (x / 256)

/-- The 32-bit registers that hold a value of n words, low word first (R18). -/
def natWords : Nat → Nat → List Word
  | 0, _ => []
  | n + 1, x => BitVec.ofNat 32 x :: natWords n (x / 2 ^ 32)

/-- The value of registers, low word first (R18). -/
def wordsNat : List Word → Nat
  | [] => 0
  | w :: ws => w.toNat + 2 ^ 32 * wordsNat ws

/-- `Sext(x, w)`: the low w bits of x as a signed number. -/
def sext (w x : Nat) : Int :=
  let y := x % 2 ^ w
  if 2 * y < 2 ^ w then (y : Int) else (y : Int) - 2 ^ w

/-- `Bits(x, w)` of an integer: its residue modulo 2^w. -/
def wrap (w : Nat) (x : Int) : Nat := (x % (2 ^ w : Nat)).toNat

/-- Bits [lo + n − 1 : lo] of a number. -/
def field (x lo n : Nat) : Nat := x / 2 ^ lo % 2 ^ n

/-- Bit i of a number. -/
def bitAt (x i : Nat) : Bool := x / 2 ^ i % 2 = 1

/-- The list with the element at an index replaced by a function of it. -/
def modAt {α : Type} (l : List α) (i : Nat) (f : α → α) : List α :=
  match l, i with
  | [], _ => []
  | x :: xs, 0 => f x :: xs
  | x :: xs, i + 1 => x :: modAt xs i f

/-- Insertion into a list kept in order by a key. -/
def insertBy {α : Type} (f : α → Nat) (x : α) : List α → List α
  | [] => [x]
  | y :: ys => if f x ≤ f y then x :: y :: ys else y :: insertBy f x ys

/-- A list in the order of a key. -/
def sortBy {α : Type} (f : α → Nat) : List α → List α
  | [] => []
  | x :: xs => insertBy f x (sortBy f xs)

/-! ### The shared counters of the device -/

/-- One more of a tallied event. -/
def State.note (s : State) (t : Tally) : State :=
  { s with tally :=
    if s.tally.any (fun x => x.1 = t) then s.tally.map (fun x => if x.1 = t then (x.1, x.2 + 1) else x)
    else s.tally ++ [(t, 1)] }

/-- n more of a tallied event. -/
def State.noteN (s : State) (t : Tally) : Nat → State
  | 0 => s
  | n + 1 => (s.note t).noteN t n

/-- A counter block after n more of an event (R395). -/
def Counters.add (k : Counters) (event n : Nat) : Counters :=
  { k with c := k.c.zipIdx.map fun (x, i) =>
    let ctl := (k.ctl.getD i 0).toNat
    if bitAt ctl 31 ∧ field ctl 0 16 = event then (x + n) % 2 ^ 64 else x }

/-- The state after n more of a cluster event (R395). -/
def State.count (s : State) (cl event n : Nat) : State :=
  { s with clusters := modAt s.clusters cl fun c => { c with cnt := c.cnt.add event n } }

/-- The shared-unit counters of a VF after n more of an event of requests tagged with a VF of its partition (R329,
R395). -/
def VF.countShared (v : VF) (tag event n : Nat) : VF :=
  let up : Nat × Nat → Nat := fun (x, i) =>
    let ctl := (v.sharedCtl.getD i 0).toNat
    if bitAt ctl 31 ∧ field ctl 0 16 = event ∧ field ctl 16 4 = tag then (x + n) % 2 ^ 64 else x
  { v with shared := v.shared.zipIdx.map up }

/-- The state after n more of a shared-unit event of requests tagged with a VF (R329, R395): the counters of its
partition's VFs that select it count. -/
def State.countShared (s : State) (vf event n : Nat) : State :=
  { s with vfs := s.vfs.zipIdx.map fun (v, i) => if i / 16 = vf / 16 then v.countShared (vf % 16) event n else v }

/-- TAI nanoseconds (R331). -/
def State.ns (s : State) : Nat := s.lam.tai / 2 ^ 16

/-! ### Lookups -/

/-- The VF of an index: 16 × partition + VF. -/
def State.vf (s : State) (i : Nat) : VF := s.vfs.getD i VF.reset
/-- The state with one VF changed. -/
def State.setVf (s : State) (i : Nat) (f : VF → VF) : State := { s with vfs := modAt s.vfs i f }
/-- The cluster of a package cluster number. -/
def State.cluster (s : State) (i : Nat) : Cluster := s.clusters.getD i Cluster.reset
/-- The state with one group changed. -/
def State.setGroup (s : State) (i : Nat) (f : Group → Group) : State := { s with groups := modAt s.groups i f }
/-- The place of the group with an identity. -/
def State.groupOf (s : State) (uid : Nat) : Option Nat := s.groups.findIdx? fun g => g.uid = uid
/-- An arena entry (R281). -/
def VF.arena (v : VF) (i : Nat) : Arena := (v.arenas.lookup i).getD Arena.reset
/-- The VF with one arena entry changed. -/
def VF.setArena (v : VF) (i : Nat) (a : Arena) : VF :=
  { v with arenas := (i, a) :: v.arenas.filter fun x => x.1 != i }
/-- A handle's access is one of an old generation at the copies (R285). -/
def VF.staleAt (v : VF) (handle : Nat) : Bool := (v.arena (handle % 4096)).cgen != handle / 4096 % 16
/-- The handle is current and its arena is SEALED in the copies; the access of an old generation is no access to the
sealed arena (R134, R285, R296). -/
def VF.sealedAt (v : VF) (handle : Nat) : Bool := !v.staleAt handle && (v.arena (handle % 4096)).cstate = 2

/-! ### Reductions and stores -/

/-- The new value of an atomic operation on a value of a type (R194); v2 is the new value of `.cas`. -/
def atomNew (op ty : Nat) (o v v2 : Nat) : Nat :=
  let w := if ty = 3 ∨ ty = 7 ∨ ty = 8 then 64 else if ty = 15 then 128 else 32
  let half (f : Nat → Nat → Nat) : Nat := f (o % 2 ^ 16) (v % 2 ^ 16) + 2 ^ 16 * f (o / 2 ^ 16 % 2 ^ 16) (v / 2 ^ 16 % 2 ^ 16)
  match op with
  | 0 =>
    if ty = 9 then f32.add .rne o v
    else if ty = 12 then half (bf16.add .rne)
    else if ty = 13 then half (f16.add .rne)
    else (o + v) % 2 ^ w
  | 1 => if ty = 9 then f32.minmax false o v
    else if ty = 2 ∨ ty = 3 then (if sext w v < sext w o then v else o) else Nat.min o v
  | 2 => if ty = 9 then f32.minmax true o v
    else if ty = 2 ∨ ty = 3 then (if sext w o < sext w v then v else o) else Nat.max o v
  | 3 => o &&& v
  | 4 => o ||| v
  | 5 => o ^^^ v
  | 6 => v
  | _ => if o = v then v2 else o

/-- Memory after every partial on a line has been combined at its home, in staging order; while the line is pinned
the recall waits (R186, R188). A spoilt partial spoils the line (R175, R376). -/
def MemSide.combine (m : MemSide) (line : Nat) : MemSide :=
  if m.pins.any fun p => p.line = line then m else
  { m with
    mem := m.partials.foldl (fun a p =>
      if p.pa / 128 = line then
        Memory.writeN a p.pa (natBytes p.width (atomNew p.op p.ty (leNat (Memory.readN a p.pa p.width)) p.val 0))
      else a) m.mem
    partials := m.partials.filter fun p => p.pa / 128 != line
    errored := if m.partials.any (fun p => p.pa / 128 = line && p.bad) && !m.errored.contains line then line :: m.errored
               else m.errored }

/-- The memory side after a line has noted its contents from before its first write since its write-back, and the tag of the
arena that it was written in last (R167). -/
def MemSide.noteDirty (m : MemSide) (vf arena line : Nat) : MemSide :=
  if m.dirty.any (fun d => d.line = line) then
    { m with dirty := m.dirty.map fun d => if d.line = line then { d with vf := vf, arena := arena } else d }
  else if arena % 4096 = 0 then m
  else { m with dirty := { line := line, vf := vf, arena := arena, old := Memory.readN m.mem (line * 128) 128 } :: m.dirty }

/-- The tags once the partials of a line have been combined: its UPDATE-ONLY lines are INVALID and its directory entry is
gone (R159, R170). -/
def Hier.recalled (h : Hier) (line : Nat) : Hier :=
  { h with lines := h.lines.filter fun c => c.kind != .update || c.line != line, dir := h.dir.filter fun e => e.line != line }

/-- The partials of a line that a recall now reaches: none while the line is pinned (R186, R188). -/
def MemSide.recallable (m : MemSide) (line : Nat) : List Partial :=
  if m.pins.any fun p => p.line = line then [] else m.partials.filter fun p => p.pa / 128 = line

/-- The threads that watch a line by a monitor resume at the next header (R204). -/
def Thread.wake (clock line : Nat) (t : Thread) : Thread :=
  match t.place with
  | .held (.waita _ pa _ _ _ true _) site _ _ => if pa / 128 = line then { t with place := .bin clock, pc := site.next } else t
  | _ => t

/-- Every waiter of a line resumes (R204). -/
def State.wakeLine (s : State) (line : Nat) : State :=
  { s with groups := s.groups.map fun g => { g with threads := g.threads.map (Thread.wake s.clock line) } }

/-- The line is pinned against an access that no group of the given identity makes (R186). -/
def MemSide.refuses (m : MemSide) (group : Option Nat) (line : Nat) : Bool :=
  m.pins.any fun p => p.line = line && some p.group != group

/-- The memory side after the refusal of an access of a group or command, by a thread of it, has been noted (R186). -/
def MemSide.noteRefused (m : MemSide) (line who : Nat) (k : Key) : MemSide :=
  if m.refused.contains (line, who, k) then m else { m with refused := (line, who, k) :: m.refused }

/-- What was refused a group or command, by a thread of it, has been served (R186). -/
def MemSide.served (m : MemSide) (who : Nat) (k : Key) : MemSide :=
  { m with refused := m.refused.filter fun x => x.2 != (who, k) }

/-- Something that a pin refused is still there to wait: its group is resident, its command is in flight, or it is an access
from outside the clusters (identity 0; log 95). -/
def State.stillAsks (s : State) (who : Nat) : Bool :=
  who = 0 || s.groups.any (fun g => g.uid = who) || s.copies.any (fun c => c.id = who) || (s.fill ++ s.compute).any fun c => c.id = who

/-- An access refused on a line still waits to be served (R186). -/
def State.owes (s : State) (line : Nat) : Bool := s.ms.refused.any fun x => x.1 = line && s.stillAsks x.2.1

/-- An access at the home of a line meets an uncorrectable error: an ERRORED line, or one that memory alone holds, spoilt
there (R175, R375, R376). -/
def State.errs (s : State) (pa : Nat) : Bool :=
  s.ms.errored.contains (pa / 128)
    || s.ms.spoilt.contains (pa / 128) && !s.hier.slices.any fun x => x.line = pa / 128 && x.kind != .replica

/-! ### Translation -/

/-- What a translation gives: a physical address with its arena handle, no mapping, a partition-stage miss at a
guest-physical address, or a denied right. -/
inductive Xl where
  | ok (pa arena : Nat)
  | missing
  | pmiss (gpa : Nat)
  | denied
  deriving DecidableEq, Repr

/-- The rights that an access needs (R363). -/
structure Need where
  r : Bool := false
  w : Bool := false
  x : Bool := false
  deriving DecidableEq, Repr

/-- A leaf as a walk found it: the physical 4 KiB page of the address, the size that both stages map, rights, handle. -/
structure Leaf where
  pa : Nat
  shift : Nat
  r : Bool
  w : Bool
  x : Bool
  arena : Nat
  deriving DecidableEq, Repr

/-- The result of a walk of both stages: a leaf, no mapping, a partition-stage miss, a denial, an uncorrectable error met. -/
inductive WalkRes where
  | leaf (l : Leaf)
  | missing
  | pmiss (gpa : Nat)
  | denied
  | hurt
  deriving DecidableEq, Repr

/-- A leaf of the partition stage maps a guest-physical address (R361). -/
def PMap.covers (m : PMap) (gpa : Nat) : Bool := m.gpa * 4096 / 2 ^ m.shift = gpa / 2 ^ m.shift

/-- The partition-stage mapping of the 4 KiB page of a guest-physical address (R360, R361). -/
def VF.pstage (v : VF) (gpa : Nat) : Option PMap :=
  (v.pmap.find? fun m => m.covers gpa).map fun m => { m with gpa := gpa / 4096, pa := m.pa + (gpa / 4096 - m.gpa) }

/-- A valid entry is malformed at a level whose leaf would map 2^shift bytes (R362). -/
def entryBad (e level shift : Nat) : Bool :=
  let leaf := bitAt e 1
  field e 6 2 != 0 || (leaf && level ≤ 1) || (!leaf && level = 4)
    || (leaf && field e 8 40 % 2 ^ (shift - 12) != 0) || (bitAt e 3 && !bitAt e 2) || (bitAt e 5 && level != 4)

/-- Memory as a read of a line finds it, its partials combined (R188). -/
def State.memAt (s : State) (line : Nat) : Memory := (s.ms.combine line).mem

/-- A walk from a table down the remaining levels, each with its shift (R361, R362); it can meet an entry with an
uncorrectable error (R375). It gives what it finds and the lines that it has read. -/
def State.walkFrom (s : State) (v : VF) (va : Nat) : List (Nat × Nat) → Nat → WalkRes × List Nat
  | [], _ => (.missing, [])
  | (level, shift) :: rest, table =>
    let bits := if level = 0 then 8 else 9
    let egpa := table + 8 * field va shift bits
    match v.pstage egpa with
    | none => (.pmiss egpa, [])
    | some m =>
      let pa := m.pa * 4096 + egpa % 4096
      if !m.r then (.denied, [])
      else if s.errs pa then (.hurt, [pa / 128])
      else
        let e := leNat (Memory.readN (s.memAt (pa / 128)) pa 8)
        if !bitAt e 0 || entryBad e level shift then (.missing, [pa / 128])
        else if bitAt e 1 then
          let gpa := field e 8 40 * 4096 + va % 2 ^ shift
          match v.pstage gpa with
          | none => (.pmiss gpa, [pa / 128])
          | some p =>
            (.leaf { pa := p.pa, shift := Nat.min shift p.shift, r := bitAt e 2 && p.r, w := bitAt e 3 && p.w, x := bitAt e 4 && p.x
                     arena := field e 48 16 }, [pa / 128])
        else
          let r := s.walkFrom v va rest (field e 8 40 * 4096)
          (r.1, pa / 128 :: r.2)

/-- A walk of both stages from the VF's root (R360, R391), with the lines that it reads. -/
def State.walkTrace (s : State) (vf va : Nat) : WalkRes × List Nat :=
  let v := s.vf vf
  if v.gen then s.walkFrom v va [(0, 48), (1, 39), (2, 30), (3, 21), (4, 12)] (v.groot * 4096)
  else (.missing, [])

/-- What a walk of both stages finds (R360). -/
def State.walk (s : State) (vf va : Nat) : WalkRes := (s.walkTrace vf va).1

/-- An address of an import lies beyond its window, or the import serves another VF (R387). -/
def State.beyondImport (s : State) (vf pa : Nat) : Bool :=
  let j := s.fab.imports.getD (field pa 36 8) Import.reset
  pa / 2 ^ 44 = 0xFF && (j.vf != vf || j.pages * 4096 ≤ pa % 2 ^ 36)

/-- The outcome of a leaf for an access of a VF (R363, R387). -/
def State.atLeaf (s : State) (vf : Nat) (l : Leaf) (va : Nat) (n : Need) : Xl :=
  let pa := l.pa * 4096 + va % 4096
  if (n.r && !l.r) || (n.w && !l.w) || (n.x && !l.x) || s.beyondImport vf pa then .denied else .ok pa l.arena

/-- The die of a cluster. -/
def dieOf (cl : Nat) : Nat := cl / 80

/-- The entry of a list of TLB entries that maps a 4 KiB page under a number and a VF, as of that page (R364). -/
def tlbFind (l : List Tlb) (cl vf page : Nat) : Option Tlb :=
  (l.find? fun t => t.cl = cl && t.vf = vf && t.page * 4096 / 2 ^ t.shift = page * 4096 / 2 ^ t.shift).map fun t =>
    { t with page := page, pa := t.pa + (page - t.page) }

/-- The cluster's TLB holds a translation of a page (R364). -/
def State.firstTlb (s : State) (cl vf page : Nat) : Option Tlb := tlbFind s.ms.tlb cl vf page

/-- The leaf that a TLB entry stands for. -/
def Tlb.leaf (t : Tlb) : Leaf := { pa := t.pa, shift := t.shift, r := t.r, w := t.w, x := t.x, arena := t.arena }

/-- A thread access or fetch on a cluster translates through its TLB (R364); bits [63:56] of an address are zero (R360). -/
def State.xlate (s : State) (cl vf va : Nat) (n : Need) : Xl :=
  if 2 ^ 56 ≤ va then .denied
  else
    match s.firstTlb cl vf (va / 4096) with
    | some t => s.atLeaf vf t.leaf va n
    | none => .missing

/-- The instruction word that a cluster fetches at an address: the one that it holds, under an arena generation that is
still current (R285), or else the one at the home (R122, R190). -/
def State.codeWord (s : State) (cl vf pa : Nat) : Word :=
  match s.icache.find? fun x => x.cl = cl && x.vf = vf && x.pa = pa && !(s.vf vf).staleAt x.arena with
  | some x => x.word
  | none => BitVec.ofNat 32 (leNat (Memory.readN (s.memAt (pa / 128)) pa 4))

/-- The cluster holds the instruction word at an address (R122, R285). -/
def State.holdsWord (s : State) (cl vf pa : Nat) : Bool :=
  s.icache.any fun x => x.cl = cl && x.vf = vf && x.pa = pa && !(s.vf vf).staleAt x.arena

/-- The state in which a cluster holds the instruction word at an address, tagged with its arena handle (R284). -/
def State.holdWord (s : State) (cl vf pa arena : Nat) : State :=
  if s.holdsWord cl vf pa then s
  else { s with icache := s.icache ++ [{ cl := cl, vf := vf, pa := pa, arena := arena, word := s.codeWord cl vf pa }] }

/-- The state in which a cluster holds the n instruction words fetched from an address on. -/
def State.holdWords (s : State) (cl vf : Nat) : Nat → Addr → State
  | 0, _ => s
  | n + 1, pc =>
    match s.xlate cl vf pc.toNat { x := true } with
    | .ok pa arena => State.holdWords (s.holdWord cl vf pa arena) cl vf n (pc + 4)
    | _ => s

/-- An engine, the device or a core translates by a walk of its own; an uncorrectable error in it denies the access (R375). -/
def State.xlateNow (s : State) (vf va : Nat) (n : Need) : Xl :=
  if 2 ^ 56 ≤ va then .denied
  else
    match s.walk vf va with
    | .leaf l => s.atLeaf vf l va n
    | .missing => .missing
    | .pmiss g => .pmiss g
    | .denied | .hurt => .denied

/-- Where code at an address stands for the walk of a clause's words: by the cluster's TLB, or by a walk (R54, R66). -/
def State.codeAt (s : State) (cl vf va : Nat) : Xl :=
  match s.xlate cl vf va { x := true } with
  | .missing => s.xlateNow vf va { x := true }
  | x => x

end Sys2Proof.Machine
end

