-- ==== Sys2Proof/Machine/Operands.lean ====
section
/-! DEFINITION. Operand forms: the shared window of a glean (R252), sources and literals as numbers (R18, R21, R33, R59,
R60, R82), displacements and addresses (R134, R138), the registers an instruction reads and writes (R24), the writing
of V, S and P registers (R19, R20), random words (R29, R44) and special registers (R26 to R28). -/

namespace Sys2Proof

/-- The register j places above the one an operand names. -/
def Opnd.reg? (o : Opnd) (j : Nat) : Option Machine.Reg :=
  match o with
  | .v i => some (.v (i.toNat + j))
  | .slo i => some (.s (i.toNat + j))
  | .shi i => some (.s (i.toNat + 256 + j))
  | .k _ => none

/-- The index of a class 11 specifier. -/
def Opnd.index : Opnd → Nat
  | .v i => i.toNat
  | .slo i => i.toNat
  | .shi i => i.toNat
  | .k i => i.toNat

/-- The operand is encoded as absent (R59). -/
def Opnd.absent (o : Opnd) : Bool := o == .k 0

/-- The specifier at a position. -/
def Ext.opnd (e : Ext) (k : Nat) : Opnd :=
  match k with
  | 0 => e.op0
  | 1 => e.op1
  | 2 => e.op2
  | _ => e.op3

/-- The displacement or target offset: the literal's low word or IMM20, signed (R75, R131). -/
def Ext.disp (e : Ext) : Int :=
  match e.lit with
  | some x => Machine.sext 32 x.toNat
  | none => Machine.sext 20 e.imm.toNat

/-- The containers of a register for the slot of a conversion (R36, R107). -/
def Ext.lanes (e : Ext) (ks : List Word) : Nat := 32 / (Machine.Slot.ofWord (ks.getD e.sc.toNat 0)).container

/-- The writes of a value of n words to the registers of an operand. -/
def Opnd.writes (o : Opnd) (n x : Nat) : List (Machine.Reg × Word) :=
  (Machine.natWords n x).zipIdx.filterMap fun (w, j) => (o.reg? j).map fun r => (r, w)

end Sys2Proof

namespace Sys2Proof.Machine

/-- The thread of a key. -/
def Group.find (g : Group) (k : Key) : Option Thread := g.threads.find? fun t => t.key = k

/-- The group with the thread of a key changed. -/
def Group.modify (g : Group) (k : Key) (f : Thread → Thread) : Group :=
  { g with threads := g.threads.map fun t => if t.key = k then f t else t }

/-- The order of R251. -/
def Key.before (a b : Key) : Bool := a.t < b.t || (a.t = b.t && a.gl < b.gl)

/-- The glean with an identity. -/
def Group.glean (g : Group) (id : Nat) : Option Glean := g.gleans.find? fun x => x.id = id

/-- The window boundary of a participant's glean that holds a table entry; 0 in none (R252). -/
def Group.window (g : Group) (t : Thread) : Nat :=
  match t.part with
  | some p => ((g.glean p.glean).map Glean.k).getD 0
  | none => 0

/-- The thread that holds a V register named by t: below the boundary a helper names its recruiter's (R252). -/
def Group.vHome (g : Group) (t : Thread) (r : Nat) : Thread :=
  if t.key.gl != 0 && r < g.window t then (g.find { t := t.key.t, gl := 0 }).getD t else t

/-- A V register as t names it. -/
def Group.readV (g : Group) (t : Thread) (r : Nat) : Word := (g.vHome t r).v.getD r 0
/-- An S register (R19). -/
def Group.readS (g : Group) (i : Nat) : Word := g.s.getD i 0
/-- A predicate; P7 reads true (R20). -/
def Thread.pred (t : Thread) (i : Nat) : Bool := i = 7 || t.p.getLsbD i

/-- The gleans that a thread takes part in: its solo glean, and the one that holds a table entry (R250). -/
def Group.gleansOf (g : Group) (t : Thread) : List Glean :=
  (t.solo.map Prod.fst).toList ++ (t.part.bind fun p => g.glean p.glean).toList

/-- An S register as t reads it: a reduction slot of its glean has the value from GLEAN (R19, R252). -/
def Group.readSAs (g : Group) (t : Thread) (i : Nat) : Word :=
  match (g.gleansOf t).find? fun x => x.sr ≤ i && i < x.sr + x.r with
  | some x => x.atGlean.getD (i - x.sr) 0
  | none => g.readS i

/-- A register as t names it. -/
def Group.readReg (g : Group) (t : Thread) : Reg → Word
  | .v r => g.readV t r
  | .s i => g.readSAs t i
  | .p i => if t.pred i then 1 else 0

/-- A source of n registers as a number of 32 n bits; a small immediate is `Sext(index, 8)` (R18, R21, R82). -/
def Group.src (g : Group) (t : Thread) (n : Nat) (o : Opnd) : Nat :=
  match o with
  | .k i => wrap (32 * n) (sext 8 i.toNat)
  | .v i => wordsNat ((List.range n).map fun j => g.readV t (i.toNat + j))
  | .slo i => wordsNat ((List.range n).map fun j => g.readSAs t (i.toNat + j))
  | .shi i => wordsNat ((List.range n).map fun j => g.readSAs t (i.toNat + 256 + j))

/-- The literal that stands for operand position k, if one does (R60). -/
def litAt (o : Op) (e : Ext) (k : Nat) : Option Nat :=
  match e.lit, o.literal e with
  | some x, .op1 _ => if k = 1 then some x.toNat else none
  | some x, .op2 _ => if k = 2 then some x.toNat else none
  | some x, .op3 _ => if k = 3 then some x.toNat else none
  | _, _ => none

/-- Operand k as a number of 32 n bits, from its literal or its specifier (R59, R60, R82). -/
def Group.arg (g : Group) (t : Thread) (o : Op) (e : Ext) (n k : Nat) : Nat :=
  match litAt o e k with
  | some x => x % 2 ^ (32 * n)
  | none => g.src t n (e.opnd k)

/-- base + `Bits(index, 32)` × 2^scale + disp, in w bits, with a base of n registers (R134, R138). -/
def Group.address (g : Group) (t : Thread) (e : Ext) (n w scale : Nat) : Nat :=
  let base := if e.op1.absent then 0 else g.src t n e.op1
  let index := if e.op2.absent then 0 else g.src t 1 e.op2
  wrap w ((base : Int) + index * 2 ^ scale + e.disp)

/-! ### The registers that an instruction names -/

/-- The number of registers at an operand position, ranges included (R18, R107, R110, R232, R316). -/
def regSpan (ks : List Word) (o : Op) (e : Ext) (k : Nat) : Nat :=
  let n := e.lanes ks
  match o, k with
  | .qnt, 1 => n
  | .qnt, 3 => if e.rm = 6 then n else 0
  | .dqn, 0 => n
  | .pack, 1 => n
  | .unpk, 0 => n
  | .qblk, 1 => e.lo.toNat + 1
  | .qblk, 2 => (e.lo.toNat + 4) / 4
  | .aread, 0 => if e.ty = 6 then 1 else e.op3.index * (if e.ty = 15 then 4 else 1)
  | _, _ =>
    match (o.positions e).getD k .unused with
    | .reg _ _ _ m => m
    | .mem _ _ m => m
    | _ => 0

/-- The operand positions that an instruction writes. -/
def destPos (o : Op) (e : Ext) : List Nat :=
  match o with
  | .st | .sts | .stt | .pref | .stx | .ste | .feinit | .waita | .red | .barArv | .barWait | .barSync | .barSet
  | .barSwap | .barexp | .fence | .qpush | .qadv | .qrst | .wbld | .mma | .azero | .adrain | .aadd | .glend | .gadd
  | .ardrop | .arseal | .statfl | .statrst | .uint | .mark | .braU | .braS | .braM | .brx | .ret | .reform | .exit
  | .yield | .nop | .trap | .brk | .swreg | .icinv => []
  | .ffrexp => [0, 1]
  | .qblk => [0, 2]
  | .qnt => if e.rm = 6 then [0, 3] else [0]
  | .nextit => [0]
  | _ => [0]

/-- The predicate that an instruction writes, if any. -/
def destPred (o : Op) (e : Ext) : Option Nat :=
  match o with
  | .cmp | .fcmp | .plop | .elect => some e.op0.index
  | .pmov | .vote =>
    match e.op0 with
    | .k i => some i.toNat
    | _ => none
  | .nextit => some e.op1.index
  | _ => none

/-- The registers at a position. -/
def regsAt (ks : List Word) (o : Op) (e : Ext) (k : Nat) : List Reg :=
  (List.range (regSpan ks o e k)).filterMap fun j => (e.opnd k).reg? j

/-- The registers that an instruction writes. -/
def destRegs (ks : List Word) (o : Op) (e : Ext) : List Reg :=
  (destPos o e).flatMap (regsAt ks o e) ++ (match destPred o e with
    | some i => [.p i]
    | none => [])

/-- The registers of its operands that an instruction writes, each with its specifier bits for INFO (R372). -/
def destBits (ks : List Word) (o : Op) (e : Ext) : List (Reg × Nat) :=
  (destPos o e).flatMap fun k => (regsAt ks o e k).map fun r => (r, (e.opnd k).toBits.toNat)

/-- The V and S registers that an instruction reads, each with its specifier bits for INFO (R372). -/
def srcRegs (ks : List Word) (o : Op) (e : Ext) : List (Reg × Nat) :=
  ([0, 1, 2, 3].filter fun k => !(destPos o e).contains k || (o == .qnt && k == 3)).flatMap fun k =>
    if (litAt o e k).isSome then [] else (regsAt ks o e k).map fun r => (r, (e.opnd k).toBits.toNat)

/-- The predicates that an instruction reads: its guard and its predicate sources (R20, R63). -/
def srcPreds (o : Op) (e : Ext) : List Nat :=
  e.gp.toNat :: (match o with
    | .sel | .vote => [e.op1.index]
    | .plop => [e.op1.index, e.op2.index, e.op3.index]
    | .pmov => (match e.op0 with
      | .k _ => []
      | _ => [e.op1.index])
    | _ => [])

/-- The instruction's destination is an S register (R19). -/
def sDest (o : Op) (e : Ext) : Bool :=
  (destPos o e).any fun k => match e.opnd k with
    | .slo _ => true
    | .shi _ => true
    | _ => false

/-! ### Writing registers -/

/-- A thread with a register written; a write to P7 is discarded (R20). -/
def Thread.put (t : Thread) (r : Reg) (x : Word) : Thread :=
  match r with
  | .v i => { t with v := t.v.set i x, marks := t.marks.filter fun m => m.1 != i }
  | .p i => if 7 ≤ i then t else { t with p := if x = 0 then t.p &&& ~~~(1#8 <<< i) else t.p ||| (1#8 <<< i) }
  | .s _ => t

/-- The group with a register written for the thread of a key. -/
def Group.put (g : Group) (k : Key) (r : Reg) (x : Word) : Group :=
  match r with
  | .s i => { g with s := g.s.set i x, marksS := g.marksS.filter fun m => m.1 != i }
  | _ => g.modify k fun t => t.put r x

/-- The group with a register written and marked (R25). -/
def Group.putMarked (g : Group) (k : Key) (r : Reg) (x : Word) (m : Option MarkKind) : Group :=
  let g := g.put k r x
  match m, r with
  | some c, .v i => g.modify k fun t => { t with marks := (i, c) :: t.marks }
  | some c, .s i => { g with marksS := (i, c) :: g.marksS }
  | _, _ => g

/-- A list of register writes for the thread of a key, in order. -/
def Group.putAll (g : Group) (k : Key) (ws : List (Reg × Word)) : Group :=
  ws.foldl (fun g w => g.put k w.1 w.2) g

/-! ### Random words -/

/-- GTID of a thread: GIDX × GSIZE + TIDX (R26); a helper has its recruiter's. -/
def Group.gtid (g : Group) (t : Thread) : Nat := g.gidx * g.launch.threads + t.key.t

/-- The key g and the count c of a draw that j draws of the same instruction come before (R44); a participant without a
current iteration draws as under iteration 0 (log 102). -/
def Group.drawKey (g : Group) (t : Thread) (j : Nat) : BitVec 64 × BitVec 64 :=
  let inGlean (d : Word) (p : GPart) : BitVec 64 × BitVec 64 :=
    (BitVec.ofNat 64 (g.gtid t) ^^^ (1#64 <<< 63),
      BitVec.ofNat 64 (d.toNat * 2 ^ 40 + p.cur.getD 0 * 2 ^ 20 + (p.draws + j) % 2 ^ 20))
  match t.part, t.solo with
  | some p, _ => inGlean (((g.glean p.glean).map Glean.d).getD 0) p
  | none, some (gl, p) => inGlean gl.d p
  | none, none => (BitVec.ofNat 64 (g.gtid t), BitVec.ofNat 64 ((t.draws.toNat + j) % 2 ^ 32))

/-- The 64-bit word of the draw that j draws of the same instruction come before (R44). -/
def Group.draw (g : Group) (t : Thread) (j : Nat) : BitVec 64 :=
  let (a, c) := g.drawKey t j
  draw64 g.launch.seed a c

/-- `Rand16(t)` (R44). -/
def Group.rand16 (g : Group) (t : Thread) (j : Nat) : Nat := ((g.draw t j).extractLsb' 48 16).toNat

/-- A thread that has drawn n words (R29, R44). -/
def Thread.drew (t : Thread) (n : Nat) : Thread :=
  match t.part, t.solo with
  | some p, _ => { t with part := some { p with draws := p.draws + n } }
  | none, some (gl, p) => { t with solo := some (gl, { p with draws := p.draws + n }) }
  | none, none => { t with draws := t.draws + BitVec.ofNat 32 n }

/-- The rounding mode of an RM code; SR takes the random word of element j (R40, R43). -/
def Group.mode (g : Group) (t : Thread) (rm j : Nat) : Mode :=
  if rm = 5 then .sr (g.rand16 t j) else Mode.ofCode rm

/-! ### Sets and special registers -/

/-- COUNT, LIST, XCHG, CORES and VALID of a set entry (R154). -/
def setCount (x : BitVec 64) : Nat := (x.extractLsb' 48 16).toNat
/-- LIST of a set entry (R154). -/
def setList (x : BitVec 64) : Nat := (x.extractLsb' 16 32).toNat
/-- XCHG of a set entry (R154). -/
def setXchg (x : BitVec 64) : Bool := x.getLsbD 3
/-- CORES of a set entry (R154). -/
def setCores (x : BitVec 64) : Bool := x.getLsbD 2
/-- VALID of a set entry (R154). -/
def setValid (x : BitVec 64) : Bool := x.getLsbD 0

/-- The set entry of membership m of a group: its grid set index, with its entry (R153). -/
def Group.membership (g : Group) (m : Nat) : Option (Nat × BitVec 64) :=
  (g.sets[m]?).map fun x => (x.1, g.launch.sets.getD x.1 0)

/-- The group's set with XCHG, if any (R205): set index, entry and the group's member index. -/
def Group.xchgSet (g : Group) : Option (Nat × BitVec 64 × Nat) :=
  (g.sets.find? fun x => setXchg (g.launch.sets.getD x.1 0)).map fun x => (x.1, g.launch.sets.getD x.1 0, x.2)

/-- CLID of a package cluster number (R28, R9). -/
def clid (cl : Nat) : Nat := cl / 80 * 2 ^ 18 + cl % 80 / 8 * 2 ^ 14 + cl % 8 * 2 ^ 11 + cl

/-- A special register of a thread of a group, as a number (R26 to R28). -/
def State.sreg (s : State) (g : Group) (t : Thread) (i : Nat) : Nat :=
  let l := g.launch
  match i with
  | 0x00 => t.key.t
  | 0x01 => t.key.t / 32
  | 0x02 => t.key.t % 32
  | 0x03 => g.gidx
  | 0x04 => l.gx * l.gy * l.gz
  | 0x05 => l.threads
  | 0x06 => leNat (g.sets.map fun x => BitVec.ofNat 8 x.1)
  | 0x07 => (g.sets.zipIdx.map fun (x, n) =>
      2 ^ n + (if setCores (l.sets.getD x.1 0) then 2 ^ (n + 4) else 0)).sum
  | 0x08 => clid g.cl
  | 0x09 => g.vf % 16 * 16 + g.vf / 16
  | 0x0A => g.gtid t
  | 0x0B => (s.clock - (s.cluster g.cl).released) % 2 ^ 64
  | 0x0C => t.draws.toNat
  | 0x0D => g.handler.toNat
  | 0x0E => t.key.gl
  | 0x0F => l.gx
  | 0x10 => l.gy
  | 0x11 => l.gz
  | _ => 0

end Sys2Proof.Machine
end

