-- ==== Sys2Proof/Machine/Flags.lean ====
section
/-! DEFINITION. Completion flags and the scoreboard (R22 to R25), comparisons and predicate results (R88, R95, R99). -/

namespace Sys2Proof.Machine

/-- The count of a flag rises for an issue (R22). -/
def Thread.raise (t : Thread) (f : Nat) : Thread := { t with flags := modAt t.flags f (· + 1) }
/-- The count of a flag falls at a completion (R22). -/
def Thread.lower (t : Thread) (f : Nat) : Thread := { t with flags := modAt t.flags f (· - 1) }
/-- Every flag of a wait mask is clear (R22, R64). -/
def Thread.waitClear (t : Thread) (mask : BitVec 12) : Bool :=
  (List.range 12).all fun f => !mask.getLsbD f || t.flags.getD f 0 = 0

/-- An outstanding result is addressed to a register as the thread of a key names it. -/
def Out.covers (o : Out) (k : Key) (r : Reg) : Bool :=
  (match r with
    | .s _ => true
    | _ => o.key = k) && o.regs.any fun x => x.1 = r

/-- A register is pending in the scoreboard (R24); below a glean's boundary a helper names its recruiter's. -/
def Group.pending (g : Group) (t : Thread) (r : Reg) : Bool :=
  let k := match r with
    | .v i => (g.vHome t i).key
    | _ => t.key
  g.outs.any fun o => o.flag.isNone && o.covers k r

/-- A register has any write outstanding, flagged or scoreboarded, so that another write waits (R23, R24). -/
def Group.writePending (g : Group) (t : Thread) (r : Reg) : Bool := g.outs.any fun o => o.covers t.key r

/-- The number of pending V registers of a thread (R24). -/
def Group.pendingV (g : Group) (k : Key) : Nat :=
  ((g.outs.filter fun o => o.flag.isNone && o.key = k).flatMap fun o => o.regs.filter fun x =>
    match x.1 with
    | .v _ => true
    | _ => false).length

/-- The number of pending S registers of a group (R24). -/
def Group.pendingS (g : Group) : Nat :=
  ((g.outs.filter fun o => o.flag.isNone).flatMap fun o => o.regs.filter fun x =>
    match x.1 with
    | .s _ => true
    | _ => false).length

/-- The deferred mark of a register as a thread names it (R25). -/
def Group.markOf (g : Group) (t : Thread) : Reg → Option MarkKind
  | .v i => (g.vHome t i).marks.lookup i
  | .s i => g.marksS.lookup i
  | .p _ => none

/-- The fault class of a mark (R368). -/
def MarkKind.cls : MarkKind → Nat
  | .stale => 7
  | .ecc => 16
  | .hurt => 16

/-- A comparison of integers by a condition code (R88). -/
def condInt (c : Nat) (a b : Int) : Bool :=
  match c with
  | 0 => a = b
  | 1 => a ≠ b
  | 2 => a < b
  | 3 => a ≤ b
  | 4 => b < a
  | _ => b ≤ a

/-- The table of PLOP at i = 4 a + 2 b + c (R95). -/
def truthTable (lut : Nat) (a b c : Bool) : Bool :=
  bitAt lut ((if a then 4 else 0) + (if b then 2 else 0) + (if c then 1 else 0))

/-- FCMP by its condition code and U bit (R99). -/
def condFloat (c : Nat) (u : Bool) (x y : FVal) : Bool :=
  if x.isNan || y.isNan then u
  else
    match c with
    | 6 => !u
    | _ =>
      match x.cmp y with
      | .lt => condInt c 0 1
      | .eq => condInt c 0 0
      | .gt => condInt c 1 0

end Sys2Proof.Machine
end

