-- ==== Sys2Proof/Machine/Alloc.lean ====
section
/-! DEFINITION. What an instruction may name in a launch (R17, R21, R69): registers below the V count, slots with valid
descriptors (R35), bound streams (R224), valid copy templates (R214, R215), allocated tiles, slots and barriers, valid
memberships and exchanging sets (R205, R212, R222). -/

namespace Sys2Proof.Machine

/-- A field of a copy template (R214). -/
def tf (x : BitVec 512) (lo n : Nat) : Nat := (x.extractLsb' lo n).toNat

/-- The size in bits of an element of a type code; a slot format counts its container (R36, R61, R216). -/
def elemBits (ty : Nat) (slot : Word) : Nat :=
  if ty = 0 ∨ ty = 4 then 8
  else if ty = 1 ∨ ty = 5 ∨ ty = 10 ∨ ty = 11 then 16
  else if ty = 3 ∨ ty = 7 ∨ ty = 8 then 64
  else if ty = 14 then (Slot.ofWord slot).container
  else if ty = 15 then 128
  else 32

/-- A stream table entry (R224): KIND, SPACE, PROD, BASE, counts, strides. -/
def sf (x : BitVec 256) (lo n : Nat) : Nat := (x.extractLsb' lo n).toNat

/-- KIND of a stream: 1 affine, 2 ring (R224). -/
def streamKind (x : BitVec 256) : Nat := sf x 0 2

/-- A stream table entry is bound: it keeps every rule of the map (R224). -/
def streamBound (x : BitVec 256) (argc scratch : Nat) : Bool :=
  let base := sf x 32 32
  sf x 4 28 = 0 && (match streamKind x with
    | 1 => sf x 3 1 = 0 && (List.range 4).all (fun k => sf x (64 + 16 * k) 16 != 0)
        && (sf x 2 1 = 1 || (base % 2 = 0 && base + 1 < argc))
    | 2 =>
      let tile := sf x 64 16
      let nt := sf x 80 16
      sf x 2 1 = 1 && 1 ≤ nt && nt ≤ 64 && tile % 128 = 0 && 128 ≤ tile && tile ≤ 65408 && sf x 96 32 = 0
        && sf x 128 128 = 0 && base % 128 = 0 && base + nt * tile ≤ scratch
    | _ => false)

/-- The lowest and the highest byte offset that a template's strides from a first stride field reach, for rows of a number of
bytes: the highest past the last byte (R214, R216). -/
def tmplSpan (x : BitVec 512) (lo row : Nat) : Int × Int :=
  let span (k : Nat) : Int := (sext 32 (tf x (lo + 32 * k) 32)) * ((tf x (160 + 32 * k) 32 : Int) - 1)
  let ks := (List.range 3).map span
  ((ks.map fun y => min 0 y).sum, (ks.map fun y => max 0 y).sum + row)

/-- The destination extent of a template in bytes (R214, R216). -/
def tmplExtent (x : BitVec 512) (ks : List Word) : Nat :=
  let r := tmplSpan x 352 (tf x 128 32 * elemBits (tf x 18 4) (ks.getD (tf x 22 3) 0) / 8)
  (r.2 - r.1).toNat

/-- The element type of a standard conversion is a scalar floating-point format (R105, R215). -/
def isScalarFloat (ty : Nat) : Bool := 8 ≤ ty && ty ≤ 11

/-- A template is defined (R214). -/
def tmplDefined (x : BitVec 512) : Bool := tf x 63 1 = 1

/-- A defined template is valid for a launch (R215). -/
def tmplValid (x : BitVec 512) (ks : List Word) (streams : List (BitVec 256)) (argc scratch : Nat) : Bool :=
  let conv := tf x 12 2
  let sfmt := tf x 14 4
  let dfmt := tf x 18 4
  let kw := ks.getD (tf x 22 3) 0
  let k := Slot.ofWord kw
  let rm := tf x 25 3
  let starg := tf x 29 7
  let dtarg := tf x 36 7
  let dsp := tf x 10 2
  let ring : Bool := tf x 60 1 = 1
  let q := streams.getD (tf x 56 4) 0
  let argOk (a : Nat) : Bool := a = 127 || (a < 64 && a < argc)
  let cnt (i : Nat) := tf x (128 + 32 * i) 32
  let sized : Bool := dfmt != 14 || Slot.valid kw
  tf x 448 64 = 0 && tf x 64 64 = 0 && tf x 48 8 = 0 && tf x 0 8 = 0
    && conv != 3 && dsp ≤ 1 && tf x 8 2 != 3 && rm != 5 && rm != 6
    && (List.range 4).all (fun i => cnt i != 0) && cnt 0 * cnt 1 * cnt 2 * cnt 3 ≤ 2 ^ 32
    && (conv != 0 || sfmt = dfmt)
    && (conv != 1 || (isScalarFloat sfmt && isScalarFloat dfmt && rm != 7))
    && (conv != 2 || (sfmt = 9 && dfmt = 14 && Slot.valid kw && k.scale = 1 && starg != 127
        && !(rm = 7 && k.rmode = 5)))
    && (conv = 2 || starg = 127) && (conv = 2 || dfmt != 14 || rm = 0)
    && argOk dtarg && argOk starg
    && (tf x 46 2 = 0 || dsp = 1) && (!sized || cnt 0 * elemBits dfmt kw % 8 = 0)
    && (ring || tf x 56 4 = 0)
    && (!ring || (streamKind q = 2 && streamBound q argc scratch && sf q 3 1 = 0 && dsp = 1
        && (!sized || tmplExtent x ks ≤ sf q 64 16)))
    && (tf x 61 1 = 0 || dsp = 1)

/-- A slot with a valid descriptor (R21, R35). -/
def slotOk (ks : List Word) (n : Nat) : Bool := Slot.valid (ks.getD n 0)

/-- SCALE of a slot (R34). -/
def slotScale (ks : List Word) (n : Nat) : Nat := (Slot.ofWord (ks.getD n 0)).scale

/-- Every V register that the instruction names lies below the V count, ranges included (R17), and a range of S registers
below S512 (R19, R69; log 18). -/
def vregsOk (ks : List Word) (nv : Nat) (o : Op) (e : Ext) : Bool :=
  [0, 1, 2, 3].all fun k =>
    (litAt o e k).isSome || (match e.opnd k with
      | .v i => regSpan ks o e k = 0 || i.toNat + regSpan ks o e k ≤ nv
      | .shi i => i.toNat + regSpan ks o e k ≤ 256
      | _ => true)

/-- Every tile, slot and barrier named by a specifier is allocated, and every stream bound (R21). -/
def namesOk (l : Launch) (o : Op) (e : Ext) : Bool :=
  ((o.positions e).zipIdx).all fun (p, k) =>
    match p with
    | .named .tile => (e.opnd k).index < l.ntiles
    | .named .weight => (e.opnd k).index < l.nslots
    | .named .barrier => (e.opnd k).index < l.nbars
    | .named .stream => streamBound (l.streams.getD (e.opnd k).index 0) l.argc l.scratch
    | _ => true

/-- A copy's elements have a size: a template whose format is a slot names the slot, bound or not (R35, R36; log 87). -/
def tmplSized (x : BitVec 512) (ks : List Word) : Bool := tf x 18 4 != 14 || Slot.valid (ks.getD (tf x 22 3) 0)

/-- The template that a CPY or CPYM names is defined and valid and serves it (R35, R215, R222). -/
def copyOk (g : Group) (e : Ext) (mcast : Bool) : Bool :=
  let l := g.launch
  match l.templates[e.imm.toNat % 64]? with
  | none => false
  | some x => tmplDefined x && tmplSized x l.ks && tmplValid x l.ks l.streams l.argc l.scratch && (tf x 61 1 = 1) == mcast
      && (e.sc.toNat % 2 = 0 || e.copyBarrier < l.nbars) && (tf x 60 1 = 0 || mcast || e.op2 == .k 0)

/-- The slots, templates, sets and barriers that the operation's own entry asks for. -/
def entryOk (g : Group) (o : Op) (e : Ext) : Bool :=
  let l := g.launch
  let ks := l.ks
  let n := e.sc.toNat
  let kind (k : Nat) := streamKind (l.streams.getD (e.opnd k).index 0)
  match o with
  | .qnt => slotOk ks n && slotScale ks n = (match e.src with
      | 0 => 0
      | 2 => 2
      | _ => 1)
  | .dqn => slotOk ks n && slotScale ks n = e.src
  | .pack | .unpk => slotOk ks n
  | .qblk => slotOk ks n && slotScale ks n = 2 && e.lo.toNat + 1 ≤ e.lanes ks
  | .qscl => slotOk ks n && slotScale ks n = 1
  | .wbld => e.ty != 14 || (slotOk ks n && slotScale ks n != 2)
  | .mma => (e.ty != 14 || (slotOk ks n && slotScale ks n != 2 && slotOk ks (e.lo.toNat % 8)
        && slotScale ks (e.lo.toNat % 8) != 2))
      && (e.imm.toNat / 128 % 2 = 0 || e.imm.toNat / 256 % 128 < l.nbars)
  | .azero => e.ty != 14 || (slotOk ks n && slotScale ks n != 2 && slotOk ks (e.lo.toNat % 8)
        && slotScale ks (e.lo.toNat % 8) != 2)
  | .adrain => (e.ty != 14 || (slotOk ks n && slotScale ks n != 2))
      && (e.lo.toNat % 2 = 0 || e.imm.toNat / 1024 % 128 < l.nbars)
  | .barSet => (g.membership e.op1.index).isSome
  | .barSwap | .stx => g.xchgSet.isSome
  | .cpy => copyOk g e false
  | .cpym => copyOk g e true && (g.membership (e.imm.toNat / 64 % 4)).isSome
  | .qpop => kind 1 = 2
  | .qpush => kind 1 = 2 && sf (l.streams.getD (e.opnd 1).index 0) 3 1 = 1
  | .glean => e.window ≤ l.nv
  | _ => true

/-- Nothing that the instruction names lies outside the launch (R17, R21, R69); what fails is ILLEGAL_OPCODE. -/
def allocOk (g : Group) (o : Op) (e : Ext) : Bool :=
  vregsOk g.launch.ks g.launch.nv o e && namesOk g.launch o e && entryOk g o e

end Sys2Proof.Machine
end

