-- ==== Sys2Proof/Machine/Link.lean ====
section
/-! DEFINITION. What leaves this chip on Folak: origin stamps (R339), ports and routes (R379), frames (R380, R382,
R383), requests on imports (R381, R387). -/

namespace Sys2Proof.Machine

/-- The origin stamp at this moment (R339). -/
def State.stamp (s : State) : Nat := s.ns % 2 ^ 48

/-- The initiator node address of this chip: its fabric MAC address in bits [47:0] (R379, R381). -/
def ownNode : Nat := Config.fabricMac % 2 ^ 48

/-- The data flits of 64 bytes that follow a header flit, which has room for 28 bytes of data (R381; log 15). -/
def dataFlits (n : Nat) : Nat := if n ≤ 28 then 0 else (n + 63) / 64

/-- The 64-byte header flit with its data flits (R381); the layout of the last 32 bytes of a header is the model's (log 15). -/
def SentFlit.bytes (x : SentFlit) : List Byte :=
  let more := dataFlits x.data.length
  let here := if more = 0 then x.data else []
  natBytes 1 x.kind ++ natBytes 1 more ++ natBytes 2 (x.path % 8) ++ natBytes 6 x.stamp ++ natBytes 6 x.tag
    ++ natBytes 8 (x.off % 2 ^ 36 + x.gen % 256 * 2 ^ 48 + x.win % 256 * 2 ^ 56) ++ natBytes 8 x.init
    ++ natBytes 2 x.op ++ natBytes 2 x.width ++ here ++ List.replicate (28 - here.length) 0
    ++ if more = 0 then [] else x.data ++ List.replicate (64 * more - x.data.length) 0

/-- The flits of 64 bytes of a frame (R380). -/
def SentFrame.count (x : SentFrame) : Nat := (x.flits.map fun y => 1 + dataFlits y.data.length).sum

/-- The secured payload of a frame (R380). -/
def SentFrame.payload (x : SentFrame) : List Byte :=
  natBytes 2 Config.etherType ++ natBytes 2 (x.lseq % 4096 + 4096 * (x.count - 1)) ++ natBytes 2 (x.lack % 4096)
    ++ natBytes 6 x.stamp ++ natBytes 4 0 ++ x.flits.flatMap SentFlit.bytes

/-- The SCI of a frame that a port sends under an owner (R383). -/
def sciOf (port owner : Nat) : Nat := Config.portMac port % 2 ^ 48 * 2 ^ 16 + 0x100 + owner

/-- The secure channel of an owner is live on a port in both directions: a SAK is installed, and fewer than 2^62 packet numbers
are spent under it (R384). -/
def Port.live (p : Port) (owner : Nat) : Bool := p.saks.any fun x => x.1 = owner && p.pn + 1 < x.2.2 + 2 ^ 62

/-- The port is up and its secure channel of the owner lives (R382, R384). -/
def Port.carries (p : Port) (owner : Nat) : Bool := p.up && p.live owner

/-- The first port of a node's route whose link is up, where it carries an owner's traffic (R379, R384). -/
def Fabric.portFor (f : Fabric) (owner node : Nat) : Option Nat :=
  (((f.routes.lookup node).getD []).find? fun p => (f.ports.getD p Port.reset).up).filter fun p =>
    (f.ports.getD p Port.reset).carries owner

/-- A node has a route: some port of its list is up (R379, R382). -/
def Fabric.hasRoute (f : Fabric) (node : Nat) : Bool :=
  ((f.routes.lookup node).getD []).any fun p => (f.ports.getD p Port.reset).up

/-- A port with a new frame for its peer (R380, R382, R383). -/
def Port.sendFrame (clock owner : Nat) (flits : List SentFlit) (p : Port) : Port :=
  let fr : SentFrame := { lseq := p.lseq, lack := p.lack, stamp := (flits.head?.map SentFlit.stamp).getD 0, owner := owner
                          flits := flits, sends := 1, last := clock, pn := p.pn + 1 }
  { p with lseq := (p.lseq + 1) % 4096, pn := p.pn + 1, unacked := p.unacked ++ [fr] }

/-- A flit leaves on the first port of its route, or waits for one (R379, R382). -/
def State.transmit (s : State) (owner : Nat) (x : SentFlit) : State :=
  let f := s.fab
  let f := match f.portFor owner x.node with
    | some p => { f with ports := modAt f.ports p (Port.sendFrame s.clock owner [x]) }
    | none =>
      { f with
        waiting := f.waiting ++ [(owner, x)]
        lostSince := if f.hasRoute x.node || f.lostSince.any (fun y => y.1 = x.node) then f.lostSince
                     else (x.node, s.clock) :: f.lostSince }
  { s with fab := f }

/-- The import of a physical address. -/
def State.importOf (s : State) (pa : Nat) : Import := s.fab.imports.getD (field pa 36 8) Import.reset

/-- The physical address lies in an import (R387). -/
def inImport (pa : Nat) : Bool := pa / 2 ^ 44 = 0xFF

/-- Whom a request's answer serves: a group's thread with the number of its outstanding result, or a copy or matrix
command; the path class as FENCE names it, whether the request is an acquire (R182, R189), its origin stamp where that lies
before its sending (R339), and the arena handle of a fill (R284). -/
structure Asker where
  group : Nat := 0
  key : Key := { t := 0, gl := 0 }
  out : Nat := 0
  copy : Nat := 0
  cls : Nat := 0
  acq : Bool := false
  stamp : Option Nat := none
  arena : Nat := 0
  deriving DecidableEq, Repr

/-- A request on another chip (R381): kind, path (2 V, 1 C, 4 X, 0 M), physical address, operation code, width and data, and
whom its answer serves. -/
def State.ask (s : State) (vf kind path pa op width : Nat) (data : List Byte) (a : Asker) : State :=
  let j := field pa 36 8
  let imp := s.importOf pa
  let tag := s.uids + 1
  let x : SentFlit :=
    { kind := kind, node := imp.node, path := path, stamp := a.stamp.getD s.stamp, tag := tag, win := imp.win, gen := imp.gen
      off := pa % 2 ^ 36, init := ownNode, op := op, width := width, data := data }
  let r : Req := { tag := tag, vf := vf, owner := (s.vf vf).owner, imp := j, node := imp.node, group := a.group, out := a.out, copy := a.copy, pa := pa, core := none
                   key := a.key, cls := a.cls, acq := a.acq, arena := a.arena }
  let s := { s with uids := tag, fab := { s.fab with reqs := s.fab.reqs ++ [r] } }
  s.transmit (s.vf vf).owner x

/-- A response to a request (R381): kind 5 data, 6 acknowledgement, 7 REVOKED, 8 ERROR. In the operation field, 1 says
that the access met an old arena generation, and 2 that its arena is sealed (log 15). -/
def State.respond (s : State) (f : Flit) (kind op : Nat) (data : List Byte) : State :=
  s.transmit f.owner
    { kind := kind, node := f.node, path := f.path, stamp := s.stamp, tag := f.tag, win := f.win, gen := f.gen, off := f.off
      init := ownNode, op := op, width := f.width, data := data }

/-- The request of a delivered flit, if it is one. -/
def flitRequest : InFlit → Option Flit
  | .read f | .write f | .atomic f | .reduction f => some f
  | _ => none

/-- The bytes of data that a delivered flit carries. -/
def flitSize : InFlit → Nat
  | .read f | .write f | .atomic f | .reduction f | .data f | .ack f | .revoked f | .error f => f.data.length
  | _ => 0

/-- A delivered flit under the owner of its frame, to which it belongs (R383, R385). -/
def flitUnder (owner : Nat) : InFlit → InFlit
  | .read f => .read { f with owner := owner }
  | .write f => .write { f with owner := owner }
  | .atomic f => .atomic { f with owner := owner }
  | .reduction f => .reduction { f with owner := owner }
  | .data f => .data { f with owner := owner }
  | .ack f => .ack { f with owner := owner }
  | .revoked f => .revoked { f with owner := owner }
  | .error f => .error { f with owner := owner }
  | .revoke _ node win => .revoke owner node win
  | .drain _ node win => .drain owner node win
  | .gang kind vf m => .gang kind vf { m with owner := owner }

/-- A delivered flit may act: it waits for what refused it, or is the first of its port that has not been to its place (R382). -/
def mayAct (ds : List Delivery) (x : InFlit) : Bool :=
  ds.zipIdx.any fun d => d.1.flit = x
    && (d.1.waits || (ds.take d.2).all fun e => e.waits || e.port != d.1.port)

/-- The first delivery of a flit leaves a list. -/
def dropFirst : List Delivery → InFlit → List Delivery
  | [], _ => []
  | d :: ds, x => if d.flit = x then ds else d :: dropFirst ds x

/-- The first delivery of a flit waits from now on. -/
def holdFirst : List Delivery → InFlit → List Delivery
  | [], _ => []
  | d :: ds, x => if d.flit = x then { d with waits := true } :: ds else d :: holdFirst ds x

/-- A delivered flit acts once, in the order of its port (R382): none that no accepted frame has brought does anything. What it
does says whether it is done, or refused for now and waits (R186, R367). -/
def State.arrived (s : State) (x : InFlit) (f : State → State × Bool) : State :=
  if mayAct s.fab.inbox x then
    let r := f { s with fab := { s.fab with inbox := dropFirst s.fab.inbox x } }
    if r.2 then r.1 else { r.1 with fab := { r.1.fab with inbox := holdFirst s.fab.inbox x } }
  else s

end Sys2Proof.Machine
end

