-- ==== Sys2Proof/Machine/Hier.lean ====
section
/-! DEFINITION. The caches by tag: the home of a line (R171 to R173, R177), slices with their replicas (R167, R168), cluster
caches (R159 to R162), the reduction directory (R170), group-held lines (R186); errors in them (R374 to R377). The bytes
stand in one memory, in which every access performs at once (log 3). -/

namespace Sys2Proof.Machine

/-! ### Memory -/

/-- The bytes of an interleave group's physical range (R174). -/
def ileaveBytes (x : Ileave) : Nat := x.quarters.length * Config.quarterBytes

/-- A physical address lies in the range of an interleave group (R174). -/
def ileaveHolds (x : Ileave) (pa : Nat) : Bool := x.base ≤ pa && pa < x.base + ileaveBytes x

/-- The quarter stacks of an interleave group in their order: consecutive ones in different stacks where the group allows
(R174). -/
def ileaveOrder (x : Ileave) : List Nat :=
  sortBy (fun q => q % 4 * 3 + q / 4 % 3) x.quarters

/-- The quarter stack and the channel in it that hold a physical address of an interleave group: granules rotate over the
quarter stacks, and in each over its eight channels (R174). -/
def ileavePlace (x : Ileave) (pa : Nat) : Nat × Nat :=
  let j := (pa - x.base) / x.granule.getD 128
  let g := x.quarters.length
  ((ileaveOrder x).getD (j % g) 0, j / g % 8)

/-- The interleave groups of a partition in the applied record (R174). -/
def State.ileaves (s : State) (part : Nat) : List Ileave :=
  match s.chip.applied.bind fun r => r.parts.find? fun p => p.part = part with
  | some p => p.ileaves
  | none => []

/-- The quarter stack and the channel that hold a physical address of a partition (R174). -/
def State.memoryOf (s : State) (part pa : Nat) : Option (Nat × Nat) :=
  ((s.ileaves part).find? fun x => ileaveHolds x pa).map fun x => ileavePlace x pa

/-- The n frames from an address on may be given to a VF: in the memory of its partition and in no other VF's mapping,
or in an import of its own (R14, R174, R387, R390). -/
def State.mayMap (s : State) (vf pa n : Nat) : Bool :=
  let takes (m : PMap) (f : Nat) : Bool := m.pa ≤ f && f < m.pa + 2 ^ (m.shift - 12)
  let taken (f : Nat) : Bool := s.vfs.zipIdx.any fun x => x.2 != vf && x.1.pmap.any fun m => takes m f
  (List.range n).all fun i =>
    let a := pa + 4096 * i
    if inImport a then (s.importOf a).used && (s.importOf a).vf = vf
    else (s.memoryOf (vf / 16) a).isSome && !taken (a / 4096)

/-! ### Homes -/

/-- The slices of a set, ascending; set 14 is the partition's elastic share (R172). -/
def sliceSet (share : List Nat) (sset : Nat) : List Nat :=
  let die (d : Nat) : List Nat := (List.range 48).map fun s => 48 * d + s
  match sset with
  | 0 => List.range Config.slices
  | 1 => die 0
  | 2 => die 1
  | 3 => die 2
  | 4 => die 3
  | 5 => die 0 ++ die 1
  | 6 => die 2 ++ die 3
  | 7 => die 0 ++ die 2
  | 8 => die 1 ++ die 3
  | 9 => (die 0).take 16
  | 10 => (die 1).take 16
  | 11 => (die 2).take 16
  | 12 => (die 3).take 16
  | 13 => (List.range 4).flatMap fun d => (die d).take 12
  | 14 => share
  | _ => []

/-- The hash of a physical address (R173). -/
def hashOf (pa : Nat) : Nat :=
  let x := pa / 128 % 2 ^ 41
  (x % 2 ^ 14) ^^^ (x / 2 ^ 14 % 2 ^ 14) ^^^ (x / 2 ^ 28 % 2 ^ 13)

/-- BASE, LIMIT, SSET, STRIDE and VALID of a range table entry (R171). -/
def rangeBase (x : BitVec 128) : Nat := (x.extractLsb' 0 45).toNat
/-- LIMIT (R171). -/
def rangeLimit (x : BitVec 128) : Nat := (x.extractLsb' 45 45).toNat
/-- SSET (R171). -/
def rangeSset (x : BitVec 128) : Nat := (x.extractLsb' 90 4).toNat
/-- STRIDE (R171). -/
def rangeStride (x : BitVec 128) : Nat := (x.extractLsb' 94 4).toNat
/-- VALID (R171). -/
def rangeValid (x : BitVec 128) : Bool := x.getLsbD 98

/-- A table that Furze installs (R171): it refuses one in which a valid entry has STRIDE 14 or 15, SSET 15, or LIMIT not above
BASE. -/
def rangesOk (t : List (BitVec 128)) : Bool :=
  t.all fun x => !rangeValid x || (rangeStride x ≤ 13 && rangeSset x ≤ 14 && rangeBase x < rangeLimit x)

/-- The table as installed: 64 entries, what is written to reserved bits ignored (R5, R171). -/
def rangeTable (t : List (BitVec 128)) : List (BitVec 128) :=
  (List.range 64).map fun i => ((t.getD i 0).extractLsb' 0 99).setWidth 128

/-- The range table entry that an address takes its home from (R171). -/
def rangeOf (t : List (BitVec 128)) (pa : Nat) : Option (BitVec 128) :=
  t.find? fun x => rangeValid x && rangeBase x ≤ pa / 128 && pa / 128 < rangeLimit x

/-- The elastic share of a partition as it stands (R172, R392). -/
def State.share (s : State) (part : Nat) : List Nat := s.chip.shares.getD part (List.range Config.slices)

/-- A slice holds 16 ERRORED lines: until Furze takes it out of its share, new homes avoid it (R376). -/
def State.worn (s : State) (slice : Nat) : Bool :=
  16 ≤ (s.hier.slices.filter fun x => x.slice = slice && s.ms.errored.contains x.line).length

/-- The i-th slice of a set as the home of an address, or, where that one is worn and does not hold the line, the next that is
not (R376; log 82). -/
def State.homeIn (s : State) (set : List Nat) (i pa : Nat) : Nat :=
  let x := set.getD i 0
  if !s.worn x || s.hier.slices.any fun y => y.slice = x && y.line = pa / 128 then x
  else ((set.drop (i + 1) ++ set.take i).find? fun y => !s.worn y).getD x

/-- `HomeOf(pa)` for a partition: the package slice number of the address's home (R171, R173, R177, R376). -/
def State.homeOf (s : State) (part pa : Nat) : Nat :=
  let share := s.share part
  match rangeOf s.chip.ranges pa with
  | some x =>
    let set := sliceSet share (rangeSset x)
    s.homeIn set ((pa - rangeBase x * 128) / (128 * 2 ^ rangeStride x) % set.length) pa
  | none => s.homeIn share (hashOf pa % share.length) pa

/-! ### Slices -/

/-- A line of a slice is a replica. -/
def SLine.isReplica (x : SLine) : Bool := x.kind = .replica

/-- The lines of a slice in the set of a line; a slice has 2,048 sets (R167; log 82). -/
def Hier.sliceSetOf (h : Hier) (slice line : Nat) : List SLine :=
  h.slices.filter fun x => x.slice = slice && x.line % 2048 = line % 2048

/-- The element of a list that a free choice names (log 82). -/
def pick {α : Type} (n : Nat) (xs : List α) : Option α := xs[Config.victim n % xs.length]?

/-- The element of the lowest retention class that a free choice names (R136; log 82). -/
def pickLow {α : Type} (n : Nat) (rank : α → Nat) (xs : List α) : Option α :=
  pick n (xs.filter fun x => xs.all fun y => rank x ≤ rank y)

/-- A slice line leaves its slice: a DIRTY one is written to memory, which then holds it whole, and what it noted of the time
before is forgotten (R167, R395). -/
def State.spillLine (s : State) (vf : Nat) (x : SLine) : State :=
  let s := { s with hier := { s.hier with slices := s.hier.slices.filter fun y => y != x } }
  if x.kind = .dirty then
    { s with ms := { s.ms with
      dirty := s.ms.dirty.filter fun d => d.line != x.line
      spoilt := s.ms.spoilt.filter fun l => l != x.line } }.countShared vf 0x105 1
  else s

/-- The line that leaves a full set of a slice for another, if one must: of sixteen ways any without an ERRORED line, and of
four ways with replicas one of them for a further replica, of the lowest retention class (R136, R167, R168, R376). -/
def State.slicePrey (s : State) (slice line : Nat) (replica : Bool) : Option SLine :=
  let set := s.hier.sliceSetOf slice line
  let reps := set.filter SLine.isReplica
  if replica && 4 ≤ reps.length then pickLow s.hier.next SLine.rank reps
  else if 16 ≤ set.length then pickLow s.hier.next SLine.rank (set.filter fun x => !s.ms.errored.contains x.line)
  else none

/-- A line comes into a slice (R167, R168): another leaves where its set is full, counted against the VF whose request
caused it (R329); it is read from memory or, as a replica, from its home. -/
def State.fillSlice (s : State) (vf slice line arena : Nat) (kind : SliceKind) : State :=
  let s := match s.slicePrey slice line (kind = .replica) with
    | some x => (s.spillLine vf x).countShared vf 0x102 1
    | none => s
  { s with hier := { s.hier with
      slices := { slice := slice, kind := kind, line := line, vf := vf, arena := arena, rank := 1 } :: s.hier.slices
      next := s.hier.next + 1 } }

/-- A write performs at the home of a line that memory alone holds, with an uncorrectable error there: the line stands in its
slice, DIRTY, with the error in what the write has not covered, ERRORED (R175, R375, R376). -/
def State.soil (s : State) (line : Nat) : State :=
  if s.ms.spoilt.contains line then
    { s with ms := { s.ms with
      spoilt := s.ms.spoilt.filter fun l => l != line
      errored := if s.ms.errored.contains line then s.ms.errored else line :: s.ms.errored } }
  else s

/-- AN ACCESS AT THE HOME SLICE (R167): a line that is absent is read from memory, unless memory holds it with an error (R175);
a write leaves it DIRTY, with the tag of the writing arena. -/
def State.atHome (s : State) (vf arena pa : Nat) (write : Bool) : State :=
  let line := pa / 128
  let home := s.homeOf (vf / 16) pa
  let mine (x : SLine) : Bool := x.slice = home && x.line = line && x.kind != .replica
  if s.hier.slices.any mine then
    if write then
      let up (x : SLine) : SLine := if mine x then { x with kind := .dirty, vf := vf, arena := arena } else x
      { s with hier := { s.hier with slices := s.hier.slices.map up } }
    else s
  else
    let s := (s.countShared vf 0x101 1).countShared vf 0x104 1
    if write then (s.soil line).fillSlice vf home line arena .dirty
    else if s.ms.spoilt.contains line then s
    else s.fillSlice vf home line arena .clean

/-- The replica slice of a line for the clusters of a die (R168). -/
def replicaSlice (cl pa : Nat) : Nat := 48 * dieOf cl + hashOf pa % 48

/-- The replica slice of a cluster's die holds a line, or is its home (R168). -/
def State.replicaHit (s : State) (cl vf pa : Nat) : Bool :=
  replicaSlice cl pa = s.homeOf (vf / 16) pa
    || s.hier.slices.any fun x => x.slice = replicaSlice cl pa && x.line = pa / 128 && x.isReplica

/-- A read of a SEALED arena's line from a cluster: the replica slice of its die serves it, or takes it from its home as a
replica, unless it is the home itself (R168). -/
def State.atReplica (s : State) (cl vf arena pa : Nat) : State :=
  if replicaSlice cl pa = s.homeOf (vf / 16) pa then s.atHome vf arena pa false
  else if s.replicaHit cl vf pa then s
  else ((s.countShared vf 0x101 1).atHome vf arena pa false).fillSlice vf (replicaSlice cl pa) (pa / 128) arena .replica

/-- The seal of a handle's arena has passed its seal point, from which on its lines have replicas (R168, R295, R296). -/
def VF.sealPassed (v : VF) (handle : Nat) : Bool :=
  v.sealedAt handle && !v.changes.any fun c => !c.drop && c.idxs.contains (handle % 4096)

/-! ### Reads and writes at the home -/

/-- The global line that a cluster cache holds, in any state but INVALID. -/
def Hier.lineAt (h : Hier) (cl line : Nat) : Option CLine := h.lines.find? fun c => c.cl = cl && c.line = line

/-- A line's CLEAN copies in other clusters go, as a store performs at the home (R159, R204). -/
def State.invalidate (s : State) (cl : Option Nat) (line : Nat) : State :=
  { s with hier := { s.hier with lines := s.hier.lines.filter fun c => c.line != line || c.kind != .clean || some c.cl = cl } }

/-- A WRITE AT THE HOME of a line (R159, R160, R167, R284): its slice line is DIRTY, under the arena of the write, a CLEAN copy
of the writing cluster takes it in place under that tag, every other copy goes, and the watchers at the home resume (R204). -/
def State.writeHome (s : State) (cl : Option Nat) (vf arena line : Nat) : State :=
  let tag (c : CLine) : CLine :=
    if c.line = line && c.kind = .clean && some c.cl = cl then { c with vf := vf, arena := arena } else c
  let s := (s.atHome vf arena (line * 128) true).invalidate cl line
  { s with hier := { s.hier with lines := s.hier.lines.map tag } }.wakeLine line

/-- A WRITE of a global line by a cluster, or by a party outside every cluster (R160): into the line that the cluster
holds for a group, or else through to the home. -/
def State.writeLine (s : State) (cl : Option Nat) (vf arena line : Nat) : State :=
  if (cl.bind fun c => s.hier.lineAt c line).any fun c => c.kind = .held then s.wakeLine line
  else s.writeHome cl vf arena line

/-- The partials that a recall combines are writes under their own arenas, and each is counted (R167, R284, R395). -/
def State.notePartials (s : State) (line : Nat) (ps : List Partial) : State :=
  ps.foldl (fun s p => { s with ms := s.ms.noteDirty p.vf p.arena line }.countShared p.vf 0x103 1) s

/-- THE RECALL OF A LINE'S PARTIALS (R170, R188): each is combined at the home, which is a write there. -/
def State.recall (s : State) (line : Nat) : State :=
  let ps := s.ms.recallable line
  match ps.getLast? with
  | none => s
  | some p =>
    let s := s.notePartials line ps
    { s with ms := s.ms.combine line, hier := s.hier.recalled line }.writeHome none p.vf p.arena line

/-- A read at the home: partials of the line are combined first (R188). -/
def State.load (s : State) (pa n : Nat) : State × List Byte :=
  let s := s.recall (pa / 128)
  (s, Memory.readN s.ms.mem pa n)

/-- A STORE of a cluster, or of a party outside every cluster (R160, R167, R188, R204): partials are combined, the line notes its
old contents, the bytes are written, where a line that they cover whole is mended (R175), and the line's waiters resume. A
store into an ERRORED line is refused and counted (R376). -/
def State.store (s : State) (cl : Option Nat) (vf arena pa : Nat) (bytes : List Byte) : State :=
  let line := pa / 128
  if s.ms.errored.contains line then s.note .store
  else
    let s := s.recall line
    let ms := s.ms.noteDirty vf arena line
    let spoilt := if bytes.length = 128 then ms.spoilt.filter fun l => l != line else ms.spoilt
    { s with ms := { ms with mem := Memory.writeN ms.mem pa bytes, spoilt := spoilt } }.writeLine cl vf arena line

/-! ### The device's own accesses -/

/-- The device reads n bytes in a VF (R263), partials combined; a byte without a mapping is free (log 9). -/
def State.devRead (s : State) (vf : Nat) : Nat → Nat → List Byte
  | _, 0 => []
  | va, n + 1 =>
    (match s.xlateNow vf va { r := true } with
      | .ok pa _ => Memory.read (s.memAt (pa / 128)) pa
      | _ => Config.freeByte va) :: s.devRead vf (va + 1) n

/-- A number of n bytes that the device reads in a VF. -/
def State.devNat (s : State) (vf va n : Nat) : Nat := leNat (s.devRead vf va n)

/-- The partials of the lines of n bytes that the device is about to read are combined at their home (R170, R188). -/
def State.devRecall (s : State) (vf va n : Nat) : State :=
  (List.range ((va % 128 + n + 127) / 128)).foldl (fun s i =>
    match s.xlateNow vf ((va / 128 + i) * 128) { r := true } with
    | .ok pa _ => s.recall (pa / 128)
    | _ => s) s

/-- One byte that the device writes at a place, for no group or, with its cluster, for a group: nothing through an old generation
(R292); into a line held for another it waits for the end of the pin (R186; log 81). -/
def State.putAs (s : State) (who : Option (Nat × Nat)) (vf arena pa : Nat) (b : Byte) : State :=
  if (s.vf vf).staleAt arena then s
  else if s.ms.refuses (who.map Prod.fst) (pa / 128) then
    { s with
      uids := s.uids + 1
      ms := { s.ms with late := s.ms.late ++ [{ id := s.uids + 1, vf := vf, arena := arena, pa := pa, byte := b }] } }
  else s.store (if s.ms.refuses none (pa / 128) then who.map Prod.snd else none) vf arena pa [b]

/-- One byte that the device writes at a place. -/
def State.devPut (s : State) (vf arena pa : Nat) (b : Byte) : State := s.putAs none vf arena pa b

/-- Bytes written in a VF for no group or for one; a byte without a mapping is dropped (log 9). -/
def State.writeAs (s : State) (who : Option (Nat × Nat)) (vf : Nat) : Nat → List Byte → State
  | _, [] => s
  | va, b :: bs =>
    State.writeAs (match s.xlateNow vf va { w := true } with
      | .ok pa arena => s.putAs who vf arena pa b
      | _ => s) who vf (va + 1) bs

/-- The device writes bytes in a VF. -/
def State.devWrite (s : State) (vf va : Nat) (bs : List Byte) : State := s.writeAs none vf va bs

/-- The first n bytes at an address in a VF can all be written. -/
def State.devWritable (s : State) (vf va n : Nat) : Bool :=
  (List.range n).all fun i => match s.xlateNow vf (va + i) { w := true } with
    | .ok _ _ => true
    | _ => false

/-! ### Lines of other chips -/

/-- A group has a line pinned on a cluster (R186). -/
def State.pinned (s : State) (cl group line : Nat) : Bool :=
  s.ms.pins.any fun p => p.cl = cl && p.group = group && p.line = line

/-- The line of another chip that a cluster holds for a group (R186). -/
def State.farHeld (s : State) (cl group line : Nat) : Option FarLine :=
  if s.pinned cl group line then s.ms.far.find? fun x => x.cl = cl && x.group = group && x.line = line else none

/-- The fill of a line of another chip that has come for an access of a sheaf of a group (R185). -/
def State.farFill (s : State) (cl group line : Nat) (k : Key) : Option FarLine :=
  s.ms.far.find? fun x => x.cl = cl && x.group = group && x.line = line && x.key = k

/-- The state with the bytes of a line of another chip changed. -/
def State.setFar (s : State) (x : FarLine) (data : List Byte) : State :=
  { s with ms := { s.ms with far := s.ms.far.map fun y => if y = x then { x with data := data } else y } }

/-- Bytes with others put in from an offset on. -/
def putBytes (data : List Byte) (off : Nat) (bytes : List Byte) : List Byte :=
  data.take off ++ bytes ++ data.drop (off + bytes.length)

/-- A line of another chip is written home, one write for each location that has changed, and leaves the cluster (R180, R186). -/
def State.flushFar (s : State) (a : Asker) (x : FarLine) : State :=
  let s := { s with ms := { s.ms with far := s.ms.far.filter fun y => y != x } }
  (List.range (x.data.length / 8)).foldl (fun s i =>
    let new := (x.data.drop (8 * i)).take 8
    if new = (x.old.drop (8 * i)).take 8 then s
    else s.ask x.vf 2 2 (x.line * 128 + 8 * i) 0 8 new a) s

/-- A fill of a cluster is void: a write to its line has been sent from the cluster since the fill was asked for (R180, R185).
One that has not come yet serves nobody when it comes. -/
def State.voidFills (s : State) (cl line : Nat) : State :=
  let here (r : Req) : Bool := r.cls = 64 && r.pa / 128 = line && s.groups.any fun g => g.uid = r.group && g.cl = cl
  { s with
    ms := { s.ms with far := s.ms.far.filter fun x => x.cl != cl || x.line != line || s.pinned cl x.group line }
    fab := { s.fab with reqs := s.fab.reqs.map fun r => if here r then { r with cls := 0, out := 0 } else r } }

/-! ### The ends of pins -/

/-- Who asks for the writes of a group-held line of another chip: its group, in a class of its own that every thread of the
group waits for (R182 case 9, R213). -/
def FarLine.asker (x : FarLine) : Asker := { group := x.group, cls := 128 }

/-- The line of a pin that has ended is written home (R186): a line of another chip by its changed locations, a line of this
chip at its home slice, under the pin's tag (R159, R167, R284). -/
def State.writeBack (s : State) (p : Pin) : State :=
  match s.ms.far.find? fun x => x.cl = p.cl && x.group = p.group && x.line = p.line with
  | some x => (s.flushFar x.asker x).voidFills p.cl p.line
  | none => if inImport (p.line * 128) then s else s.writeHome (some p.cl) p.vf p.arena p.line

/-- PINS END (R186): each line is written home, becomes CLEAN, and what the device had to write into it performs. -/
def State.endPins (s : State) (ends : Pin → Bool) : State :=
  let over_ := s.ms.pins.filter ends
  let freed (line : Nat) : Bool := over_.any fun p => p.line = line
  let late := s.ms.late.filter fun x => freed (x.pa / 128)
  let clean (c : CLine) : CLine := if c.kind = .held && freed c.line then { c with kind := .clean } else c
  let s := { s with
    ms := { s.ms with pins := s.ms.pins.filter (fun p => !ends p), late := s.ms.late.filter fun x => !freed (x.pa / 128) }
    hier := { s.hier with lines := (s.hier.lines.map clean).filter fun c => !(freed c.line && inImport (c.line * 128)) } }
  let s := over_.foldl State.writeBack s
  late.foldl (fun s x => if (s.vf x.vf).staleAt x.arena then s else s.store none x.vf x.arena x.pa [x.byte]) s

/-- What a group has filled of other chips' lines goes with it (R185). -/
def State.dropFills (s : State) (group : Nat) : State :=
  { s with ms := { s.ms with far := s.ms.far.filter fun x => x.group != group || s.pinned x.cl group x.line } }

/-- Every pin of a group ends (R186). -/
def State.unpin (s : State) (group : Nat) : State := s.endPins fun p => p.group = group

/-! ### Cluster caches -/

/-- The set of a cluster cache that a global line falls into (log 82). -/
def cacheSet (line : Nat) : Nat := line % 256

/-- The ways of a set of a cluster cache that hold SCRATCH lines (R159, R162). -/
def State.scratchWays (s : State) (cl set : Nat) : List Nat :=
  s.groups.flatMap fun g => if g.cl != cl then [] else
    g.ways.zipIdx.filterMap fun (w, i) => if (g.s0 + i) % 256 = set then some w else none

/-- The lines with global data in a set of a cluster cache. -/
def Hier.cacheSetOf (h : Hier) (cl set : Nat) : List CLine := h.lines.filter fun c => c.cl = cl && cacheSet c.line = set

/-- Threads of a cluster that watch a line by a monitor at cluster scope or narrower resume (R204). -/
def Thread.wakeNarrow (clock line : Nat) (t : Thread) : Thread :=
  match t.place with
  | .held (.waita _ pa _ _ false true _) site _ _ =>
    if pa / 128 = line then { t with place := .bin clock, pc := site.next } else t
  | _ => t

/-- The narrow watchers of a cluster on a line resume, as the cluster's copy of it goes (R204). -/
def State.wakeNarrow (s : State) (cl line : Nat) : State :=
  { s with groups := s.groups.map fun g =>
      if g.cl = cl then { g with threads := g.threads.map (Thread.wakeNarrow s.clock line) } else g }

/-- A line may leave its cluster cache now: a GROUP-HELD line only under R161, a line of partials only where their recall
is not waiting for a pin (R160, R188). -/
def State.mayLeave (s : State) (c : CLine) : Bool :=
  match c.kind with
  | .clean => true
  | .held => false
  | .update => !s.ms.refuses none c.line

/-- A LINE LEAVES ITS CLUSTER CACHE (R159 to R161, R188, R204): partials are combined at their home, a group-held line is
written home and its pin ends, and narrow watchers resume. -/
def State.evictLine (s : State) (c : CLine) : State :=
  let s := match c.kind with
    | .clean => s
    | .held => s.endPins fun p => p.cl = c.cl && p.line = c.line
    | .update => s.recall c.line
  { s with hier := { s.hier with lines := s.hier.lines.filter fun x => x.cl != c.cl || x.line != c.line } }.wakeNarrow c.cl c.line

/-- The lowest way of a set that nothing occupies, if one is free. -/
def State.freeWay (s : State) (cl set : Nat) : Option Nat :=
  let used := s.scratchWays cl set ++ (s.hier.cacheSetOf cl set).map CLine.way
  (List.range 16).find? fun w => !used.contains w

/-- The line that leaves a full set of a cluster cache for another: of those that may leave, one of the lowest retention class
(R136, R161; log 82). -/
def State.cachePrey (s : State) (cl set : Nat) : Option CLine :=
  pickLow s.hier.next CLine.rank ((s.hier.cacheSetOf cl set).filter s.mayLeave)

/-- A line finds a way of its set in a cluster cache now: it stands there, a way is free, or a line may leave; where every other
way holds partials whose recall waits for a pin, it finds one as soon as that pin ends (R161, R186, R188). -/
def State.mayFill (s : State) (cl line : Nat) : Bool :=
  (s.hier.lineAt cl line).isSome || (s.freeWay cl (cacheSet line)).isSome
    || (s.hier.cacheSetOf cl (cacheSet line)).any s.mayLeave

/-- A line comes into a cluster cache in a state (R159): into a free way of its set, or into the way of a line that may
leave. -/
def State.fillLine (s : State) (cl vf arena line : Nat) (kind : LineKind) : State :=
  let set := cacheSet line
  let s := match s.freeWay cl set with
    | some _ => s
    | none => match s.cachePrey cl set with
      | some c => s.evictLine c
      | none => s
  match s.freeWay cl set with
  | none => s
  | some way =>
    let new : CLine := { cl := cl, way := way, kind := kind, line := line, vf := vf, arena := arena, came := s.hier.next, rank := 1 }
    { s with hier := { s.hier with lines := s.hier.lines ++ [new], next := s.hier.next + 1 } }

/-- A READ of a global line through a cluster's cache (R159, R160, R168): served by a CLEAN or GROUP-HELD line; else, or
where it has to perform at the home, from there or from a replica, and then the line is held CLEAN. -/
def State.readLine (s : State) (cl vf arena pa : Nat) (home : Bool) : State :=
  let fetch (s : State) : State :=
    if (s.vf vf).sealPassed arena then s.atReplica cl vf arena pa else s.atHome vf arena pa false
  match s.hier.lineAt cl (pa / 128) with
  | some c => if c.kind = .held || (c.kind = .clean && !home) then s else fetch s
  | none => (fetch (s.count cl 6 1)).fillLine cl vf arena (pa / 128) .clean

/-- A load, store or prefetch places its line in its cluster cache and in its home slice at the retention class of its hint: 1
the highest, 2 the lowest; without one the class stays (R136). -/
def State.retain (s : State) (cl vf pa hint : Nat) : State :=
  if hint = 1 || hint = 2 then
    let rank := if hint = 1 then 2 else 0
    let home := s.homeOf (vf / 16) pa
    let inCache (c : CLine) : CLine := if c.cl = cl && c.line = pa / 128 then { c with rank := rank } else c
    let inSlice (x : SLine) : SLine := if x.slice = home && x.line = pa / 128 then { x with rank := rank } else x
    { s with hier := { s.hier with lines := s.hier.lines.map inCache, slices := s.hier.slices.map inSlice } }
  else s

/-- A read of a global line by an engine, of a cluster or of none: from the line that its cluster holds for a group, or at the
home; or, for a SEALED arena, at its replica, which a miss fills, as it does the cluster cache (R160, R168). -/
def State.engineLine (s : State) (cl : Option Nat) (vf arena pa : Nat) : State :=
  match cl with
  | none => s.atHome vf arena pa false
  | some c =>
    if (s.hier.lineAt c (pa / 128)).any fun x => x.kind = .held then s
    else if (s.vf vf).sealPassed arena then
      let hit := s.replicaHit c vf pa
      let s := s.atReplica c vf arena pa
      if hit || (s.hier.lineAt c (pa / 128)).isSome then s else s.fillLine c vf arena (pa / 128) .clean
    else s.atHome vf arena pa false

/-- The GROUP-HELD line of a set that was pinned first; of pins taken in one clock, the one taken first stands last in the list
(R161). -/
def State.oldestHeld (s : State) (cl set : Nat) : Option Pin :=
  (s.ms.pins.filter fun p => p.cl = cl && cacheSet p.line = set).foldl (fun a p => match a with
    | some b => if p.taken ≤ b.taken then some p else a
    | none => some p) none

/-- The ways of a set that hold SCRATCH or GROUP-HELD lines. -/
def State.keptWays (s : State) (cl set : Nat) : Nat :=
  (s.scratchWays cl set).length + ((s.hier.cacheSetOf cl set).filter fun c => c.kind = .held).length

/-- The oldest pins of a set end until a number of its ways holds neither SCRATCH nor GROUP-HELD lines (R161). -/
def State.easeSet : Nat → State → Nat → Nat → Nat → State
  | 0, s, _, _, _ => s
  | fuel + 1, s, cl, set, room =>
    if s.keptWays cl set + room ≤ 16 then s
    else match s.oldestHeld cl set with
      | some p => State.easeSet fuel (s.endPins fun q => q.cl = p.cl && q.line = p.line) cl set room
      | none => s

/-- A pin of a line finds a way now (R161, R186). -/
def State.mayPin (s : State) (cl line : Nat) : Bool := s.mayFill cl line || 16 < s.keptWays cl (cacheSet line) + 3

/-- A PIN IS TAKEN (R161, R186), unless the group holds it already, or an access that was refused on the line has still to
be served: the line is filled where it is absent, and two ways of its set stay free of kept lines. -/
def State.pinLine (s : State) (cl group line vf arena : Nat) : State :=
  if s.ms.pins.any (fun p => p.line = line) || s.owes line then s
  else
    let s := State.easeSet 16 s cl (cacheSet line) 3
    let s := s.readLine cl vf arena (line * 128) false
    if (s.hier.lineAt cl line).isNone then s
    else
      let hold (c : CLine) : CLine :=
        if c.cl = cl && c.line = line then { c with kind := .held, vf := vf, arena := arena } else c
      { s with
        ms := { s.ms with pins := { cl := cl, group := group, line := line, vf := vf, arena := arena, taken := s.clock } :: s.ms.pins }
        hier := { s.hier with lines := s.hier.lines.map hold } }

/-- A pin is taken on a line of another chip that has come for its access: it is held for the group, and every other fill of it
is void (R185, R186). -/
def State.pinFar (s : State) (x : FarLine) (arena : Nat) : State :=
  let s := (State.easeSet 16 s x.cl (cacheSet x.line) 3).fillLine x.cl x.vf arena x.line .held
  if (s.hier.lineAt x.cl x.line).isNone then s
  else
    let far := s.ms.far.filter fun y => y.cl != x.cl || y.line != x.line || y = x
    { s with ms := { s.ms with
      far := far
      pins := { cl := x.cl, group := x.group, line := x.line, vf := x.vf, arena := arena, taken := s.clock } :: s.ms.pins } }

/-! ### Scratchpad lines -/

/-- The lowest way from 0 to 11 of a set that holds no scratchpad line, those listed counted (R162). -/
def State.scratchWay (s : State) (cl set : Nat) (mine : List (Nat × Nat)) : Nat :=
  let used := s.scratchWays cl set ++ (mine.filter fun x => x.1 = set).map Prod.snd
  ((List.range 12).find? fun w => !used.contains w).getD 0

/-- n scratchpad lines from a start set on find their ways now: where one holds partials, their recall waits for no pin (R161,
R186, R188). -/
def State.waysFree (s : State) (cl s0 n : Nat) : Bool :=
  let r := (List.range n).foldl (fun (x : Bool × List (Nat × Nat)) i =>
    let set := (s0 + i) % 256
    let w := s.scratchWay cl set x.2
    let stuck (c : CLine) : Bool := c.cl = cl && cacheSet c.line = set && c.way = w && c.kind = .update && !s.mayLeave c
    (x.1 && !s.hier.lines.any stuck, x.2 ++ [(set, w)])) (true, [])
  r.1

/-- One scratchpad line takes the lowest way from 0 to 11 of its set that holds none: what stood there leaves, and two ways
stay free of kept lines (R161, R162). -/
def State.takeWay (s : State) (cl set : Nat) (mine : List (Nat × Nat)) : State × Nat :=
  let w := s.scratchWay cl set mine
  let s := match s.hier.lines.find? fun c => c.cl = cl && cacheSet c.line = set && c.way = w with
    | some c => s.evictLine c
    | none => s
  (State.easeSet 16 s cl set (3 + (mine.filter fun x => x.1 = set).length), w)

/-- The ways of n scratchpad lines of a group that is placed from a start set on (R162). -/
def State.takeWays (s : State) (cl s0 n : Nat) : State × List Nat :=
  let r := (List.range n).foldl (fun (x : State × List (Nat × Nat)) i =>
    let set := (s0 + i) % 256
    let (s, w) := x.1.takeWay cl set x.2
    (s, x.2 ++ [(set, w)])) (s, [])
  (r.1, r.2.map Prod.snd)

/-! ### The reduction directory -/

/-- The entries of a slice's directory, oldest first (R170). -/
def Hier.dirOf (h : Hier) (slice : Nat) : List DirEntry := h.dir.filter fun e => e.slice = slice

/-- The line whose partials must be recalled before a cluster may hold a partial of a line: the line itself for a ninth
holder, the oldest entry's for a full directory (R170). -/
def State.recallFirst (s : State) (part cl line : Nat) : Option Nat :=
  let d := s.hier.dirOf (s.homeOf part (line * 128))
  match d.find? fun e => e.line = line with
  | some e => if 8 ≤ e.holders.length && !e.holders.contains cl then some line else none
  | none => if 8192 ≤ d.length then d.head?.map DirEntry.line else none

/-- The directory lists a cluster as a holder of partials of a line, which its cache holds UPDATE-ONLY (R159, R170). -/
def State.listHolder (s : State) (vf arena cl line : Nat) : State :=
  let slice := s.homeOf (vf / 16) (line * 128)
  let dir := s.hier.dir
  let dir := if dir.any fun e => e.line = line then
      dir.map fun e => if e.line = line && !e.holders.contains cl then { e with holders := e.holders ++ [cl] } else e
    else dir ++ [{ slice := slice, line := line, holders := [cl] }]
  let s := { s with hier := { s.hier with dir := dir } }
  match s.hier.lineAt cl line with
  | some _ =>
    let up (c : CLine) : CLine :=
      if c.cl = cl && c.line = line && c.kind = .clean then { c with kind := .update, vf := vf, arena := arena } else c
    { s with hier := { s.hier with lines := s.hier.lines.map up } }
  | none => s.fillLine cl vf arena line .update

/-- The partials of the issuing cluster for a line can be taken now: no recall that has to come first waits for a pin, and the
line finds a way. -/
def State.mayStage (s : State) (part cl line : Nat) : Bool :=
  s.mayFill cl line && match s.recallFirst part cl line with
    | some l => !s.ms.refuses none l
    | none => true

/-! ### Dropping tags -/

/-- Every tag of some arenas goes: cluster and slice lines, replicas included, the words held for fetch, lines of other chips and
what the device has still to write (R285, R292, R293). -/
def State.dropTags (s : State) (gone : Nat → Nat → Bool) : State :=
  { s with
    hier := { s.hier with
      lines := s.hier.lines.filter fun c => !gone c.vf c.arena
      slices := s.hier.slices.filter fun x => !gone x.vf x.arena }
    icache := s.icache.filter fun x => !gone x.vf x.arena
    ms := { s.ms with late := s.ms.late.filter fun x => !gone x.vf x.arena } }

/-! ### Errors -/

/-- A correctable error, or a refetched or detected one, is counted by structure and die, and logged (R374, R376); a
cluster counts the corrections and refetches of its structures (R175, R395). -/
def State.noteError (s : State) (at_ : Guarded) (die loc : Nat) (hard : Bool) (cl : Option Nat) : State :=
  let same (x : Guarded × Nat × Nat) : Bool := x.1 = at_ && x.2.1 = die
  let soft := if s.chip.soft.any same then s.chip.soft.map fun x => if same x then (x.1, x.2.1, x.2.2 + 1) else x
    else s.chip.soft ++ [(at_, die, 1)]
  let s := { s with chip := { s.chip with
    soft := soft
    log := s.chip.log ++ [{ at_ := at_, die := die, loc := loc, hard := hard }] } }
  match cl with
  | some c => if hard then s else s.count c 10 1
  | none => s

end Sys2Proof.Machine
end

