-- ==== Sys2Proof/Machine/Tcb.lean ====
section
/-! DEFINITION. Task control blocks in a VF's memory (R263, R264), notices (R277), the dependence count (R269, R270),
and the aborting of a task with its successors (R267). -/

namespace Sys2Proof.Machine

/-- A task index names a task of the VF (R263). -/
def VF.validTask (v : VF) (i : Nat) : Bool := 0 < i && i < v.poolN

/-- The address of a TCB (R263). -/
def VF.tcb (v : VF) (i : Nat) : Nat := v.poolBase + 256 * i

/-- A field of a TCB (R264). -/
def State.tcbNat (s : State) (vf i off n : Nat) : Nat := s.devNat vf ((s.vf vf).tcb i + off) n

/-- The device's write of a TCB field (R263). -/
def State.tcbPut (s : State) (vf i off n x : Nat) : State := s.devWrite vf ((s.vf vf).tcb i + off) (natBytes n x)

/-- The place of a task by VF and index among the submitted ones. -/
def State.taskAt (s : State) (vf i : Nat) : Option Nat := s.tasks.findIdx? fun t => t.vf = vf && t.idx = i

/-- The task with an identity. -/
def State.taskOf (s : State) (uid : Nat) : Option Task := s.tasks.find? fun t => t.uid = uid

/-- The state with the task of an identity changed. -/
def State.setTask (s : State) (uid : Nat) (f : Task → Task) : State :=
  { s with tasks := s.tasks.map fun t => if t.uid = uid then f t else t }

/-- A notice posted to a target of a VF (R277): value, kind, byte 9, bytes 10 and 11, bytes 12 to 15. -/
def State.post (s : State) (vf tgt value kind b9 h10 w12 : Nat) : State :=
  match (s.vf vf).targets.find? fun t => t.tgt = tgt with
  | none => s.note .notice
  | some t =>
    let prod := s.devNat vf t.ring 8
    let cons := s.devNat vf (t.ring + 8) 8
    if 2 ^ t.logn ≤ prod - cons then (s.devWrite vf (t.ring + 16) (natBytes 8 1)).note .notice
    else
      let entry := natBytes 8 value ++ natBytes 1 kind ++ natBytes 1 b9 ++ natBytes 2 h10 ++ natBytes 4 w12
      let s := s.devWrite vf (t.ring + 64 + 16 * (prod % 2 ^ t.logn)) entry
      let s := s.devWrite vf t.ring (natBytes 8 (prod + 1))
      let s := s.setVf vf fun v => { v with targets := v.targets.map fun x => if x.tgt = tgt then { x with pend := true } else x }
      { s with msgs := s.msgs ++ [.notice vf t.hart tgt] }

/-- The addresses of the successor entries of a TCB (R264, R269). -/
def succAddrs (v : VF) (i : Nat) : List Nat := (List.range 14).map fun k => v.tcb i + 64 + 8 * k

/-- The successor entries of a task and of its continuations, by address (R269); `fuel` bounds the chain. -/
def State.succList (s : State) (vf : Nat) : Nat → Nat → List Nat
  | 0, _ => []
  | fuel + 1, i =>
    let next := s.tcbNat vf i 36 4 % 2 ^ 24
    succAddrs (s.vf vf) i ++ (if (s.vf vf).validTask next then s.succList vf fuel next else [])

/-- The successor entries of a task that name a task: N and index (R269). -/
def State.successors (s : State) (vf i : Nat) : List (Nat × Nat) :=
  ((s.succList vf (s.vf vf).poolN i).map fun a => (s.devNat vf (a + 4) 4, s.devNat vf a 4 % 2 ^ 24)).filter fun e => e.2 != 0

/-- A task becomes READY (R266): STATE, RTIME, and the clocks that aging counts from (R271). -/
def State.makeReady (s : State) (vf i : Nat) : State :=
  let s := s.tcbPut vf i 30 1 2
  let s := s.tcbPut vf i 216 8 s.ns
  match s.taskAt vf i with
  | some k => { s with tasks := modAt s.tasks k fun t => { t with readyAt := s.ns, agedAt := s.clock } }
  | none => s

/-- One decrement of PRED, with R266 at 0; one below 0 is discarded and counted (R269). -/
def State.decPred (s : State) (vf i : Nat) : State :=
  let p := s.tcbNat vf i 32 4
  if p = 0 then s.note .decrement
  else
    let s := s.tcbPut vf i 32 4 (p - 1)
    if p = 1 ∧ s.tcbNat vf i 30 1 = 1 ∧ ¬ bitAt (s.tcbNat vf i 31 1) 0 then s.makeReady vf i else s

/-- A group whose threads have all stopped without a save (R267): its commands go on, also where it was halting or closed,
and it issues nothing more; an STX to a member that now never starts has no place to perform (log 122). -/
def Group.kill (g : Group) : Group :=
  { g with
    threads := g.threads.map fun t => { t with place := .exited, part := none, solo := none }
    sheaves := [], outs := [], insts := [], gleans := [], arvs := [], fences := [], stx := [], stop := .running }

/-- A lent slot of a group is vacant again when the list names it (R251). -/
def Thread.giveBack (slots : List (Nat × Nat × Nat)) (guid : Nat) (t : Thread) : Thread :=
  if slots.any (fun x => x.2.1 = guid && x.2.2 = t.key.t) && t.key.gl = 0 && t.place = .lent
  then { t with place := .exited } else t

/-- The lent slots of a list return to their groups (R251). -/
def State.giveBack (s : State) (slots : List (Nat × Nat × Nat)) : State :=
  { s with groups := s.groups.map fun g => { g with threads := g.threads.map (Thread.giveBack slots g.uid) } }

/-- The groups of a task are stopped and discarded (R267). -/
def State.killGroups (s : State) (uid : Nat) : State :=
  let lent := (s.groups.filter fun g => g.task = uid).flatMap fun g => g.gleans.flatMap Glean.lent
  let s := s.giveBack lent
  { s with groups := s.groups.map fun g => if g.task = uid then g.kill else g }

/-- A task leaves its queue and the list of submitted tasks (R268). -/
def State.dropTask (s : State) (vf i : Nat) : State :=
  match s.tasks.find? fun t => t.vf = vf && t.idx = i with
  | none => s
  | some t =>
    let s := s.setVf vf fun v => { v with live := modAt v.live t.queue (· - 1) }
    { s with tasks := s.tasks.filter fun x => x.uid != t.uid }

/-- The completion notice of a task, where its TCB asks for one (R275, R277). -/
def State.completionNotice (s : State) (vf i state err : Nat) : State :=
  if bitAt (s.tcbNat vf i 31 1) 1 then
    let note := s.tcbNat vf i 192 8
    s.post vf (note % 2 ^ 16) (note / 2 ^ 32) 2 state err i
  else s

/-- A task alone becomes ABORTED (R267, R275). -/
def State.abortOne (s : State) (vf i err : Nat) : State :=
  let s := match s.tasks.find? fun t => t.vf = vf && t.idx = i with
    | some t => s.killGroups t.uid
    | none => s
  let s := s.dropTask vf i
  let s := s.tcbPut vf i 29 1 0
  let s := s.tcbPut vf i 30 1 5
  let s := s.tcbPut vf i 210 2 err
  s.completionNotice vf i 5 err

/-- A list of tasks become ABORTED, each followed by its successors with ERR 9, transitively (R267). -/
def State.abortAll : Nat → State → Nat → List (Nat × Nat) → State
  | 0, s, _, _ => s
  | _, s, _, [] => s
  | fuel + 1, s, vf, (i, err) :: rest =>
    let st := s.tcbNat vf i 30 1
    if st = 4 ∨ st = 5 then s.abortAll fuel vf rest
    else
      let next := (s.successors vf i).filterMap fun e => if (s.vf vf).validTask e.2 then some (e.2, 9) else none
      (s.abortOne vf i err).abortAll fuel vf (rest ++ next)

/-- A task becomes ABORTED with ERR, and its successors with ERR 9 (R267). -/
def State.abort (s : State) (vf i err : Nat) : State :=
  s.abortAll (16 * (s.vf vf).poolN * 16) vf [(i, err)]

/-- A task that is refused at submission becomes ABORTED from FREE, RETIRED or ABORTED (R267). -/
def State.abortNew (s : State) (vf i err : Nat) : State :=
  let next := (s.successors vf i).filterMap fun e => if (s.vf vf).validTask e.2 then some (e.2, 9) else none
  (s.abortOne vf i err).abortAll (16 * (s.vf vf).poolN * 16) vf next

end Sys2Proof.Machine
end

