-- ==== Sys2Proof/Machine/Ops.lean ====
section
/-! DEFINITION. The operations that every meaning shares: who is present and active in a sheaf (R20, R143), time,
filing and the end of a clause (R66, R67, R147), taking an exception (R371, R372) and the charging of a helper's fault
(R256), and the issue of one instruction: its checks in their order, its stalls, its effect (R24, R25, R68 to R70). -/

namespace Sys2Proof.Machine

/-! ### Time -/

/-- The counters of a cluster after n clocks in which no slot issues (R395, R399). -/
def Cluster.tick (n : Nat) (c : Cluster) : Cluster :=
  if c.part.isSome then
    let k := c.cnt.add 1 n
    { c with cnt := if k.lctl then { k with idle := (k.idle + 128 * n) % 2 ^ 64 } else k }
  else c

/-- A sheaf of a group waits for the replay of a page, not for a walk that is under way (R144, R152, R366). -/
def Group.atReplay (walks : List Walk) (g : Group) (sh : Sheaf) : Bool :=
  match sh.hold with
  | .page _ page _ _ _ => walks.any fun w => dieOf w.cl = dieOf g.cl && w.vf = g.vf && w.page = page && w.token.isSome
  | _ => false

/-- A thread that takes part in a glean, so that it does not count in its row's collectives (R124). -/
def Thread.gleans (t : Thread) : Bool := t.part.isSome || t.solo.isSome

/-- The clock of a collective stands still: its group does not run, or a missing thread of its row, no participant of a
glean, is held at the replay of a page (R152). -/
def Group.instStopped (walks : List Walk) (g : Group) (i : Inst) : Bool :=
  g.stop != .running || g.sheaves.any fun sh => g.atReplay walks sh && sh.members.any fun k =>
    k.gl = 0 && k.t / 32 = i.row && (g.threads.any fun t => t.key = k && !t.gleans)

/-- A thread held at a full/empty access of a group that does not run, its count standing still (R203). -/
def Thread.heldLonger (n : Nat) (t : Thread) : Thread :=
  match t.place with
  | .held (.ldf a b c d) site since order => { t with place := .held (.ldf a b c d) site (since + n) order }
  | .held (.ste a b) site since order => { t with place := .held (.ste a b) site (since + n) order }
  | _ => t

/-- A group after n clocks: the collectives and full/empty waits whose clocks stand still begin later by as much. -/
def Group.tick (walks : List Walk) (n : Nat) (g : Group) : Group :=
  let late (i : Inst) : Inst := if g.instStopped walks i then { i with since := i.since + n } else i
  { g with
    insts := g.insts.map late
    threads := if g.stop = .running then g.threads else g.threads.map (Thread.heldLonger n) }

/-- A number kept between two bounds. -/
def clampInt (lo hi x : Int) : Int := max lo (min hi x)

/-- The TAI units of 2^-16 ns that n clocks of 2.4 GHz last at the least and at the most, at a rate slewed by at most 200 ppm
(R13, R332; log 2). -/
def taiLeast (n : Nat) : Nat := (327680 * 9998 * n + 119999) / 120000
/-- The most (R332). -/
def taiMost (n : Nat) : Nat := 327680 * 10002 * n / 120000

/-- The Lammas unit after n clocks: time runs on in every lock state, by what the clocks last and what is slewed of the pending
correction, at most 200 ppm together (R331, R332). -/
def Lammas.tick (l : Lammas) (n tai : Nat) : Lammas :=
  let bound (x : Int) : Int := clampInt (taiLeast n) (taiMost n) x
  let own := bound tai
  let all := bound (own + l.slew)
  { l with tai := (l.tai + all.toNat) % 2 ^ 80, slew := l.slew - (all - own) }

/-- Clocks pass, and TAI (R331, R332). -/
def State.tick (s : State) (clocks tai : Nat) : State :=
  { s with
    clock := s.clock + clocks
    lam := s.lam.tick clocks tai
    clusters := s.clusters.map (Cluster.tick clocks)
    groups := s.groups.map (Group.tick s.ms.walks clocks) }

/-- The free values of a step are spent (log 7). -/
def State.gap (s : State) : State := { s with nonce := s.nonce + 1 }

/-! ### Issue engines -/

/-- The engine classes of an issue slot (R149). -/
inductive Engine where
  | integer | fp | special | memory | matrix | copy | sync
  deriving DecidableEq, Repr

/-- The place of an engine in a slot's record. -/
def Engine.index (x : Engine) : Nat :=
  match x with
  | .integer => 0
  | .fp => 1
  | .special => 2
  | .memory => 3
  | .matrix => 4
  | .copy => 5
  | .sync => 6

/-- The engine that instructions of a major target (R149). -/
def engineOf (major : Nat) : Engine :=
  if major = 0x24 then .special
  else if (0x0F ≤ major ∧ major ≤ 0x16) ∨ major = 0x23 ∨ major = 0x25 then .fp
  else if (0x28 ≤ major ∧ major ≤ 0x2A) ∨ major = 0x30 then .memory
  else if major = 0x2D then .matrix
  else if major = 0x2C then .copy
  else if major = 0x26 ∨ major = 0x27 ∨ major = 0x2B ∨ major = 0x2E ∨ major = 0x2F ∨ major = 0x31 then .sync
  else .integer

/-- An issue slot of a cluster. -/
def State.slotAt (s : State) (cl slot : Nat) : IssueSlot := (s.cluster cl).slots.getD slot IssueSlot.reset

/-- The state with an issue slot changed. -/
def State.setSlot (s : State) (cl slot : Nat) (f : IssueSlot → IssueSlot) : State :=
  { s with clusters := modAt s.clusters cl fun c => { c with slots := modAt c.slots slot f } }

/-- The slot has issued in this clock (R148). -/
def State.issued (s : State) (cl slot : Nat) : Bool := (s.slotAt cl slot).last = some s.clock

/-- A slot issues an instruction of a major now; DIV occupies the integer engine for a number of clocks (R87, R148 to
R150). -/
def State.issues (s : State) (cl slot major busy : Nat) : State :=
  let e := engineOf major
  let took (x : SharedEngine) (mine : Bool) : SharedEngine := if mine then { last := some s.clock, slot := slot } else x
  let s := s.setSlot cl slot fun x =>
    { x with last := some s.clock, engines := x.engines.set e.index (some s.clock)
             busy := if busy = 0 then x.busy else s.clock + busy }
  { s with clusters := modAt s.clusters cl fun c =>
      { c with matrixIssue := took c.matrixIssue (e = .matrix), copyIssue := took c.copyIssue (e = .copy) } }

/-- A slot clock of a cluster event, counted once in a clock (R395: events 4 and 5). -/
def State.countSlot (s : State) (cl slot event : Nat) : State :=
  let x := s.slotAt cl slot
  if (if event = 4 then x.stalled else x.masked) = some s.clock then s
  else (s.setSlot cl slot fun x =>
    if event = 4 then { x with stalled := some s.clock } else { x with masked := some s.clock }).count cl event 1

/-! ### Sheaves -/

/-- The threads that an open region masks (R116). -/
def Region.masked (r : Region) : List Key := if r.stage = 1 then r.taking else r.cont

/-- A member is masked by an open region of its sheaf (R116). -/
def Sheaf.masks (sh : Sheaf) (k : Key) : Bool := sh.regions.any fun r => r.masked.contains k

/-- A thread of a group may issue: in a halted group only the participants of its active gleans, each under release until
it comes to rest (R257, R258, R318). -/
def Group.mayIssue (g : Group) (t : Thread) : Bool :=
  match g.stop with
  | .running => true
  | .halting _ _ | .held _ => (t.part.bind GPart.release).isSome
  | .closed => false

/-- A thread that stands in a drawn sheaf and may issue. -/
def Group.stands (g : Group) (t : Thread) : Bool := t.place = .sheaf && g.mayIssue t

/-- The halt deadline of a stop has come (R318, R401). -/
def Stop.overdue (clock : Nat) : Stop → Bool
  | .halting since _ => since + 480 ≤ clock
  | .held since => since + 480 ≤ clock
  | _ => false

/-- Insertion by the order of R251. -/
def insertKey (t : Thread) : List Thread → List Thread
  | [] => [t]
  | u :: us => if t.key.before u.key then t :: u :: us else u :: insertKey t us

/-- The threads of a list in the order of R251. -/
def sortKey : List Thread → List Thread
  | [] => []
  | t :: ts => insertKey t (sortKey ts)

/-- The members of a sheaf that have not left it, in the order of R251. -/
def Group.members (g : Group) (sh : Sheaf) : List Thread :=
  sortKey (g.threads.filter fun t => sh.members.contains t.key && g.stands t)

/-- `Present(t)` (R143). -/
def Group.presents (g : Group) (sh : Sheaf) : List Thread := (g.members sh).filter fun t => !sh.masks t.key

/-- `Guard(t)` for a thread (R143, R63). -/
def Ext.guards (e : Ext) (t : Thread) : Bool := t.pred e.gp.toNat != e.gn

/-- The present threads whose guard is true. -/
def Group.actives (g : Group) (sh : Sheaf) (e : Ext) : List Thread := (g.presents sh).filter (Ext.guards e)

/-- The state with one sheaf changed. -/
def State.setSheaf (s : State) (gi si : Nat) (f : Sheaf → Sheaf) : State :=
  s.setGroup gi fun g => { g with sheaves := modAt g.sheaves si f }

/-- A group without a thread in any of its sheaves, regions included. -/
def Sheaf.leave (k : Key) (sh : Sheaf) : Sheaf :=
  { sh with
    members := sh.members.filter fun x => x != k
    regions := sh.regions.map fun r =>
      { r with taking := r.taking.filter fun x => x != k, cont := r.cont.filter fun x => x != k } }

/-- The thread of a key leaves its sheaf for a place and a PC, which is the end of its handler entry (R371). -/
def Group.send (g : Group) (k : Key) (p : Place) (pc : Addr) : Group :=
  let g := g.modify k fun t => { t with place := p, pc := pc, entered := false }
  { g with sheaves := g.sheaves.map (Sheaf.leave k) }

/-- A thread is filed, eligible, into the bin of a PC (R144). -/
def Group.file (g : Group) (clock : Nat) (k : Key) (pc : Addr) : Group := g.send k (.bin clock) pc

/-- A sheaf whose active threads have all left moves its innermost region on: to the target for its taking threads,
then to RC with the region closed (R116). -/
def Sheaf.settle : Nat → Sheaf → Sheaf
  | 0, sh => sh
  | fuel + 1, sh =>
    if sh.members.any (fun k => !sh.masks k) then sh
    else
      match sh.regions with
      | [] => sh
      | r :: rs =>
        if r.stage = 1 then
          Sheaf.settle fuel { sh with regions := { r with stage := 2 } :: rs, pc := r.target, inClause := false, idx := 0 }
        else Sheaf.settle fuel { sh with regions := rs, pc := r.rc, inClause := false, idx := 0 }

/-- A sheaf at a clause start that is the RC of its innermost region moves that region on: to its target, or the region
closes; the place where it then stands may be the RC of a region again (R116). An outer region does not look at its RC while
an inner one is open (log 104). -/
def Sheaf.atRc : Nat → Sheaf → Sheaf
  | 0, sh => sh
  | fuel + 1, sh =>
    match sh.regions with
    | [] => sh
    | r :: rs =>
      if sh.inClause || sh.pc != r.rc then sh
      else if r.stage = 1 then Sheaf.atRc fuel { sh with regions := { r with stage := 2 } :: rs, pc := r.target }
      else Sheaf.atRc fuel { sh with regions := rs }

/-- Sheaves that no member is left in are gone, and the regions of the others settle (R116). -/
def Group.sweepSheaves (g : Group) : Group :=
  { g with sheaves := (g.sheaves.filter fun sh => !sh.members.isEmpty).map (Sheaf.settle 9) }

/-- Where a masked thread of a sheaf is filed when its regions close (R116). -/
def Sheaf.exitPc (sh : Sheaf) (k : Key) : Option Addr :=
  (sh.regions.find? fun r => r.masked.contains k).map fun r => if r.stage = 1 then r.target else r.rc

/-- Every open region of a sheaf closes, its masked threads filed (R116). -/
def Group.closeRegions (g : Group) (clock si : Nat) : Group :=
  match g.sheaves[si]? with
  | none => g
  | some sh =>
    let g := sh.members.foldl (fun g k =>
      match sh.exitPc k with
      | some pc => g.file clock k pc
      | none => g) g
    { g with sheaves := modAt g.sheaves si fun x => { x with regions := [] } }

/-- The clock at which a thread in a bin was filed. -/
def Thread.filed (t : Thread) : Option Nat :=
  match t.place with
  | .bin f => some f
  | _ => none

/-- A thread waits in a bin for the delay of YIELD (R118). -/
def Thread.yields (t : Thread) (pc : Addr) : Bool :=
  match t.place with
  | .held .delay _ _ _ => t.pc = pc
  | _ => false

/-- No sheaf is drawn from the bin, since the delay of a YIELD runs (R118). -/
def Group.delayed (g : Group) (pc : Addr) : Bool := g.threads.any fun t => t.yields pc

/-- A bin of the group at a PC qualifies to be drawn (R145), no delay of a YIELD holding it (R118): full, aged by a filing
16 clocks ago, or complete. A thread counts from its filing time on, and where its group is halted only under release
(R318). -/
def Group.qualifies (g : Group) (clock : Nat) (pc : Addr) : Bool :=
  let fs := (g.threads.filter fun t => t.pc = pc && g.mayIssue t).filterMap fun t => t.filed.bind fun f => if f ≤ clock then some f else none
  let alive := g.threads.filter fun t => t.place != .exited && t.place != .lent
  !g.delayed pc && !fs.isEmpty && (32 ≤ fs.length || fs.length = alive.length
    || fs.any fun f => f + 16 ≤ clock || g.aged.any fun x => x.1 = pc && f ≤ x.2)

/-- The PCs of the eligible threads of a group that may issue. -/
def Group.binPcs (g : Group) : List Addr :=
  (g.threads.filterMap fun t => match t.place with
    | .bin _ => if g.mayIssue t then some t.pc else none
    | _ => none).dedup

/-- A sheaf occupies a context of its slot: one in the collective hold, at a ring, at the replay of a page, or waiting for a
context does not (R144, R147, R225). -/
def Group.occupies (walks : List Walk) (g : Group) (sh : Sheaf) : Bool :=
  match sh.hold with
  | .collective _ _ _ _ => false
  | .stream _ _ _ _ => false
  | .back _ _ _ => false
  | _ => !g.atReplay walks sh

/-- Sheaf contexts of a slot in use (R147). -/
def State.contexts (s : State) (cl slot : Nat) : Nat :=
  ((s.groups.filter fun g => g.cl = cl && g.slot = slot).flatMap fun g => g.sheaves.filter (g.occupies s.ms.walks)).length

/-- Sheaves of a group that stand ready to issue wait for contexts where its slot holds too many (R147). -/
def State.fitContexts (s : State) (gi : Nat) : State :=
  let wait (sh : Sheaf) : Sheaf := if sh.hold = .free then { sh with hold := .back s.clock true none } else sh
  match s.groups[gi]? with
  | some g =>
    if s.contexts g.cl g.slot ≤ 32 then s else s.setGroup gi fun g => { g with sheaves := g.sheaves.map wait }
  | none => s

/-- A tile is RESERVED: by a copy, or by a QPUSH (R224). -/
def TileState.isReserved : TileState → Bool
  | .reserved => true
  | .pushed _ => true
  | _ => false

/-- What a sheaf is held for at a ring has come: a tile to pop, a tile to push, or a ring to reset (R224, R225). -/
def Group.ringReady (g : Group) (sh : Sheaf) : Bool :=
  match sh.hold with
  | .stream q order rst _ =>
    match g.streams[q]? with
    | some x =>
      if rst then x.tiles.all fun y => !y.1.isReserved
      else if order = 0 then (x.tiles[x.r]?).map Prod.fst = some .free
      else (x.tiles[x.p]?).map Prod.fst = some .filled
    | none => false
  | _ => false

/-- A sheaf takes the first context that frees, ahead of every bin (R147, R225). -/
def Group.ahead (g : Group) (sh : Sheaf) : Bool :=
  g.stop = .running && (g.ringReady sh || (match sh.hold with
    | .back _ ahead _ => ahead
    | _ => false))

/-- The sheaves of a slot that come ahead of every bin. -/
def State.aheads (s : State) (cl slot : Nat) : Nat :=
  ((s.groups.filter fun g => g.cl = cl && g.slot = slot).flatMap fun g => g.sheaves.filter g.ahead).length

/-- A qualified bin of the slot, or a sheaf, waits while no context of it is free (R144, R147). -/
def State.contextWanted (s : State) (cl slot : Nat) : Bool :=
  32 ≤ s.contexts cl slot && s.groups.any fun g => g.cl = cl && g.slot = slot
    && (g.binPcs.any (g.qualifies s.clock) || g.sheaves.any fun sh => g.ahead sh || (match sh.hold with
      | .back _ _ _ => !(g.members sh).isEmpty
      | _ => false))

/-- A sheaf ends its clause at the address of the next header: its threads pass into a new sheaf that keeps the context, or
it gives it up with every thread filed (R147, R116). -/
def State.fallThrough (s : State) (gi si : Nat) (pc : Addr) : State :=
  match s.groups[gi]? with
  | none => s
  | some g =>
    if s.contextWanted g.cl g.slot then
      s.setGroup gi fun g =>
        let g := g.closeRegions s.clock si
        match g.sheaves[si]? with
        | none => g
        | some sh => (sh.members.foldl (fun g k => g.file s.clock k pc) g).sweepSheaves
    else
      let sh := g.sheaves[si]?
      let left (t : Thread) : Thread := if (sh.map fun x => x.members.contains t.key) = some true then { t with entered := false } else t
      (s.setGroup gi fun g => { g with threads := g.threads.map left }).setSheaf gi si fun sh =>
        { sh with pc := pc, inClause := false, idx := 0, drawn := s.clock, last := s.clock }

/-! ### Where a sheaf stands -/

/-- Where the next header stands for a sheaf at an instruction: after the last word of its clause, which is read from
the instructions that follow by their length fields (R54, R66); where one of them stands in no page that can be read, the count
ends there (log 118). -/
def State.nextHeader (s : State) (cl vf : Nat) : Nat → Addr → Addr
  | 0, pc => pc
  | n + 1, pc =>
    match s.codeAt cl vf pc.toNat with
    | .ok pa _ => State.nextHeader s cl vf n
        (pc + 4 * BitVec.ofNat 64 (lengthWords (s.codeWord cl vf pa)))
    | _ => pc

/-- The word at an address as a cluster would fetch it; 0 where it cannot. -/
def State.wordAt (s : State) (cl vf : Nat) (pc : Addr) : Word :=
  match s.codeAt cl vf pc.toNat with
  | .ok pa _ => s.codeWord cl vf pa
  | _ => 0

/-- Where a sheaf stands, with the first word there. -/
def State.siteOf (s : State) (g : Group) (sh : Sheaf) (w : Word) : Site :=
  if sh.inClause then
    { pc := sh.pc, hdr := sh.hdrPc, word := w, idx := sh.idx
      next := s.nextHeader g.cl g.vf (sh.hdr.count.toNat + 1 - sh.idx) sh.pc }
  else { pc := sh.pc, hdr := sh.pc, next := 0, word := w, idx := 0 }

/-! ### Taking an exception -/

/-- F of R321. -/
def Launch.frame (l : Launch) : Nat :=
  let t := 32 * ((l.threads + 31) / 32)
  let up (x : Nat) := (x + 4095) / 4096 * 4096
  let sp := l.scratch + 2 * l.exch
  up (up (up (up (up (20480 + 512 * t) + 4 * t * l.nv) + sp * 33 / 32) + 16704 * l.ntiles) + 32832 * l.nslots)

/-- The address of a thread's fault record (R372). -/
def recordAddr (save gcount gidx tidx : Nat) (l : Launch) : Nat :=
  let w := Nat.min gcount 256
  save + l.frame * w + 65536 * (gidx % w) + 64 * tidx

/-- The bytes of a fault record (R372); `h` is a charged helper's index, PC and iteration. -/
def recordBytes (f : Flt) (site : Site) (seq : Word) (h : Option (Nat × Addr × Nat)) : List Byte :=
  natBytes 8 site.pc.toNat ++ natBytes 8 site.hdr.toNat ++ natBytes 8 site.next.toNat ++ natBytes 8 f.addr
    ++ natBytes 1 f.cls ++ natBytes 1 f.access ++ natBytes 1 ((h.map Prod.fst).getD 0) ++ natBytes 1 0
    ++ natBytes 4 f.info ++ natBytes 4 site.word.toNat ++ natBytes 4 seq.toNat
    ++ natBytes 8 ((h.map fun x => x.2.1.toNat).getD 0) ++ natBytes 4 ((h.map fun x => x.2.2).getD 0) ++ natBytes 4 0

/-- The helpers of a glean stop for good, and their slots go back (R256). -/
def State.dropHelpers (s : State) (gi : Nat) (id : Nat) : State :=
  match s.groups[gi]? with
  | none => s
  | some g =>
    match g.glean id with
    | none => s
    | some gl =>
      let gone := (g.threads.filter fun t => t.key.gl != 0 && (t.part.map GPart.glean) = some id).map Thread.key
      let s := s.giveBack gl.lent
      s.setGroup gi fun g =>
        let g := gone.foldl (fun g k => g.send k .exited 0) g
        { g with
          threads := g.threads.filter fun t => !gone.contains t.key
          gleans := g.gleans.map fun x => if x.id = id then { x with lent := [] } else x
          outs := g.outs.filter fun o => !gone.contains o.key
          fences := g.fences.filter fun o => !gone.contains o.key }

/-- A glean of a group ends without a merge: its helpers are cancelled (R256). -/
def State.cancelGlean (s : State) (gi : Nat) (id : Nat) : State :=
  let clear (t : Thread) : Thread := if (t.part.map GPart.glean) = some id then { t with part := none } else t
  (s.dropHelpers gi id).setGroup gi fun g =>
    { g with threads := g.threads.map clear, gleans := g.gleans.filter fun x => x.id != id }

/-- A fault of a thread after the instruction takes effect (R368). -/
def Flt.after (f : Flt) : Bool := f.cls = 11

/-- A fault record is written at an address (R371, R372), and the thread's later accesses wait for what of it a pin delays. -/
def State.putRecord (s : State) (gi : Nat) (g : Group) (k : Key) (a : Nat) (bytes : List Byte) : State :=
  let n := s.uids
  let s := s.writeAs (some (g.uid, g.cl)) g.vf a bytes
  let ids := (s.ms.late.map Late.id).filter fun i => n < i
  if ids.isEmpty then s
  else s.setGroup gi fun g => { g with fences := g.fences ++ [{ key := k, classes := 63, ids := ids }] }

/-- TAKING AN EXCEPTION (R371): the thread of a key takes a fault at a site. BREAK stops it while a debugger holds the
group (R120). Without a handler, or inside the clause at HANDLER that it came into through handler entry, the task is aborted
with ERR 6. Otherwise its record is written, SEQ rises, the top V pair receives the record's address, at once also where a load to
it is outstanding, which then writes it when it arrives (log 119), the thread leaves its sheaf or hold, and it is filed into the
bin of HANDLER. A recruiter's fault ends its glean (R256). -/
def State.enter (s : State) (gi : Nat) (k : Key) (f : Flt) (site : Site) (hdr : Header)
    (h : Option (Nat × Addr × Nat)) : State :=
  match s.groups[gi]? with
  | none => s
  | some g =>
    match g.find k with
    | none => s
    | some t =>
      if f.cls = 19 ∧ g.dbg then s.setGroup gi fun g =>
        (g.send k (.stopped site hdr false) site.next)
      else
        match s.taskOf g.task with
        | none => s.setGroup gi fun g => g.send k .exited 0
        | some task =>
          if g.handler = 0 ∨ (site.hdr = g.handler ∧ t.entered) then s.abort g.vf task.idx 6
          else
            let seq := t.seq + 1
            let a := recordAddr task.save (task.gx * task.gy * task.gz) g.gidx k.t g.launch
            let s := s.putRecord gi g k a (recordBytes f site seq h)
            let s := match t.part with
              | some p => s.cancelGlean gi p.glean
              | none => s
            s.setGroup gi fun g =>
              let n := g.launch.nv
              let g := g.modify k fun t => { t with seq := seq, solo := none }
              let g := g.putAll k [(.v (n - 2), BitVec.ofNat 32 a), (.v (n - 1), BitVec.ofNat 32 (a / 2 ^ 32))]
              (g.file s.clock k g.handler).modify k fun t => { t with entered := true }

/-- A thread that is held, wherever its hold is, with the site of the held instruction. -/
def Thread.heldSite (t : Thread) : Option Site :=
  match t.place with
  | .held _ site _ _ => some site
  | _ => none

/-- The hold of a drawn sheaf that stops a thread of it: a page or a ring, with the site of the held instruction (R256,
R373). -/
def State.sheafHeldSite (s : State) (g : Group) (k : Key) : Option (Site × Header) :=
  (g.sheaves.find? fun sh => sh.members.contains k && (match sh.hold with
    | .stream _ _ _ _ => true
    | .page _ _ _ _ _ => true
    | _ => false)).map fun sh => (s.siteOf g sh (s.wordAt g.cl g.vf sh.pc), sh.hdr)

/-- A helper's fault is charged to its recruiter (R256): the helper issues nothing more; the recruiter takes the fault at its next
issue, or at once if it is held, and that cancels every helper. A second charge finds one, and is counted and dropped. -/
def State.charge (s : State) (gi : Nat) (k : Key) (f : Flt) (site : Site) : State :=
  match s.groups[gi]? with
  | none => s
  | some g =>
    match g.find k with
    | none => s
    | some t =>
      let id := (t.part.map GPart.glean).getD 0
      let c := (f, k.gl, site.pc, ((t.part.bind GPart.cur).getD 0))
      let r : Key := { t := k.t, gl := 0 }
      let put (x : Glean) : Glean := if x.id = id && x.charged.isNone then { x with charged := some c } else x
      let s := if ((g.glean id).bind Glean.charged).isSome then s.note .fault else s
      let s := s.setGroup gi fun g => { g.send k .exited 0 with gleans := g.gleans.map put }
      match (g.find r).bind Thread.heldSite, s.sheafHeldSite g r with
      | some st, _ => s.enter gi r f st { wait := 0, set1 := 15, set2 := 15, count := 0 } (some (k.gl, site.pc, c.2.2.2))
      | none, some (st, hdr) => s.enter gi r f st hdr (some (k.gl, site.pc, c.2.2.2))
      | none, none => s

/-- The fault of one thread: a helper's is charged to its recruiter (R256), any other enters the handler (R371). -/
def State.takeOne (s : State) (gi : Nat) (site : Site) (hdr : Header) (x : Key × Flt) : State :=
  if x.1.gl != 0 then s.charge gi x.1 x.2 site else s.enter gi x.1 x.2 site hdr none

/-- The faults of the threads of one sheaf, each its own (R370, R371). -/
def State.takeAll (s : State) (gi : Nat) (site : Site) (hdr : Header) (fs : List (Key × Flt)) : State :=
  (fs.foldl (fun s x => s.takeOne gi site hdr x) s).setGroup gi Group.sweepSheaves

/-! ### The issue of one instruction -/

/-- The instruction being issued: its group and sheaf, with their places, its operation, fields, site and length. -/
structure Cx where
  gi : Nat
  si : Nat
  g : Group
  sh : Sheaf
  o : Op
  e : Ext
  site : Site
  len : Nat

/-- The present threads of the issuing sheaf (R143). -/
def Cx.pres (c : Cx) : List Thread := c.g.presents c.sh
/-- The present threads whose guard is true (R143). -/
def Cx.act (c : Cx) : List Thread := c.g.actives c.sh c.e
/-- The threads that act: with an S destination only the one of R19. -/
def Cx.actS (c : Cx) : List Thread := if sDest c.o c.e then c.act.take 1 else c.act
/-- The acting threads whose part of the instruction is still to come (R217, R233, R279). -/
def Cx.todo (c : Cx) : List Thread := c.act.filter fun t => !c.sh.acted.contains t.key

/-- What an issued instruction comes to: it has taken effect and the sheaf goes on after it; the sheaf stays at it,
stalled or held; it has placed the sheaf's threads itself; threads take faults, with the effect that precedes a fault
taken after the instruction. -/
inductive Act where
  | done (s : State)
  | stay (s : State)
  | moved (s : State)
  | fault (fs : List (Key × Flt))
  | after (s : State) (fs : List (Key × Flt))

/-- The instruction at which a sheaf of a group stands. -/
def State.cxAt (s : State) (gi si : Nat) (word : Word) (len : Nat) (o : Op) (e : Ext) : Option Cx :=
  match s.groups[gi]? with
  | none => none
  | some g =>
    match g.sheaves[si]? with
    | none => none
    | some sh =>
      let after := sh.pc + 4 * BitVec.ofNat 64 len
      some { gi := gi, si := si, g := g, sh := sh, o := o, e := e, len := len
             site := { pc := sh.pc, hdr := sh.hdrPc, word := word, idx := sh.idx
                       next := s.nextHeader g.cl g.vf (sh.hdr.count.toNat - sh.idx) after } }

/-- The issuing instruction of the current sheaf, if there is one. -/
def State.cx (s : State) (word : Word) (len : Nat) (o : Op) (e : Ext) : Option Cx :=
  match s.cur with
  | none => none
  | some (gi, si) => s.cxAt gi si word len o e

/-- The sheaf goes on after its instruction: at the next one of its clause, or at the next header (R68). -/
def State.advance (s : State) (c : Cx) : State :=
  let pc := c.sh.pc + 4 * BitVec.ofNat 64 c.len
  if c.sh.idx < c.sh.hdr.count.toNat then
    s.setSheaf c.gi c.si fun sh => { sh with pc := pc, idx := sh.idx + 1, hold := .free, acted := [] }
  else (s.setSheaf c.gi c.si fun sh => { sh with hold := .free, acted := [] }).fallThrough c.gi c.si pc

/-- Sheaves that were left without members are gone. -/
def State.tidy (s : State) (gi : Nat) : State := s.setGroup gi Group.sweepSheaves

/-- What an issue counts: the instruction, the lanes of its slot by class (R157, R395, R399), and the instructions of
helpers under release (R257). -/
def State.countIssue (s : State) (c : Cx) : State :=
  let bump (k : Cluster) : Cluster :=
    let cnt := k.cnt.add 2 1
    if cnt.lctl then
      let b := (cnt.ranges.findIdx? fun r => r.1 < r.2 && r.1 ≤ c.site.pc && c.site.pc < r.2).getD 16
      let act := c.act.length
      let div := ((c.g.members c.sh).filter fun t => c.sh.masks t.key).length
      let off := c.pres.length - act
      let put (l : List Nat) (i n : Nat) := modAt l (4 * b + i) fun x => (x + n) % 2 ^ 64
      { k with cnt := { cnt with
        lanes := put (put (put (put cnt.lanes 0 act) 1 div) 2 off) 3 (32 - act - div - off)
        idle := (cnt.idle + 2 ^ 64 - 32) % 2 ^ 64 } }
    else { k with cnt := cnt }
  let aged (t : Thread) : Thread :=
    match t.part with
    | some p => (match p.release with
      | some (n, _) => if c.sh.members.contains t.key then { t with part := some { p with release := some (n + 1, s.clock) } } else t
      | none => t)
    | none => t
  let s := { s with clusters := modAt s.clusters c.g.cl bump }
  (s.setGroup c.gi fun g => { g with threads := g.threads.map aged }).setSheaf c.gi c.si fun sh =>
    if sh.members.all c.sh.members.contains then { sh with last := s.clock } else sh

/-- The charged faults that recruiters of the sheaf take at this issue (R256). -/
def Cx.charged (c : Cx) : List (Key × Flt × Option (Nat × Addr × Nat)) :=
  c.pres.filterMap fun t =>
    if t.key.gl != 0 then none
    else
      match (c.g.gleansOf t).findSome? Glean.charged with
      | some (f, h, pc, it) => some (t.key, f, some (h, pc, it))
      | none => none

/-- The first deferred mark among a thread's sources (R25, R370). -/
def Cx.marked (c : Cx) (t : Thread) : Option Flt :=
  (srcRegs c.g.launch.ks c.o c.e).findSome? fun (r, bits) =>
    (c.g.markOf t r).map fun m => { cls := m.cls, access := if m = .hurt then 0 else 8, info := bits }

/-- An ECC mark on a register that the instruction overwrites is raised at it (R25). -/
def Cx.overMarked (c : Cx) (t : Thread) : Option Flt :=
  (destBits c.g.launch.ks c.o c.e).findSome? fun r =>
    match c.g.markOf t r.1 with
    | some .ecc => some { cls := 16, access := 8, info := r.2 }
    | _ => none

/-- GLEAN_WRITE and GLEAN_OVERRUN of a thread (R370, 3). Outside every glean: NEXTIT, GLEND and GADD (R254, R256). Of a
participant: any BAR, a GLEAN while its solo glean is active (R250); a write to the shared window or to an S register of
its group (R252); a GLEAN with reduction slots inside another glean (R250); a GADD to no slot of its glean, or against
the slot's fixed op (R254). -/
def Cx.gleanFault (c : Cx) (t : Thread) : Option Flt :=
  let bits (o : Opnd) : Nat := o.toBits.toNat
  let runs : Option Flt := some { cls := 15 }
  if t.part.isNone && t.solo.isNone then
    (match c.o with
      | .nextit | .glend | .gadd => runs
      | _ => none)
  else
    let gl : Option Glean := match t.solo, t.part with
      | some x, _ => some x.1
      | none, some p => c.g.glean p.glean
      | none, none => none
    let k := max (c.g.window t) ((t.solo.map fun x => x.1.k).getD 0)
    let bad := (destBits c.g.launch.ks c.o c.e).find? fun r =>
      match r.1 with
      | .v i => i < k
      | .s _ => true
      | .p _ => false
    let write : Option Flt := some { cls := 14, info := (bad.map Prod.snd).getD (bits c.e.op0) }
    match c.o with
    | .barArv | .barWait | .barSync | .barSet | .barSwap => runs
    | .glean => if t.solo.isSome then runs else if bad.isSome || (t.part.isSome && c.e.slots != 0) then write else none
    | .gadd =>
      (match gl, c.e.op0.reg? 0 with
        | some x, some (.s i) =>
          if i < x.sr || x.sr + x.r ≤ i then write
          else
            (match (x.ops[i - x.sr]?).join with
              | some o => if o.op != c.e.rm.toNat || (o.op != 0 && o.signed != (c.e.ty == 2)) then write else none
              | none => none)
        | _, _ => write)
    | _ => if bad.isSome then write else none

/-- The fault that a thread finds before the instruction's own checks (R370, 2 and 3), a mark that overwriting raises after those on
sources (log 120); PREF finds none (R136). -/
def Cx.early (c : Cx) (t : Thread) : Option Flt :=
  if c.o = .pref then none else
  match c.marked t with
  | some f => some f
  | none =>
    match c.overMarked t with
    | some f => some f
    | none => c.gleanFault t

/-- The access-path classes that an operation's accesses belong to, as FENCE names them: 1 V, 2 C, 4 M, 8 X, 16 T, 32 I
(R189). -/
def Op.pathClass (o : Op) : Nat :=
  match o with
  | .ld | .st | .lds | .sts | .ldt | .pref | .atom | .red | .atoms | .ldf | .ste | .feinit | .waita => 1
  | .stt => 17
  | .cpy | .cpym => 2
  | .wbld | .mma | .adrain | .aadd => 4
  | .stx => 8
  | .statrd | .qscl | .statfl | .statrst => 16
  | _ => 0

/-- The instruction reads a record under `.fresh`, which counts as a read on the V path (R307). -/
def Cx.freshRead (c : Cx) : Bool :=
  match c.o with
  | .statrd => c.e.sc.toNat % 2 = 1
  | .qscl => c.e.lo == 4
  | .qnt => c.e.src = 3 && 4 ≤ c.e.lo.toNat
  | _ => false

/-- The classes of the instruction's accesses (R189): reads of an exchange bank that a swap has ever exchanged belong to X as well,
the statistics updates of a drain, a copy or a QNT `.stat` to T, and a `.fresh` read of a record is one on the V path (R307). -/
def Cx.pathClass (c : Cx) : Nat :=
  match c.o with
  | .lds | .ldf | .atoms => if c.g.swaps then 9 else 1
  | .adrain => 20
  | .cpy | .cpym => 18
  | .qnt => if c.e.src = 3 then (if c.freshRead then 17 else 16) else 0
  | .statrd | .qscl => if c.freshRead then 1 else 16
  | o => Op.pathClass o

/-- The operation is a row-collective, in which masked threads take part (R124, R143). -/
def Op.collective (o : Op) : Bool :=
  match o with
  | .rowMatch | .bfly | .shfl | .vote | .rowred | .elect | .qblk => true
  | _ => false

/-- The instruction is a release on the V path: ST, ATOM or RED with release, STE, FEINIT (R182, R201, R202). -/
def Cx.releases (c : Cx) : Bool :=
  match c.o with
  | .st => c.e.ord
  | .atom | .red => c.e.lo.toNat / 8 % 2 = 1
  | .ste | .feinit => true
  | _ => false

/-- The instruction is an acquire on the V path: LD or ATOM with acquire (R182). -/
def Cx.acquires (c : Cx) : Bool :=
  match c.o with
  | .ld => c.e.ord
  | .atom => c.e.lo.toNat / 4 % 2 = 1
  | _ => false

/-- The order of R182 over another chip's answers holds a thread's access: an acquire of the thread has not been answered,
or the access is a release and an earlier V access of the thread has not (R183). -/
def State.unordered (s : State) (c : Cx) (t : Thread) : Bool :=
  bitAt c.pathClass 0 && s.fab.reqs.any fun r => r.group = c.g.uid && r.key = t.key && r.cls = 1 && (r.acq || c.releases)

/-- The sheaf stalls at the instruction (R22 to R24, R182, R213): a source or a predicate it reads is pending, also of a
masked lane at a row-collective (R143), a destination has a write outstanding, a flag count or a scoreboard limit would
be exceeded, a fence of a thread covers its access, or an order over another chip's answers does. -/
def Cx.stalls (c : Cx) (s : State) : Bool :=
  let ks := c.g.launch.ks
  let srcs := srcRegs ks c.o c.e
  let dsts := destRegs ks c.o c.e
  let newV := (dsts.filter fun r => match r with
    | .v _ => true
    | _ => false).length
  let newS := (dsts.filter fun r => match r with
    | .s _ => true
    | _ => false).length
  let tracked : Bool := c.e.flag == 15 && (match c.o with
    | .ld | .lds | .ldt | .ldc | .atom | .cpy | .cpym | .arnew | .aalloc | .arqry | .statrd | .qscl | .glean
    | .glstat | .clk | .pmrd | .task | .tdep | .tsig | .frcp | .frsq | .fsqrt | .fdiv | .fexp2 | .flog2 | .fsinp
    | .fcosp | .div => true
    | .atoms => c.e.lo.toNat / 2 % 2 = 0
    | .fadd | .fmul | .ffma | .fcmp => c.e.ty == 8
    | .cvt => c.e.ty == 8 || c.e.lo == 8
    | _ => false)
  (if Op.collective c.o then c.g.members c.sh else c.pres).any (fun t => srcs.any (fun r => c.g.pending t r.1)
      || (srcPreds c.o c.e).any fun i => c.g.pending t (.p i))
    || c.todo.any (fun t => dsts.any fun r => c.g.writePending t r)
    || (c.e.flag != 15 && c.todo.any fun t => 15 ≤ t.flags.getD c.e.flag.toNat 0)
    || (tracked && c.todo.any fun t => 32 < c.g.pendingV t.key + newV)
    || (tracked && 64 < c.g.pendingS + newS && !c.todo.isEmpty)
    || c.todo.any (fun t => c.g.fences.any fun f => f.key = t.key && f.classes &&& Cx.pathClass c != 0)
    || c.todo.any (fun t => s.unordered c t)

/-- The state in which the sheaf stays at its instruction, counted (R395 event 4). -/
def State.stalled (s : State) (c : Cx) : State := s.countSlot c.g.cl c.g.slot 4

/-- The clocks for which an instruction occupies its engine beyond its own: DIV (R87). -/
def Cx.busy (c : Cx) : Nat := if c.o = .div then (if c.e.tyRegs = 2 then 24 else 12) else 0

/-- The issuing slot has issued the instruction of a first word, and the free values of the step are spent. -/
def State.mark (s : State) (c : Cx) : State := (s.issues c.g.cl c.g.slot (majorOf c.site.word) c.busy).gap

/-- Charged faults of some recruiters are taken at this issue, and those of the others that are due, which take a fault of their
own, are counted and dropped (R256, R370). -/
def State.takeCharged (s : State) (c : Cx) (own : List Key) : State :=
  let ch := c.charged.filter fun x => !own.contains x.1
  (ch.foldl (fun s x => s.enter c.gi x.1 x.2.1 c.site c.sh.hdr x.2.2) s).noteN .fault (c.charged.length - ch.length)

/-- The state after threads of the issuing sheaf have taken their faults, and charged ones for recruiters without a
fault of their own (R256, R370). -/
def State.faulted (s : State) (c : Cx) (fs : List (Key × Flt)) : State :=
  let s := s.setSheaf c.gi c.si fun sh => { sh with hold := .free, acted := [] }
  let s := s.takeAll c.gi c.site c.sh.hdr fs
  (s.takeCharged c (fs.map Prod.fst)).tidy c.gi

/-- The threads that take a fault of their own by an act: those of RESCALE, and the active ones of TRAP and BRK (R120, R370). -/
def Cx.owns (c : Cx) : Act → List Key
  | .after _ fs => fs.map Prod.fst
  | .moved _ => (match c.o with
    | .trap | .brk => c.act.map Thread.key
    | _ => [])
  | _ => []

/-- The recruiters whose charged fault goes before an act (R256, R370): those without a fault of their own by it. -/
def Cx.chargedFirst (c : Cx) (a : Act) : List (Key × Flt × Option (Nat × Addr × Nat)) :=
  c.charged.filter fun x => !(c.owns a).contains x.1

/-- The state after recruiters have taken charged faults in place of an act, which has no effect then (R256); what is charged to
the others waits. -/
def State.chargedOnly (s : State) (c : Cx) (ch : List (Key × Flt × Option (Nat × Addr × Nat))) : State :=
  let s := s.setSheaf c.gi c.si fun sh => { sh with hold := .free, acted := [] }
  (ch.foldl (fun s x => s.enter c.gi x.1 x.2.1 c.site c.sh.hdr x.2.2) s).tidy c.gi

/-- The outcome of an act. -/
def Act.close (c : Cx) (s : State) : Act → State
  | .done s' => ((s'.countIssue c).advance c).tidy c.gi
  | .stay s' => s'
  | .moved s' => (s'.countIssue c).tidy c.gi
  | .fault fs => s.faulted c fs
  | .after s' fs =>
    (State.takeAll ((s'.countIssue c).advance c) c.gi c.site c.sh.hdr fs).tidy c.gi

/-- THE ISSUE OF ONE INSTRUCTION for the current sheaf (R68 to R70, R148, R370): the encoding's allocation checks, the
clause checks, the stalls, deferred marks and glean writes, charged faults, and then its own effect; the slot has then
issued in this clock, unless the sheaf stalls or is held at the instruction. -/
def issue (word : Word) (len : Nat) (o : Op) (e : Ext) (s : State)
    (body : Cx → State → Act) : Host.Outcome State Fault Refusal :=
  match s.cx word len o e with
  | none => .refused .noIssuingSheaf
  | some c =>
    let all (cls : Nat) : List (Key × Flt) := c.pres.map fun t => (t.key, { cls := cls })
    if !allocOk c.g o e then .next (((s.countIssue c).mark c).faulted c (all 1))
    else if o.endsClause && c.sh.idx < c.sh.hdr.count.toNat then .next (((s.countIssue c).mark c).faulted c (all 2))
    else if e.flag != 15 && e.flag != c.sh.hdr.set1 && e.flag != c.sh.hdr.set2 then
      .next (((s.countIssue c).mark c).faulted c (all 2))
    else if c.stalls s then .next (s.stalled c)
    else
      let fs := c.todo.filterMap fun t => (c.early t).map fun f => (t.key, f)
      if !fs.isEmpty then .next (((s.countIssue c).mark c).faulted c fs)
      else
        match body c s with
        | .fault fs => .next (((s.countIssue c).mark c).faulted c fs)
        | a =>
          if !(c.chargedFirst a).isEmpty then .next (((s.countIssue c).mark c).chargedOnly c (c.chargedFirst a))
          else match a with
            | .stay s' => .next s'
            | a => .next (((a.close c s).noteN .fault c.charged.length).mark c)

/-- The issue of an extended-form instruction (R57). -/
def issueE (o : Op) (e : Ext) (s : State) (body : Cx → State → Act) : Host.Outcome State Fault Refusal :=
  issue (e.firstWord o.code.1) (if e.lit.isSome then 5 else 3) o e s body

/-- The extended form that a base form equals (R56, R72), with guard P7; op3 is Vd where it is also the addend. -/
def baseExt (b : Base) (ty : BitVec 4) (addend : Bool) : Ext :=
  { op0 := .v b.vd, op1 := .v b.va, ty := ty, op3 := if addend then .v b.vd else .v 0
    op2 := match b.b with
      | .reg r => .v r
      | .lit _ => .v 0
    lit := match b.b with
      | .reg _ => none
      | .lit x => some (0#32 ++ x) }

/-- The first word of a base-form instruction (R55, R56). -/
def baseWord (major : Nat) (b : Base) : Word :=
  match b.b with
  | .reg r => 0#2 ++ BitVec.ofNat 6 major ++ b.vd ++ b.va ++ r
  | .lit _ => 1#2 ++ BitVec.ofNat 6 major ++ b.vd ++ b.va ++ 0#8

/-- The issue of a base-form instruction (R55, R72). -/
def issueB (major : Nat) (o : Op) (b : Base) (ty : BitVec 4) (addend : Bool) (s : State) (body : Cx → State → Act) :
    Host.Outcome State Fault Refusal :=
  issue (baseWord major b) (match b.b with
    | .reg _ => 1
    | .lit _ => 3) o (baseExt b ty addend) s body

/-! ### Effects that are the same for many instructions -/

/-- Threads of the issuing sheaf act one after the other, each as soon as there is room for it: while there is none the sheaf
stays, and those that have acted do not act again (R217, R233, R279). -/
def inTurn (c : Cx) (s : State) (room : State → Thread → Bool) (one : State → Thread → State) : List Thread → Act
  | [] => .done s
  | t :: ts =>
    if room s t then
      inTurn c ((one s t).setSheaf c.gi c.si fun sh => { sh with acted := t.key :: sh.acted }) room one ts
    else .stay (s.stalled c)

/-- The writes of the active threads, each computed from the state before the instruction (R6, R83); a write to an S
register is made by the first active thread alone (R19). -/
def Cx.writes (c : Cx) (f : Cx → Thread → List (Reg × Word)) : List (Key × List (Reg × Word)) :=
  c.act.zipIdx.map fun (t, j) => (t.key, (f c t).filter fun w => match w.1 with
    | .s _ => j = 0
    | _ => true)

/-- A group after the writes of several threads. -/
def Group.apply (g : Group) (ws : List (Key × List (Reg × Word))) : Group :=
  ws.foldl (fun g x => g.putAll x.1 x.2) g

/-- An instruction that writes registers of each active thread (R83). -/
def lanes (f : Cx → Thread → List (Reg × Word)) (c : Cx) (s : State) : Act :=
  .done (s.setGroup c.gi fun g => g.apply (c.writes f))

/-- The same, where each active thread also draws a number of random words (R29). -/
def lanesDraw (draws : Nat) (f : Cx → Thread → List (Reg × Word)) (c : Cx) (s : State) : Act :=
  let drew (t : Thread) : Thread := if c.act.any (fun u => u.key = t.key) then t.drew draws else t
  .done (s.setGroup c.gi fun g => { g.apply (c.writes f) with threads := (g.apply (c.writes f)).threads.map drew })

/-- An outstanding result of an instruction for a thread: flagged, or scoreboarded where FLAG is 15 (R22, R24). -/
def Cx.out (c : Cx) (k : Key) (regs : List (Reg × Word × Option MarkKind)) (ready : Bool) (tag : Nat) : Out :=
  { key := k, flag := if c.e.flag = 15 then none else some c.e.flag.toNat, regs := regs, ready := ready, tag := tag }

/-- A group with outstanding results added, their flags raised (R22). -/
def Group.addOuts (g : Group) (os : List Out) : Group :=
  let up (t : Thread) : Thread := os.foldl (fun t o => match o.flag with
    | some f => if o.key = t.key then t.raise f else t
    | none => t) t
  { g with outs := g.outs ++ os, threads := g.threads.map up }

/-- An instruction whose results arrive later, under its flag or in the scoreboard (R22, R24). -/
def lanesOut (f : Cx → Thread → List (Reg × Word)) (c : Cx) (s : State) : Act :=
  let os := ((c.writes f).filter fun x => !x.2.isEmpty).map fun x =>
    c.out x.1 (x.2.map fun w => (w.1, w.2, none)) true 0
  .done (s.setGroup c.gi fun g => g.addOuts os)

/-- The registers of the instruction's type. -/
def Cx.n (c : Cx) : Nat := c.e.tyRegs
/-- Operand k as a number of the width of the type (R82). -/
def Cx.nat (c : Cx) (t : Thread) (k : Nat) : Nat := c.g.arg t c.o c.e c.n k
/-- Operand k as an integer of the type: signed for `.i`, unsigned for `.n` (R82). -/
def Cx.int (c : Cx) (t : Thread) (k : Nat) : Int :=
  if c.e.ty = 2 ∨ c.e.ty = 3 then sext (32 * c.n) (c.nat t k) else c.nat t k
/-- The destination OP0 with a value of n registers. -/
def Cx.dstN (c : Cx) (n x : Nat) : List (Reg × Word) := c.e.op0.writes n x
/-- The destination OP0 with an integer narrowed to the type (R82). -/
def Cx.dst (c : Cx) (x : Int) : List (Reg × Word) := c.dstN c.n (wrap (32 * c.n) x)
/-- The destination predicate with a truth value (R20). -/
def Cx.dstP (c : Cx) (k : Nat) (b : Bool) : List (Reg × Word) := [(.p (c.e.opnd k).index, if b then 1 else 0)]

end Sys2Proof.Machine
end

