-- ==== Sys2Proof/Machine/Walk.lean ====
section
/-! DEFINITION. The two levels of TLBs and the walkers (R364); page misses and what they hold (R364, R366), the walk of a page, the pager window (R365, R367) and the
answer of Furze to a partition-stage miss (R367). -/

namespace Sys2Proof.Machine

/-! ### TLBs and walkers -/

/-- An entry that comes first into a TLB of n entries, which are those under its number; a full one loses its oldest (log
29). -/
def tlbPut (n : Nat) (e : Tlb) (l : List Tlb) : List Tlb :=
  let rest := l.filter fun t => !(t.cl = e.cl && t.vf = e.vf && t.page = e.page && t.shift = e.shift)
  let mine := rest.filter fun t => t.cl = e.cl
  e :: (match mine.getLast? with
    | some old => if mine.length < n then rest else rest.erase old
    | none => rest)

/-- The TLB entry, under a number, of a leaf that maps a 4 KiB page (R364). -/
def Leaf.entry (l : Leaf) (cl vf page : Nat) : Tlb :=
  let first := page / 2 ^ (l.shift - 12) * 2 ^ (l.shift - 12)
  { cl := cl, vf := vf, page := first, pa := l.pa - (page - first), shift := l.shift, r := l.r, w := l.w, x := l.x
    arena := l.arena }

/-- A translation enters the cluster's TLB (R364). -/
def State.fillTlb (s : State) (cl vf page : Nat) (l : Leaf) : State :=
  { s with ms := { s.ms with tlb := tlbPut 256 (l.entry cl vf page) s.ms.tlb } }

/-- A walk's translation enters the second-level TLB of the die and the TLB of the cluster that missed (R364). -/
def State.fillBoth (s : State) (cl vf page : Nat) (l : Leaf) : State :=
  { s with ms := { s.ms with tlb2 := tlbPut 32768 (l.entry (dieOf cl) vf page) s.ms.tlb2 } }.fillTlb cl vf page l

/-- The second-level TLB of the cluster's die holds a translation of a page (R364). -/
def State.secondTlb (s : State) (cl vf page : Nat) : Option Tlb := tlbFind s.ms.tlb2 (dieOf cl) vf page

/-- The i-th walk has one of the 48 walkers of its die: waiting walks are served in the order they came, the VFs in turn; one
that waits for a pager or for Furze holds none (R364). -/
def State.hasWalker (s : State) (i : Nat) : Bool :=
  let wants (die : Nat) (w : Walk) : Bool := dieOf w.cl = die && w.token.isNone && (match s.walk w.vf w.va with
    | .pmiss _ => false
    | _ => true)
  match s.ms.walks[i]? with
  | none => false
  | some w =>
    let all := s.ms.walks.zipIdx.filter fun x => wants (dieOf w.cl) x.1
    let turn (x : Walk × Nat) : Nat := (all.filter fun y => y.1.vf = x.1.vf && y.2 < x.2).length
    let t := turn (w, i)
    (all.filter fun y => turn y < t || (turn y = t && y.2 < i)).length < 48

/-! ### Misses -/

/-- A walk of a page is wanted on the die of a cluster for a VF; later misses join it (R364, R366). -/
def State.miss (s : State) (cl vf va : Nat) (write fetch engine : Bool) : State :=
  if s.ms.walks.any fun w => dieOf w.cl = dieOf cl && w.vf = vf && w.page = va / 4096 then s
  else
    let w : Walk := { cl := cl, vf := vf, page := va / 4096, va := va, write := write, fetch := fetch, engine := engine
                      token := none }
    { s with ms := { s.ms with walks := s.ms.walks ++ [w] } }

/-- A sheaf of a group misses a page in the TLB of its cluster: the second-level TLB gives the translation, or the sheaf is
held while a walk is wanted (R134, R364, R366). -/
def State.missAt (s : State) (gi si : Nat) (g : Group) (va : Nat) (write fetch engine : Bool) : State :=
  match s.secondTlb g.cl g.vf (va / 4096) with
  | some t => s.fillTlb g.cl g.vf (va / 4096) t.leaf
  | none => (s.miss g.cl g.vf va write fetch engine).setSheaf gi si fun sh =>
      { sh with hold := .page va (va / 4096) write fetch engine }

/-- The issuing sheaf misses a page (R134, R366). -/
def State.holdPage (s : State) (c : Cx) (va : Nat) (write fetch engine : Bool) : State :=
  s.missAt c.gi c.si c.g va write fetch engine

/-- A sheaf that waits for a page goes on, to try again or with the fault class of an answer FAIL: in its context, or, once
its threads are held for a replay, eligible from now on for one of its slot (R144, R367). -/
def Sheaf.answer (clock page : Nat) (fail : Option Nat) (replay : Bool) (sh : Sheaf) : Sheaf :=
  match sh.hold with
  | .page _ p _ _ _ =>
    if p = page then { sh with hold :=
      (if replay then .back clock false (fail.map fun c => (page, c))
       else match fail with
        | none => .free
        | some c => .failed page c) }
    else sh
  | _ => sh

/-- A copy's part that waits for a page goes on, or ends with FAULT status; one that has ended and waits to write its token loses
it (R229, R366, R367). -/
def CPart.answer (page : Nat) (fail : Bool) (p : CPart) : CPart :=
  if p.wait = some page then
    (if !fail then { p with wait := none }
     else if p.status.isSome then { p with wait := none, lost := true }
     else { p with wait := none, status := some 4 })
  else p

/-- The die of a copy's unit or aperture. -/
def Copy.die (k : Copy) : Nat := if k.cl < Config.clusters then dieOf k.cl else k.cl - Config.clusters

/-- RETRY of the template (R214). -/
def Copy.retry (k : Copy) : Bool := tf k.tmpl 62 1 = 1

/-- Everything that the clusters of one die hold for a page of a VF is answered; an argument block on a page that cannot be had
is not read any more (R229). -/
def State.answerPage (s : State) (cl vf page : Nat) (fail : Option Nat) : State :=
  { s with
    groups := s.groups.map fun g =>
      if dieOf g.cl = dieOf cl && g.vf = vf then
        { g with sheaves := g.sheaves.map fun sh => sh.answer s.clock page fail (g.atReplay s.ms.walks sh) } else g
    copies := s.copies.map fun k =>
      if k.die = dieOf cl && k.vf = vf then
        { k with
          parts := k.parts.map (CPart.answer page fail.isSome)
          block := if fail.isSome && k.parts.any (fun p => p.wait = some page) then none else k.block } else k
    ms := { s.ms with walks := s.ms.walks.filter fun w => !(dieOf w.cl = dieOf cl && w.vf = vf && w.page = page) } }

/-- Something on the die of a cluster waits for a page of a VF. -/
def State.pageWanted (s : State) (cl vf page : Nat) : Bool :=
  let waits (sh : Sheaf) : Bool := match sh.hold with
    | .page _ p _ _ _ => p = page
    | _ => false
  s.groups.any (fun g => dieOf g.cl = dieOf cl && g.vf = vf && g.sheaves.any waits)
    || s.copies.any fun k => k.die = dieOf cl && k.vf = vf && k.parts.any fun p => p.wait = some page

/-- A page turns out to have no mapping: the copies with RETRY = 0 that wait for it end with FAULT (R214, R366). -/
def State.failOnce (s : State) (cl vf page : Nat) : State :=
  { s with copies := s.copies.map fun k =>
      if k.die = dieOf cl && k.vf = vf && !k.retry then { k with parts := k.parts.map (CPart.answer page true) } else k }

/-- A page without a mapping: a copy that does not retry ends; for the others the miss joins the outstanding token of its page, or
a notice of kind 5 goes to the pager; without a pager the answer is FAIL at once (R366, R367). -/
def State.askPager (s : State) (w : Walk) : State :=
  let v := s.vf w.vf
  let s := s.failOnce w.cl w.vf w.page
  if v.pager = 0 || !s.pageWanted w.cl w.vf w.page then s.answerPage w.cl w.vf w.page (some 5)
  else
    let set (tok : Nat) (s : State) : State :=
      { s with ms := { s.ms with walks := s.ms.walks.map fun x => if x = w then { x with token := some tok } else x } }
    match (s.ms.walks.find? fun x => x.vf = w.vf && x.page = w.page && x.token.isSome).bind Walk.token with
    | some tok => set tok s
    | none =>
      let tok := v.tokens % (2 ^ 32 - 1) + 1
      let s := set tok (s.setVf w.vf fun v => { v with tokens := v.tokens + 1 })
      let bits := (if w.write then 1 else 0) + (if w.fetch then 2 else 0) + (if w.engine then 4 else 0)
      s.post w.vf v.pager w.va 5 bits w.cl tok

/-- The lines that a walk has read at the home (R364): their partials are combined (R188). -/
def State.walked (s : State) (w : Walk) : State := (s.walkTrace w.vf w.va).2.foldl State.recall s

/-- A walk reads no line that a pin holds: it waits for the pin to end (R186). -/
def State.walkHeld (s : State) (w : Walk) : Bool := (s.walkTrace w.vf w.va).2.any fun l => s.ms.refuses none l

/-- PAGE_WALK (R364, R366): the walk of the i-th wanted page, which has a walker and reads no held line, ends: its translation
enters the TLBs and what waits tries again; or the page has no mapping; or the partition stage denies the walk, or it meets an
uncorrectable error (R375). A partition-stage miss waits for Furze. -/
def evPageWalk (i : Nat) (s : State) : State :=
  match s.ms.walks[i]? with
  | none => s
  | some w =>
    if w.token.isSome || !s.hasWalker i || s.walkHeld w then s
    else
      match s.walk w.vf w.va with
      | .leaf l => ((s.walked w).fillBoth w.cl w.vf w.page l).answerPage w.cl w.vf w.page none
      | .missing => (s.walked w).askPager w
      | .denied => (s.walked w).answerPage w.cl w.vf w.page (some 6)
      | .hurt => (s.walked w).answerPage w.cl w.vf w.page (some 16)
      | .pmiss _ => s

/-- Accesses of a VF that have translated are still under way: on another chip, or of a matrix command (R365). -/
def State.translated (s : State) (vf : Nat) : Bool :=
  s.fab.reqs.any (fun r => r.vf = vf)
    || (s.fill ++ s.compute).any fun k => !k.pages.isEmpty && s.groups.any fun g => g.uid = k.group && g.vf = vf

/-- The TLB entry maps nothing of the 2^size bytes around an address (R365). -/
def Tlb.misses (t : Tlb) (va size : Nat) : Bool :=
  t.page * 4096 / 2 ^ Nat.max size t.shift != va / 2 ^ Nat.max size t.shift

/-- PAGER_INVAL (R365): every entry of the VF in the TLBs in the range is dropped; the store completes, and so acts, once no
access that has translated is under way; a store of another shape is discarded. -/
def evPagerInval (vf : Nat) (data : BitVec 64) (s : State) : State :=
  let x := data.toNat
  let size := field x 0 6
  if field x 56 8 != 0 || field x 6 6 != 0 || size < 12 || 56 < size then s.note .store
  else if s.translated vf then s
  else
    let stays (t : Tlb) : Bool := t.vf != vf || t.misses (field x 12 44 * 4096) size
    { s with ms := { s.ms with tlb := s.ms.tlb.filter stays, tlb2 := s.ms.tlb2.filter stays } }

/-- The waiting pages of a token of a VF. -/
def State.tokenWalks (s : State) (vf tok : Nat) : List Walk :=
  s.ms.walks.filter fun w => w.vf = vf && w.token = some tok && tok != 0

/-- PAGER_REPLAY (R367): everything held under the token translates again. -/
def evPagerReplay (vf : Nat) (data : BitVec 64) (s : State) : State :=
  let ws := s.tokenWalks vf (field data.toNat 0 32)
  if data.toNat / 2 ^ 32 != 0 || ws.isEmpty then s.note .token
  else ws.foldl (fun s w => s.answerPage w.cl w.vf w.page none) s

/-- PAGER_REPLAY_FAIL (R367): what is held raises PAGE, or ends a copy with FAULT status. -/
def evPagerReplayFail (vf : Nat) (data : BitVec 64) (s : State) : State :=
  let ws := s.tokenWalks vf (field data.toNat 0 32)
  if data.toNat / 2 ^ 32 != 2 ^ 31 || ws.isEmpty then s.note .token
  else ws.foldl (fun s w => s.answerPage w.cl w.vf w.page (some 5)) s

/-- The partition-stage leaf maps something of the 2^size bytes around a guest-physical address. -/
def PMap.meets (m : PMap) (gpa size : Nat) : Bool :=
  m.gpa * 4096 / 2 ^ Nat.max size m.shift = gpa / 2 ^ Nat.max size m.shift

/-- Every TLB entry of a VF is dropped, and every partition-stage leaf in a range (R365). -/
def State.dropStage (s : State) (vf gpa size : Nat) : State :=
  let stays (t : Tlb) : Bool := t.vf != vf
  { s with ms := { s.ms with tlb := s.ms.tlb.filter stays, tlb2 := s.ms.tlb2.filter stays } }.setVf vf fun v =>
    { v with pmap := v.pmap.filter fun m => !m.meets gpa size }

/-- The frames of a partition-stage leaf that are given to a VF: those that it has not held since its setup are zero-filled,
and no other VF holds them any more (R405). -/
def State.giveFrames (s : State) (vf pa n : Nat) : State :=
  let new := ((List.range n).map (pa + ·)).filter fun f => !inImport (f * 4096) && !(s.vf vf).frames.contains f
  let s := new.foldl (fun s f => { s with ms := { s.ms with
    mem := Memory.writeN s.ms.mem (f * 4096) (List.replicate 4096 0)
    dirty := s.ms.dirty.filter fun d => d.line / 32 != f } }) s
  let lose (v : VF) : VF := { v with frames := v.frames.filter fun f => !new.contains f }
  { s with vfs := s.vfs.map lose }.setVf vf fun v => { v with frames := new ++ v.frames }

/-- The requests of other chips that a partition-stage miss at a page holds are answered ERROR (R367, R387). -/
def State.denyFlits (s : State) (vf page : Nat) : State :=
  let hit (d : Delivery) : Option Flit := (flitRequest d.flit).filter fun f => d.waits && (match s.fab.windows[f.win]? with
    | some w => w.vf = vf && (match s.xlateNow vf (w.base + f.off) {} with
      | .pmiss g => g / 4096 = page
      | _ => false)
    | none => false)
  let all := s.fab.inbox.filterMap hit
  all.foldl (fun s f => s.respond f 8 0 []) { s with fab := { s.fab with inbox := s.fab.inbox.filter fun d => (hit d).isNone } }

/-- PARTITION_STAGE_MISS (R367): Furze maps a guest-physical page of one of the sizes of R361, of frames of the partition's
memory or of an import of the VF (R387, R390), zero-filling those new to it (R405), or answers PROTECTION to what waits on
it. It invalidates a range, as it does before it maps one again, once no access that has translated is under way (R365). -/
def evPartitionStageMiss (vf : Nat) (gpa : BitVec 64) (ans : PStageAnswer) (s : State) : State :=
  let g := gpa.toNat
  match ans with
  | .map pa shift r w x =>
    let n := 2 ^ (shift - 12)
    if !([12, 21, 30].contains shift) || pa % n != 0 || !(s.mayMap vf (pa * 4096) n) then s.note .command
    else
      let old : Bool := (s.vf vf).pmap.any fun m => m.meets g shift
      if old && s.translated vf then s
      else
        let s := (if old then s.dropStage vf g shift else s).giveFrames vf pa n
        s.setVf vf fun v => { v with
          pmap := { gpa := g / 2 ^ shift * n, pa := pa, shift := shift, r := r, w := w, x := x } :: v.pmap }
  | .protection =>
    let ws := s.ms.walks.filter fun w => w.vf = vf && w.token.isNone && (match s.walk vf w.va with
      | .pmiss a => a / 4096 = g / 4096
      | _ => false)
    (ws.foldl (fun s w => s.answerPage w.cl w.vf w.page (some 6)) s).denyFlits vf (g / 4096)
  | .invalidate size => if s.translated vf then s else s.dropStage vf g size

/-- PAGE_WALK (R364). -/
def execPageWalk (i : Nat) (s : State) : Host.Outcome State Fault Refusal := .next (evPageWalk i s)
/-- PAGER_INVAL (R365). -/
def execPagerInval (vf : Nat) (data : BitVec 64) (s : State) : Host.Outcome State Fault Refusal :=
  .next (evPagerInval vf data s)
/-- PAGER_REPLAY (R367). -/
def execPagerReplay (vf : Nat) (data : BitVec 64) (s : State) : Host.Outcome State Fault Refusal :=
  .next (evPagerReplay vf data s)
/-- PAGER_REPLAY_FAIL (R367). -/
def execPagerReplayFail (vf : Nat) (data : BitVec 64) (s : State) : Host.Outcome State Fault Refusal :=
  .next (evPagerReplayFail vf data s)
/-- PARTITION_STAGE_MISS (R367). -/
def execPartitionStageMiss (vf : Nat) (gpa : BitVec 64) (ans : PStageAnswer) (s : State) :
    Host.Outcome State Fault Refusal := .next (evPartitionStageMiss vf gpa ans s)

end Sys2Proof.Machine
end

