-- ==== Sys2Proof/Machine/Clause.lean ====
section
/-! DEFINITION. Clauses (R64 to R70): fetching the words of an instruction, the clause header, faults at a word, and
breakpoints (R401). -/

namespace Sys2Proof.Machine

/-- What fetching one instruction gives: its words, a page to wait for, or a fault with the first word (0 where it was
not fetched). -/
inductive Fetch where
  | words (ws : List Word)
  | page (va : Nat)
  | bad (f : Flt) (first : Word)
  deriving DecidableEq, Repr

/-- A fault at a fetched word (R368, R372): ADDR is the word's address, and ACCESS says fetch. -/
def fetchFlt (cls va : Nat) : Flt := { cls := cls, addr := va, access := 2 }

/-- The word that a sheaf of a group fetches at a place: one that it has fetched already in the clause that it is in, or
else the cluster's (R122). -/
def State.sheafWord (s : State) (g : Group) (sh : Sheaf) (pa : Nat) : Word :=
  match (if sh.inClause then sh.code.lookup pa else none) with
  | some w => w
  | none => s.codeWord g.cl g.vf pa

/-- n words from an address on, for a group whose sheaf stands there (R68, R292, R363, R366, R375). -/
def State.fetchN (s : State) (g : Group) (sh : Sheaf) (first : Word) : Nat → Addr → List Word → Fetch
  | 0, _, ws => .words ws
  | n + 1, pc, ws =>
    let va := pc.toNat
    match s.xlate g.cl g.vf va { x := true } with
    | .ok pa arena =>
      if (s.vf g.vf).staleAt arena then .bad (fetchFlt 7 va) first
      else if s.errs pa then .bad (fetchFlt 16 va) first
      else State.fetchN s g sh first n (pc + 4) (ws ++ [s.sheafWord g sh pa])
    | .denied => .bad (fetchFlt 6 va) first
    | _ =>
      match sh.hold with
      | .failed page cls => if page = va / 4096 then .bad (fetchFlt cls va) first else .page va
      | _ => .page va

/-- The words of the instruction at an address: the first gives their number (R54). -/
def State.fetch (s : State) (g : Group) (sh : Sheaf) (pc : Addr) : Fetch :=
  match s.fetchN g sh 0 1 pc [] with
  | .words [w] => s.fetchN g sh w (lengthWords w - 1) (pc + 4) [w]
  | x => x

/-- The sheaf keeps the n words that it has fetched from an address on (R122). -/
def State.keepWords (s : State) (gi si : Nat) (g : Group) (sh : Sheaf) (n : Nat) : State :=
  let ws := (List.range n).filterMap fun i =>
    match s.xlate g.cl g.vf (sh.pc.toNat + 4 * i) { x := true } with
    | .ok pa _ => if sh.code.any fun x => x.1 = pa then none else some (pa, s.codeWord g.cl g.vf pa)
    | _ => none
  s.setSheaf gi si fun sh => { sh with code := sh.code ++ ws }

/-- Every present thread of a sheaf takes a fault at the word where it stands (R68 to R70), which takes the place of an
issue in this clock (log 80). -/
def State.wordFault (s : State) (gi si : Nat) (w : Word) (f : Flt) : State :=
  match s.groups[gi]? with
  | none => s
  | some g =>
    match g.sheaves[si]? with
    | none => s
    | some sh =>
      let site := s.siteOf g sh w
      let s := (s.issues g.cl g.slot (majorOf w) 0).setSheaf gi si fun sh => { sh with hold := .free }
      ((s.takeAll gi site sh.hdr ((g.presents sh).map fun t => (t.key, f))).tidy gi).gap

/-- The wait mask of a header is not clear: a flag it names is raised for a thread of the sheaf (R22, R64). -/
def Group.headerWaits (g : Group) (sh : Sheaf) (h : Header) : Bool :=
  (g.members sh).any fun t => (List.range 12).any fun i => h.wait.getLsbD i && t.flags.getD i 0 != 0

/-- A clause header for the current sheaf (R64 to R68): a header inside a clause and an invalid one fault; otherwise the
sheaf waits for its flags and enters the clause, which takes no issue clock (R148). -/
def headerStep (h : Header) (gi si : Nat) (g : Group) (sh : Sheaf) (s : State) : State :=
  if sh.inClause || !h.wellFormed then s.wordFault gi si h.toWord { cls := 2 }
  else if g.headerWaits sh h then s.countSlot g.cl g.slot 5
  else s.setSheaf gi si fun sh => { sh with inClause := true, hdr := h, hdrPc := sh.pc, pc := sh.pc + 4, idx := 0, hold := .free, code := [] }

/-- A clause header (R64, R68). -/
def execRunClause (h : Header) (s : State) : Host.Outcome State Fault Refusal :=
  match s.cur with
  | none => .refused .noIssuingSheaf
  | some (gi, si) =>
    match s.groups[gi]? with
    | none => .refused .noIssuingSheaf
    | some g =>
      match g.sheaves[si]? with
      | none => .refused .noIssuingSheaf
      | some sh => .next (headerStep h gi si g sh s)

/-- An enabled breakpoint of the cluster stands at an address, for a group that a debugger holds (R394, R401). -/
def State.breaks (s : State) (g : Group) (pc : Addr) : Bool :=
  g.dbg && (s.cluster g.cl).cnt.bkpt.any fun b => b.getLsbD 0 && b.toNat / 4 = pc.toNat / 4

/-- The present threads of a sheaf stop before the instruction where it stands (R401). -/
def State.stopAt (s : State) (gi si : Nat) (w : Word) : State :=
  match s.groups[gi]? with
  | none => s
  | some g =>
    match g.sheaves[si]? with
    | none => s
    | some sh =>
      let site := s.siteOf g sh w
      let stop (g : Group) (t : Thread) : Group :=
        (g.send t.key (.stopped site sh.hdr sh.inClause) sh.pc).modify t.key fun u => { u with entered := t.entered }
      (s.setGroup gi fun g => (g.presents sh).foldl stop g).tidy gi

end Sys2Proof.Machine
end

