-- ==== Sys2Proof/Machine/Barrier.lean ====
section
/-! DEFINITION. Barriers (R206 to R211): arrival, waiting, settling a phase, byte accounting, the arrival of a group at a
set. -/

namespace Sys2Proof.Machine

/-- The barrier of an index. -/
def Group.bar (g : Group) (b : Nat) : Bar :=
  g.bars.getD b { c := 1, dflt := false, arrivals := 0, phase := 0, pending := 0, sets := [], sent := false }

/-- The group with a barrier changed. -/
def Group.setBar (g : Group) (b : Nat) (f : Bar → Bar) : Group := { g with bars := modAt g.bars b f }

/-- The ticket of a thread for a barrier, if it holds one. -/
def Thread.ticket (t : Thread) (b : Nat) : Option Nat := t.tickets.lookup b

/-- A thread with its ticket for a barrier set or cleared. -/
def Thread.setTicket (t : Thread) (b : Nat) (x : Option Nat) : Thread :=
  { t with tickets := (match x with
    | some p => [(b, p)]
    | none => []) ++ t.tickets.filter fun y => y.1 != b }

/-- A phase number is before another: 32-bit numbers compare by their signed difference, as a saved ticket does (R206,
R324; log 83). -/
def phaseBefore (x y : Nat) : Bool := sext 32 (x % 2 ^ 32 + 2 ^ 32 - y % 2 ^ 32) < 0

/-- A thread held at a barrier with a ticket below its phase is released, at the next header (R206). -/
def Thread.release (b phase clock : Nat) (t : Thread) : Thread :=
  match t.place with
  | .held (.barrier b') site _ _ =>
    if b' = b ∧ phaseBefore ((t.ticket b).getD phase) phase then
      { t.setTicket b none with place := .bin clock, pc := site.next }
    else t
  | _ => t

/-- One completion of a barrier's phase (R206). -/
def Group.complete (g : Group) (clock b : Nat) : Group :=
  let x := g.bar b
  let phase := (x.phase + 1) % 2 ^ 32
  let g := g.setBar b fun y =>
    { y with arrivals := y.arrivals - y.c, phase := phase, sent := false, sets := y.sets.filter fun e => !phaseBefore e.1 phase }
  { g with threads := g.threads.map (Thread.release b phase clock) }

/-- Settle (R206): local phases complete while their arrivals and bytes allow; a set phase arrives at its set once and
waits. Without an arrival no phase completes, also where exits have brought the count to 0 (log 84). -/
def Group.settle : Nat → Group → Nat → Nat → Group
  | 0, g, _, _ => g
  | fuel + 1, g, clock, b =>
    let x := g.bar b
    if x.c ≤ x.arrivals ∧ x.pending = 0 ∧ 0 < x.arrivals then
      if (x.sets.lookup x.phase).isSome then g.setBar b fun y => { y with sent := true }
      else Group.settle fuel (g.complete clock b) clock b
    else g

/-- Settle a barrier: no more phases complete than it has arrivals. -/
def Group.settleBar (g : Group) (clock b : Nat) : Group := Group.settle ((g.bar b).arrivals + 1) g clock b

/-- `Arrive(b, t)` (R206): the ticket, the count, the set that the first `.set` or `.swap` of its phase names,
Settle. -/
def Group.arrive (g : Group) (clock b : Nat) (k : Key) (set : Option (Nat × Bool)) : Group :=
  let x := g.bar b
  let ticket := (x.phase + x.arrivals / Nat.max x.c 1) % 2 ^ 32
  let g := g.modify k fun t => if t.place = .exited then t else t.setTicket b (some ticket)
  let g := g.setBar b fun y =>
    { y with arrivals := y.arrivals + 1
             sets := match set with
               | some e => if y.sets.any (fun z => z.1 = ticket) then y.sets else (ticket, e) :: y.sets
               | none => y.sets }
  g.settleBar clock b

/-- Bytes are added to a barrier's pending counter, saturating (R208). -/
def Group.expect (g : Group) (clock b n : Nat) : Group :=
  (g.setBar b fun x => { x with pending := Nat.min (x.pending + n) (2 ^ 56 - 1) }).settleBar clock b

/-- A change of a group's barriers: where one has now arrived at its set, a release at device scope, the group's pins end
(R186, R211). -/
def State.onBars (s : State) (gi : Nat) (f : Group → Group) : State :=
  match s.groups[gi]? with
  | none => s
  | some g =>
    let g' := f g
    let s := s.setGroup gi fun _ => g'
    if (g'.bars.zip g.bars).any fun x => x.1.sent && !x.2.sent then s.unpin g.uid else s

/-- The accesses of a thread that an arrival made now orders and that have not performed: STX stores that are not acknowledged,
and requests that another chip has not answered (R206, R211). -/
def State.arriveIds (s : State) (g : Group) (k : Key) : List Nat :=
  (g.stx.filter fun x => x.key = k).map Stx.id
    ++ (s.fab.reqs.filter fun r => r.group = g.uid && r.key = k && r.cls = 1).map Req.tag

/-- One of some accesses of a group has still to perform. -/
def State.arriveWaits (s : State) (g : Group) (ids : List Nat) : Bool :=
  ids.any fun i => g.stx.any (fun x => x.id = i) || s.fab.reqs.any fun r => r.tag = i

/-- An arrival, made now or once what comes before it has performed (R206, R211). -/
def State.arriveNow (s : State) (gi : Nat) (a : Arrival) : State :=
  match s.groups[gi]? with
  | none => s
  | some g =>
    if s.arriveWaits g a.after then s.setGroup gi fun g => { g with arvs := g.arvs ++ [a] }
    else s.onBars gi fun g => g.arrive s.clock a.bar a.key a.set

/-- A thread's arrival, which waits for its accesses so far (R206, R211). -/
def State.arriveAt (s : State) (gi b : Nat) (k : Key) (set : Option (Nat × Bool)) : State :=
  match s.groups[gi]? with
  | none => s
  | some g => s.arriveNow gi { key := k, bar := b, set := set, after := s.arriveIds g k }

/-- The arrivals of a group that have waited, each tried again in order (R206). -/
def State.retryArrivals (s : State) (gi : Nat) : State :=
  match s.groups[gi]? with
  | none => s
  | some g => g.arvs.foldl (fun s a => s.arriveNow gi a) (s.setGroup gi fun g => { g with arvs := [] })

/-- Every arrival of the package that has waited is tried again. -/
def State.retryAll (s : State) : State := (List.range s.groups.length).foldl State.retryArrivals s

/-- Bytes are subtracted from a barrier of a group of the state, the excess counted (R208). -/
def State.subtract (s : State) (gi b n : Nat) : State :=
  match s.groups[gi]? with
  | none => s
  | some g =>
    let lost := n - (g.bar b).pending
    let s := if lost = 0 then s else s.count g.cl 11 lost
    s.onBars gi fun g => (g.setBar b fun x => { x with pending := x.pending - n }).settleBar s.clock b

/-- A thread's exit lowers every barrier whose count took the default (R207). -/
def Group.exitBars (g : Group) (clock : Nat) : Group :=
  (List.range g.bars.length).foldl (fun g b =>
    if (g.bar b).dflt then (g.setBar b fun x => { x with c := x.c - 1 }).settleBar clock b else g) g

end Sys2Proof.Machine
end

