-- ==== Sys2Proof/Machine/Alu.lean ====
section
/-! DEFINITION. The integer, bit and predicate instructions (R86 to R95) and their base forms (R72). -/

namespace Sys2Proof.Machine

/-! ### What they compute -/

/-- ADD (R87). -/
def addVal (c : Cx) (t : Thread) : List (Reg × Word) := c.dst (c.int t 1 + c.int t 2)
/-- SUB (R87). -/
def subVal (c : Cx) (t : Thread) : List (Reg × Word) := c.dst (c.int t 1 - c.int t 2)
/-- MUL (R87). -/
def mulVal (c : Cx) (t : Thread) : List (Reg × Word) := c.dst (c.int t 1 * c.int t 2)
/-- MULH: the high half of the exact product (R87). -/
def mulhVal (c : Cx) (t : Thread) : List (Reg × Word) := c.dst (c.int t 1 * c.int t 2 / 2 ^ (32 * c.n))
/-- MAD (R87). -/
def madVal (c : Cx) (t : Thread) : List (Reg × Word) := c.dst (c.int t 1 * c.int t 2 + c.int t 3)
/-- DIV: toward zero; all ones for a zero divisor (R87). -/
def divVal (c : Cx) (t : Thread) : List (Reg × Word) :=
  c.dst (if c.int t 2 = 0 then -1 else (c.int t 1).tdiv (c.int t 2))
/-- MIN (R87). -/
def minVal (c : Cx) (t : Thread) : List (Reg × Word) := c.dst (Min.min (c.int t 1) (c.int t 2))
/-- MAX (R87). -/
def maxVal (c : Cx) (t : Thread) : List (Reg × Word) := c.dst (Max.max (c.int t 1) (c.int t 2))
/-- LEA (R90). -/
def leaVal (c : Cx) (t : Thread) : List (Reg × Word) := c.dstN 2 (c.g.address t c.e 2 64 c.e.lo.toNat)

/-- The range of an integer type code (R82). -/
def intRange (ty : Nat) : Int × Int :=
  let w := 8 * 2 ^ (ty % 4)
  if ty < 4 then (-2 ^ (w - 1), 2 ^ (w - 1) - 1) else (0, 2 ^ w - 1)

/-- A number read as an integer type (R82). -/
def readInt (ty x : Nat) : Int :=
  let w := 8 * 2 ^ (ty % 4)
  if ty < 4 then sext w x else (x % 2 ^ w : Nat)

/-- An integer written as an integer type, filled to its registers: copies of the sign bit for `.i`, zeros for `.n`
(R82). -/
def writeInt (ty : Nat) (x : Int) : Nat :=
  let w := 8 * 2 ^ (ty % 4)
  let y := wrap w x
  let full := if w = 64 then 64 else 32
  if ty < 4 then wrap full (sext w y) else y

/-- CVTI: clamped to the destination type (R91). -/
def cvtiVal (c : Cx) (t : Thread) : List (Reg × Word) :=
  let (lo, hi) := intRange c.e.ty.toNat
  let x := readInt c.e.lo.toNat (c.g.arg t c.o c.e c.e.srcRegs 1)
  c.dstN c.n (writeInt c.e.ty.toNat (Max.max lo (Min.min hi x)))

/-- SHL (R92). -/
def shlVal (c : Cx) (t : Thread) : List (Reg × Word) := c.dst (c.nat t 1 * 2 ^ (c.nat t 2 % (32 * c.n)) : Nat)
/-- SHRL (R92). -/
def shrlVal (c : Cx) (t : Thread) : List (Reg × Word) := c.dst (c.nat t 1 / 2 ^ (c.nat t 2 % (32 * c.n)) : Nat)
/-- SHRA (R92). -/
def shraVal (c : Cx) (t : Thread) : List (Reg × Word) :=
  c.dst (sext (32 * c.n) (c.nat t 1) / 2 ^ (c.nat t 2 % (32 * c.n)))
/-- ROT to the left (R92). -/
def rotVal (c : Cx) (t : Thread) : List (Reg × Word) :=
  let k := c.nat t 2 % (32 * c.n)
  c.dst (c.nat t 1 * 2 ^ k + c.nat t 1 / 2 ^ (32 * c.n - k) : Nat)
/-- AND (R92). -/
def andVal (c : Cx) (t : Thread) : List (Reg × Word) := c.dst (c.nat t 1 &&& c.nat t 2 : Nat)
/-- OR (R92). -/
def orVal (c : Cx) (t : Thread) : List (Reg × Word) := c.dst (c.nat t 1 ||| c.nat t 2 : Nat)
/-- XOR (R92). -/
def xorVal (c : Cx) (t : Thread) : List (Reg × Word) := c.dst (c.nat t 1 ^^^ c.nat t 2 : Nat)
/-- The complement in the width of the type. -/
def Cx.compl (c : Cx) (x : Nat) : Nat := 2 ^ (32 * c.n) - 1 - x % 2 ^ (32 * c.n)
/-- ANDN (R92). -/
def andnVal (c : Cx) (t : Thread) : List (Reg × Word) := c.dst (c.nat t 1 &&& c.compl (c.nat t 2) : Nat)

/-- BFE (R93). -/
def bfeVal (c : Cx) (t : Thread) : List (Reg × Word) :=
  let x := c.nat t 2
  let pos := field x 0 8
  let len := field x 8 8
  let w := 32 * c.n
  if len = 0 ∨ w ≤ pos then c.dst 0
  else
    let n := Nat.min len (w - pos)
    let f := field (c.nat t 1) pos n
    c.dst (if c.e.ty = 2 ∨ c.e.ty = 3 then sext n f else f)

/-- BFI (R93). -/
def bfiVal (c : Cx) (t : Thread) : List (Reg × Word) :=
  let x := c.nat t 3
  let pos := field x 0 8
  let len := field x 8 8
  let w := 32 * c.n
  if len = 0 ∨ w ≤ pos then c.dst (c.nat t 1)
  else
    let n := Nat.min len (w - pos)
    let m := (2 ^ n - 1) * 2 ^ pos
    c.dst ((c.nat t 1 &&& c.compl m) ||| (field (c.nat t 2) 0 n * 2 ^ pos) : Nat)

/-- The number of 1 bits below a width (R92). -/
def popcount (w x : Nat) : Nat := ((List.range w).filter fun i => bitAt x i).length
/-- The number of leading zeros in a width (R92). -/
def leadingZeros (w x : Nat) : Nat := if x = 0 then w else w - 1 - Nat.log2 x
/-- The number of trailing zeros in a width (R92). -/
def trailingZeros (w x : Nat) : Nat := ((List.range w).find? fun i => bitAt x i).getD w
/-- The bits of a width in the other order (R92). -/
def bitReverse (w x : Nat) : Nat := ((List.range w).map fun i => if bitAt x i then 2 ^ (w - 1 - i) else 0).sum

/-- PERMB (R94). -/
def permbVal (c : Cx) (t : Thread) : List (Reg × Word) :=
  let src := c.nat t 2 * 2 ^ 32 + c.nat t 1
  let byte (i : Nat) : Nat :=
    let q := field (c.nat t 3) (4 * i) 4
    if 8 ≤ q then 0 else field src (8 * (q % 8)) 8
  c.dst (byte 0 + byte 1 * 2 ^ 8 + byte 2 * 2 ^ 16 + byte 3 * 2 ^ 24 : Nat)

/-- PLOP (R95). -/
def plopVal (c : Cx) (t : Thread) : List (Reg × Word) :=
  c.dstP 0 (truthTable c.e.imm.toNat (t.pred c.e.op1.index) (t.pred c.e.op2.index) (t.pred c.e.op3.index))

/-- PMOV in its two forms (R95). -/
def pmovVal (c : Cx) (t : Thread) : List (Reg × Word) :=
  match c.e.op0 with
  | .k _ => c.dstP 0 (c.g.src t 1 c.e.op1 != 0)
  | _ => c.dstN 1 (if t.pred c.e.op1.index then 1 else 0)

/-! ### The extended forms -/

/-- ADD (R87). -/
def execAdd (e : Ext) (s : State) : Host.Outcome State Fault Refusal := issueE .add e s (lanes addVal)
/-- SUB (R87). -/
def execSub (e : Ext) (s : State) : Host.Outcome State Fault Refusal := issueE .sub e s (lanes subVal)
/-- MUL (R87). -/
def execMul (e : Ext) (s : State) : Host.Outcome State Fault Refusal := issueE .mul e s (lanes mulVal)
/-- MULH (R87). -/
def execMulh (e : Ext) (s : State) : Host.Outcome State Fault Refusal := issueE .mulh e s (lanes mulhVal)
/-- MAD (R87). -/
def execMad (e : Ext) (s : State) : Host.Outcome State Fault Refusal := issueE .mad e s (lanes madVal)
/-- DIV, which may name a flag (R84, R87). -/
def execDiv (e : Ext) (s : State) : Host.Outcome State Fault Refusal := issueE .div e s (lanesOut divVal)
/-- MIN (R87). -/
def execMin (e : Ext) (s : State) : Host.Outcome State Fault Refusal := issueE .min e s (lanes minVal)
/-- MAX (R87). -/
def execMax (e : Ext) (s : State) : Host.Outcome State Fault Refusal := issueE .max e s (lanes maxVal)
/-- ABS (R87). -/
def execAbs (e : Ext) (s : State) : Host.Outcome State Fault Refusal :=
  issueE .abs e s (lanes fun c t => c.dst |c.int t 1|)
/-- NEG (R87). -/
def execNeg (e : Ext) (s : State) : Host.Outcome State Fault Refusal :=
  issueE .neg e s (lanes fun c t => c.dst (-c.int t 1))
/-- LEA (R90). -/
def execLea (e : Ext) (s : State) : Host.Outcome State Fault Refusal := issueE .lea e s (lanes leaVal)
/-- CMP (R88). -/
def execCmp (e : Ext) (s : State) : Host.Outcome State Fault Refusal :=
  issueE .cmp e s (lanes fun c t => c.dstP 0 (condInt c.e.lo.toNat (c.int t 1) (c.int t 2)))
/-- SEL (R89). -/
def execSel (e : Ext) (s : State) : Host.Outcome State Fault Refusal :=
  issueE .sel e s (lanes fun c t => c.dst (if t.pred c.e.op1.index then c.nat t 2 else c.nat t 3 : Nat))
/-- MOV (R89). -/
def execMov (e : Ext) (s : State) : Host.Outcome State Fault Refusal :=
  issueE .mov e s (lanes fun c t => c.dst (c.nat t 1))
/-- MOVI (R89). -/
def execMovi (e : Ext) (s : State) : Host.Outcome State Fault Refusal :=
  issueE .movi e s (lanes fun c _ => c.dst (match c.e.lit with
    | some x => (x.toNat : Int)
    | none => sext 20 c.e.imm.toNat))
/-- CVTI (R91). -/
def execCvti (e : Ext) (s : State) : Host.Outcome State Fault Refusal := issueE .cvti e s (lanes cvtiVal)
/-- AND (R92). -/
def execAnd (e : Ext) (s : State) : Host.Outcome State Fault Refusal := issueE .and e s (lanes andVal)
/-- OR (R92). -/
def execOr (e : Ext) (s : State) : Host.Outcome State Fault Refusal := issueE .or e s (lanes orVal)
/-- XOR (R92). -/
def execXor (e : Ext) (s : State) : Host.Outcome State Fault Refusal := issueE .xor e s (lanes xorVal)
/-- ANDN (R92). -/
def execAndn (e : Ext) (s : State) : Host.Outcome State Fault Refusal := issueE .andn e s (lanes andnVal)
/-- NOT (R92). -/
def execNot (e : Ext) (s : State) : Host.Outcome State Fault Refusal :=
  issueE .not e s (lanes fun c t => c.dst (c.compl (c.nat t 1)))
/-- SHL (R92). -/
def execShl (e : Ext) (s : State) : Host.Outcome State Fault Refusal := issueE .shl e s (lanes shlVal)
/-- SHRL (R92). -/
def execShrl (e : Ext) (s : State) : Host.Outcome State Fault Refusal := issueE .shrl e s (lanes shrlVal)
/-- SHRA (R92). -/
def execShra (e : Ext) (s : State) : Host.Outcome State Fault Refusal := issueE .shra e s (lanes shraVal)
/-- ROT (R92). -/
def execRot (e : Ext) (s : State) : Host.Outcome State Fault Refusal := issueE .rot e s (lanes rotVal)
/-- BFE (R93). -/
def execBfe (e : Ext) (s : State) : Host.Outcome State Fault Refusal := issueE .bfe e s (lanes bfeVal)
/-- BFI (R93). -/
def execBfi (e : Ext) (s : State) : Host.Outcome State Fault Refusal := issueE .bfi e s (lanes bfiVal)
/-- POPC (R92). -/
def execPopc (e : Ext) (s : State) : Host.Outcome State Fault Refusal :=
  issueE .popc e s (lanes fun c t => c.dstN 1 (popcount (32 * c.n) (c.nat t 1)))
/-- CLZ (R92). -/
def execClz (e : Ext) (s : State) : Host.Outcome State Fault Refusal :=
  issueE .clz e s (lanes fun c t => c.dstN 1 (leadingZeros (32 * c.n) (c.nat t 1)))
/-- CTZ (R92). -/
def execCtz (e : Ext) (s : State) : Host.Outcome State Fault Refusal :=
  issueE .ctz e s (lanes fun c t => c.dstN 1 (trailingZeros (32 * c.n) (c.nat t 1)))
/-- BREV (R92). -/
def execBrev (e : Ext) (s : State) : Host.Outcome State Fault Refusal :=
  issueE .brev e s (lanes fun c t => c.dst (bitReverse (32 * c.n) (c.nat t 1)))
/-- PERMB (R94). -/
def execPermb (e : Ext) (s : State) : Host.Outcome State Fault Refusal := issueE .permb e s (lanes permbVal)
/-- PLOP (R95). -/
def execPlop (e : Ext) (s : State) : Host.Outcome State Fault Refusal := issueE .plop e s (lanes plopVal)
/-- PMOV (R95). -/
def execPmov (e : Ext) (s : State) : Host.Outcome State Fault Refusal := issueE .pmov e s (lanes pmovVal)

/-! ### The base forms (R72) -/

/-- `ADD.n32 Vd, Va, Vb`. -/
def execAddBase (b : Base) (s : State) : Host.Outcome State Fault Refusal := issueB 1 .add b 6 false s (lanes addVal)
/-- `SUB.n32 Vd, Va, Vb`. -/
def execSubBase (b : Base) (s : State) : Host.Outcome State Fault Refusal := issueB 2 .sub b 6 false s (lanes subVal)
/-- `MUL.n32 Vd, Va, Vb`. -/
def execMulBase (b : Base) (s : State) : Host.Outcome State Fault Refusal := issueB 3 .mul b 6 false s (lanes mulVal)
/-- `AND.n32 Vd, Va, Vb`. -/
def execAndBase (b : Base) (s : State) : Host.Outcome State Fault Refusal := issueB 4 .and b 6 false s (lanes andVal)
/-- `OR.n32 Vd, Va, Vb`. -/
def execOrBase (b : Base) (s : State) : Host.Outcome State Fault Refusal := issueB 5 .or b 6 false s (lanes orVal)
/-- `XOR.n32 Vd, Va, Vb`. -/
def execXorBase (b : Base) (s : State) : Host.Outcome State Fault Refusal := issueB 6 .xor b 6 false s (lanes xorVal)
/-- `ANDN.n32 Vd, Va, Vb`. -/
def execAndnBase (b : Base) (s : State) : Host.Outcome State Fault Refusal := issueB 7 .andn b 6 false s (lanes andnVal)
/-- `SHL.n32 Vd, Va, Vb`. -/
def execShlBase (b : Base) (s : State) : Host.Outcome State Fault Refusal := issueB 8 .shl b 6 false s (lanes shlVal)
/-- `SHRL.n32 Vd, Va, Vb`. -/
def execShrlBase (b : Base) (s : State) : Host.Outcome State Fault Refusal := issueB 9 .shrl b 6 false s (lanes shrlVal)
/-- `SHRA.i32 Vd, Va, Vb`. -/
def execShraBase (b : Base) (s : State) : Host.Outcome State Fault Refusal := issueB 10 .shra b 2 false s (lanes shraVal)
/-- `MIN.i32 Vd, Va, Vb`. -/
def execMinI32Base (b : Base) (s : State) : Host.Outcome State Fault Refusal := issueB 11 .min b 2 false s (lanes minVal)
/-- `MAX.i32 Vd, Va, Vb`. -/
def execMaxI32Base (b : Base) (s : State) : Host.Outcome State Fault Refusal := issueB 12 .max b 2 false s (lanes maxVal)
/-- `MIN.n32 Vd, Va, Vb`. -/
def execMinN32Base (b : Base) (s : State) : Host.Outcome State Fault Refusal := issueB 13 .min b 6 false s (lanes minVal)
/-- `MAX.n32 Vd, Va, Vb`. -/
def execMaxN32Base (b : Base) (s : State) : Host.Outcome State Fault Refusal := issueB 14 .max b 6 false s (lanes maxVal)
/-- `MAD.n32 Vd, Va, Vb, Vd`. -/
def execMadBase (b : Base) (s : State) : Host.Outcome State Fault Refusal := issueB 23 .mad b 6 true s (lanes madVal)
/-- `ROT.n32 Vd, Va, Vb`. -/
def execRotBase (b : Base) (s : State) : Host.Outcome State Fault Refusal := issueB 24 .rot b 6 false s (lanes rotVal)

end Sys2Proof.Machine
end

