-- ==== Sys2Proof/Machine/FloatOps.lean ====
section
/-! DEFINITION. The floating-point instructions (R96 to R101), the special functions (R102, R103) and the base forms of
the first (R72). -/

namespace Sys2Proof.Machine

/-- A floating-point source of a type code: a register's or literal's bits, or a small immediate's integer value, in
both elements of a packed type (R33, R82). -/
def Group.fsrc (g : Group) (t : Thread) (o : Op) (e : Ext) (ty k : Nat) : Nat :=
  match litAt o e k, e.opnd k with
  | none, .k i =>
    let x := (fmtOfType ty).round .rne (FVal.ofInt (sext 8 i.toNat))
    if ty = 12 ∨ ty = 13 then x + 2 ^ 16 * x else x
  | _, _ =>
    let x := g.arg t o e (regsOfType ty) k
    if ty = 10 ∨ ty = 11 then x % 2 ^ 16 else x

/-- Operand k in the instruction's type. -/
def Cx.f (c : Cx) (t : Thread) (k : Nat) : Nat := c.g.fsrc t c.o c.e c.e.ty.toNat k
/-- The format of the instruction's type. -/
def Cx.fmt (c : Cx) : Fmt := fmtOfType c.e.ty.toNat
/-- The rounding mode of RM 0 to 4 (R40). -/
def Cx.rm (c : Cx) : Mode := Mode.ofCode c.e.rm.toNat

/-- A function of the type on one value, or on each element of a packed pair (R33, R97). -/
def Cx.each2 (c : Cx) (f : Nat → Nat → Nat) (x y : Nat) : Nat :=
  if c.e.ty = 12 ∨ c.e.ty = 13 then
    f (x % 2 ^ 16) (y % 2 ^ 16) + 2 ^ 16 * f (x / 2 ^ 16 % 2 ^ 16) (y / 2 ^ 16 % 2 ^ 16)
  else f x y

/-- FADD (R97). -/
def faddVal (c : Cx) (t : Thread) : List (Reg × Word) := c.dstN c.n (c.each2 (c.fmt.add c.rm) (c.f t 1) (c.f t 2))
/-- FSUB (R97). -/
def fsubVal (c : Cx) (t : Thread) : List (Reg × Word) := c.dstN c.n (c.each2 (c.fmt.sub c.rm) (c.f t 1) (c.f t 2))
/-- FMUL (R97). -/
def fmulVal (c : Cx) (t : Thread) : List (Reg × Word) := c.dstN c.n (c.each2 (c.fmt.mul c.rm) (c.f t 1) (c.f t 2))
/-- FFMA (R97). -/
def ffmaVal (c : Cx) (t : Thread) : List (Reg × Word) := c.dstN c.n (c.fmt.fma c.rm (c.f t 1) (c.f t 2) (c.f t 3))
/-- FMIN (R98). -/
def fminVal (c : Cx) (t : Thread) : List (Reg × Word) := c.dstN c.n (c.each2 (c.fmt.minmax false) (c.f t 1) (c.f t 2))
/-- FMAX (R98). -/
def fmaxVal (c : Cx) (t : Thread) : List (Reg × Word) := c.dstN c.n (c.each2 (c.fmt.minmax true) (c.f t 1) (c.f t 2))
/-- PFMA, rounded per element (R97). -/
def pfmaVal (c : Cx) (t : Thread) : List (Reg × Word) :=
  let el (x i : Nat) : Nat := x / 2 ^ (16 * i) % 2 ^ 16
  let r (i : Nat) : Nat := c.fmt.fma c.rm (el (c.f t 1) i) (el (c.f t 2) i) (el (c.f t 3) i)
  c.dstN 1 (r 0 + 2 ^ 16 * r 1)
/-- FDOT2: c is FP32 (R97). -/
def fdot2Val (c : Cx) (t : Thread) : List (Reg × Word) :=
  let el (x i : Nat) : Nat := x / 2 ^ (16 * i) % 2 ^ 16
  let a := c.f t 1
  let b := c.f t 2
  c.dstN 1 (c.fmt.dot2 c.rm (el a 0) (el b 0) (el a 1) (el b 1) (c.g.fsrc t c.o c.e 9 3))
/-- FCMP (R99). -/
def fcmpVal (c : Cx) (t : Thread) : List (Reg × Word) :=
  c.dstP 0 (condFloat (c.e.lo.toNat % 8) (8 ≤ c.e.lo.toNat) (c.fmt.decode (c.f t 1)) (c.fmt.decode (c.f t 2)))
/-- FFREXP: the fraction to OP0, then the exponent to OP1, which stays where both are one register (R101; log 100). -/
def ffrexpVal (c : Cx) (t : Thread) : List (Reg × Word) :=
  let (f, x) := c.fmt.frexp (c.f t 2)
  c.e.op0.writes 1 f ++ c.e.op1.writes 1 (wrap 32 x)

/-- An instruction with an `.f64` form: that form's result is flagged or scoreboarded (R22). -/
def lanesF64 (f : Cx → Thread → List (Reg × Word)) (c : Cx) (s : State) : Act :=
  if c.e.ty = 8 then lanesOut f c s else lanes f c s

/-- A special function of one operand (R102). -/
def special (f : Mode → Nat → Nat) (c : Cx) (t : Thread) : List (Reg × Word) := c.dstN 1 (f c.rm (c.f t 1))

/-- FADD (R97). -/
def execFadd (e : Ext) (s : State) : Host.Outcome State Fault Refusal := issueE .fadd e s (lanesF64 faddVal)
/-- FSUB (R97). -/
def execFsub (e : Ext) (s : State) : Host.Outcome State Fault Refusal := issueE .fsub e s (lanes fsubVal)
/-- FMUL (R97). -/
def execFmul (e : Ext) (s : State) : Host.Outcome State Fault Refusal := issueE .fmul e s (lanesF64 fmulVal)
/-- FFMA (R97). -/
def execFfma (e : Ext) (s : State) : Host.Outcome State Fault Refusal := issueE .ffma e s (lanesF64 ffmaVal)
/-- FMIN (R98). -/
def execFmin (e : Ext) (s : State) : Host.Outcome State Fault Refusal := issueE .fmin e s (lanes fminVal)
/-- FMAX (R98). -/
def execFmax (e : Ext) (s : State) : Host.Outcome State Fault Refusal := issueE .fmax e s (lanes fmaxVal)
/-- FCMP (R99). -/
def execFcmp (e : Ext) (s : State) : Host.Outcome State Fault Refusal := issueE .fcmp e s (lanesF64 fcmpVal)
/-- FCLASS (R100). -/
def execFclass (e : Ext) (s : State) : Host.Outcome State Fault Refusal :=
  issueE .fclass e s (lanes fun c t => c.dstN 1 (c.fmt.classify (c.f t 1)))
/-- FROUND (R101). -/
def execFround (e : Ext) (s : State) : Host.Outcome State Fault Refusal :=
  issueE .fround e s (lanes fun c t => c.dstN 1 (c.fmt.roundIntegral c.rm (c.f t 1)))
/-- FLDEXP (R101). -/
def execFldexp (e : Ext) (s : State) : Host.Outcome State Fault Refusal :=
  issueE .fldexp e s (lanes fun c t => c.dstN 1 (c.fmt.ldexp c.rm (c.f t 1) (sext 32 (c.g.arg t c.o c.e 1 2))))
/-- FFREXP (R101). -/
def execFfrexp (e : Ext) (s : State) : Host.Outcome State Fault Refusal := issueE .ffrexp e s (lanes ffrexpVal)
/-- PFMA (R97). -/
def execPfma (e : Ext) (s : State) : Host.Outcome State Fault Refusal := issueE .pfma e s (lanes pfmaVal)
/-- FDOT2 (R97). -/
def execFdot2 (e : Ext) (s : State) : Host.Outcome State Fault Refusal := issueE .fdot2 e s (lanes fdot2Val)
/-- FRCP (R102, R103). -/
def execFrcp (e : Ext) (s : State) : Host.Outcome State Fault Refusal := issueE .frcp e s (lanesOut (special frcp))
/-- FRSQ (R102, R103). -/
def execFrsq (e : Ext) (s : State) : Host.Outcome State Fault Refusal := issueE .frsq e s (lanesOut (special frsq))
/-- FSQRT (R102, R103). -/
def execFsqrt (e : Ext) (s : State) : Host.Outcome State Fault Refusal := issueE .fsqrt e s (lanesOut (special fsqrt))
/-- FDIV (R102, R103). -/
def execFdiv (e : Ext) (s : State) : Host.Outcome State Fault Refusal :=
  issueE .fdiv e s (lanesOut fun c t => c.dstN 1 (fdiv c.rm (c.f t 1) (c.f t 2)))
/-- FEXP2 (R102, R103). -/
def execFexp2 (e : Ext) (s : State) : Host.Outcome State Fault Refusal := issueE .fexp2 e s (lanesOut (special fexp2))
/-- FLOG2 (R102, R103). -/
def execFlog2 (e : Ext) (s : State) : Host.Outcome State Fault Refusal := issueE .flog2 e s (lanesOut (special flog2))
/-- FSINP (R102, R103). -/
def execFsinp (e : Ext) (s : State) : Host.Outcome State Fault Refusal := issueE .fsinp e s (lanesOut (special fsinp))
/-- FCOSP (R102, R103). -/
def execFcosp (e : Ext) (s : State) : Host.Outcome State Fault Refusal := issueE .fcosp e s (lanesOut (special fcosp))

/-- `FADD.f32.rne Vd, Va, Vb` (R72). -/
def execFaddBase (b : Base) (s : State) : Host.Outcome State Fault Refusal := issueB 15 .fadd b 9 false s (lanes faddVal)
/-- `FSUB.f32.rne Vd, Va, Vb` (R72). -/
def execFsubBase (b : Base) (s : State) : Host.Outcome State Fault Refusal := issueB 16 .fsub b 9 false s (lanes fsubVal)
/-- `FMUL.f32.rne Vd, Va, Vb` (R72). -/
def execFmulBase (b : Base) (s : State) : Host.Outcome State Fault Refusal := issueB 17 .fmul b 9 false s (lanes fmulVal)
/-- `FMIN.f32 Vd, Va, Vb` (R72). -/
def execFminBase (b : Base) (s : State) : Host.Outcome State Fault Refusal := issueB 18 .fmin b 9 false s (lanes fminVal)
/-- `FMAX.f32 Vd, Va, Vb` (R72). -/
def execFmaxBase (b : Base) (s : State) : Host.Outcome State Fault Refusal := issueB 19 .fmax b 9 false s (lanes fmaxVal)
/-- `FFMA.f32.rne Vd, Va, Vb, Vd` (R72). -/
def execFfmaBase (b : Base) (s : State) : Host.Outcome State Fault Refusal := issueB 20 .ffma b 9 true s (lanes ffmaVal)
/-- `PFMA.bf16x2.rne Vd, Va, Vb, Vd` (R72). -/
def execPfmaBf16x2Base (b : Base) (s : State) : Host.Outcome State Fault Refusal :=
  issueB 21 .pfma b 12 true s (lanes pfmaVal)
/-- `PFMA.f16x2.rne Vd, Va, Vb, Vd` (R72). -/
def execPfmaF16x2Base (b : Base) (s : State) : Host.Outcome State Fault Refusal :=
  issueB 22 .pfma b 13 true s (lanes pfmaVal)

end Sys2Proof.Machine
end

