-- ==== Sys2Proof/Machine/Convert.lean ====
section
/-! DEFINITION. Conversions (R104 to R111): between standard formats, integers and slots, packing, random words. The
quantising of elements is here too, for QNT (R107, R45) and the copy unit. -/

namespace Sys2Proof.Machine

/-- CVT's draws: one for each element under SR (R43, R105). -/
def Cx.cvtDraws (c : Cx) : Nat := if c.e.rm = 5 then (if c.e.ty = 12 ∨ c.e.ty = 13 then 2 else 1) else 0

/-- CVT (R105). -/
def cvtVal (c : Cx) (t : Thread) : List (Reg × Word) :=
  let src := fmtOfType c.e.lo.toNat
  let one (k j : Nat) : Nat :=
    c.fmt.round (c.g.mode t c.e.rm.toNat j) (src.decode (c.g.fsrc t c.o c.e c.e.lo.toNat k))
  if c.e.ty = 12 ∨ c.e.ty = 13 then c.dstN 1 (one 1 0 + 2 ^ 16 * one 2 1) else c.dstN c.n (one 1 0)

/-- CVT: an `.f64` form's result is flagged or scoreboarded (R22, R105). -/
def cvtBody (c : Cx) (s : State) : Act :=
  if c.e.ty = 8 ∨ c.e.lo = 8 then
    match lanesOut cvtVal c s with
    | .done s' =>
      let drew (t : Thread) : Thread := if c.act.any (fun u => u.key = t.key) then t.drew c.cvtDraws else t
      .done (s'.setGroup c.gi fun g => { g with threads := g.threads.map drew })
    | a => a
  else lanesDraw c.cvtDraws cvtVal c s

/-- CVTF (R106). -/
def cvtfVal (c : Cx) (t : Thread) : List (Reg × Word) :=
  c.dstN 1 (c.fmt.round c.rm (FVal.ofInt (readInt c.e.lo.toNat (c.g.arg t c.o c.e c.e.srcRegs 1))))

/-- CVTN (R106). -/
def cvtnVal (c : Cx) (t : Thread) : List (Reg × Word) :=
  let (lo, hi) := intRange c.e.ty.toNat
  let x := (fmtOfType c.e.lo.toNat).decode (c.g.fsrc t c.o c.e c.e.lo.toNat 1)
  c.dstN c.n (writeInt c.e.ty.toNat (x.toIntClamped c.rm lo hi))

/-! ### Slots -/

/-- The slot of a conversion. -/
def Cx.slot (c : Cx) : Slot := Slot.ofWord (c.g.launch.ks.getD c.e.sc.toNat 0)
/-- The rounding code of a conversion, with the slot's RMODE for 7 (R40). -/
def Cx.rmCode (c : Cx) : Nat := if c.e.rm = 7 then c.slot.rmode else c.e.rm.toNat

/-- The codes of a register in its containers, element 0 lowest (R36). -/
def packCodes (container : Nat) (qs : List Nat) : Nat :=
  (qs.zipIdx.map fun (q, j) => q % 2 ^ container * 2 ^ (container * j)).sum
/-- The code in container j of a register (R36). -/
def codeAt (container x j : Nat) : Nat := field x (container * j) container

/-- The scale exponent of QNT and DQN from their operand (R107): none for E = 0xFF. -/
def Cx.sigma (c : Cx) (t : Thread) : Option Int :=
  match c.e.src with
  | 0 => some 0
  | 1 => some (sext 32 (c.g.src t 1 c.e.op2))
  | _ => let x := c.g.src t 1 c.e.op2 % 256; if x = 255 then none else some ((x : Int) - 127)

/-- One step of error feedback (R45): the code, its overflow and the new residue. -/
def efStep (k : Slot) (x ve : FVal) (t : Int) : Nat × Bool × Nat :=
  let y := FVal.sum .rne [x, ve]
  let (q, ov) := k.encode .rne (y.scale (-t))
  let fin := !y.isNan && !y.isInf
  (q, ov, if fin then f32.round .rne (FVal.sum .rne [y, ((k.decode q).scale t).neg]) else 0)

/-- The elements that a thread quantises: code, overflow, residue (R107). -/
def Cx.quantise (c : Cx) (t : Thread) (sig : Option Int) : List (Nat × Bool × Nat) :=
  let k := c.slot
  (List.range (c.e.lanes c.g.launch.ks)).map fun j =>
    let x := f32.decode (c.g.readV t (c.e.op1.index + j)).toNat
    let x := if sig.isNone then FVal.nan else x
    let sg := sig.getD 0
    if c.e.rm = 6 then efStep k x (f32.decode (c.g.readV t (c.e.op3.index + j)).toNat) sg
    else
      let (q, ov) := k.encode (c.g.mode t c.rmCode j) (x.scale (-sg))
      (q, ov, 0)

/-- The writes of a thread's quantised elements: the codes, and under `.ef` the residues (R107). -/
def Cx.qntWrites (c : Cx) (qs : List (Nat × Bool × Nat)) : List (Reg × Word) :=
  (if c.e.rm = 6 then qs.zipIdx.map fun (x, j) => (Reg.v (c.e.op3.index + j), BitVec.ofNat 32 x.2.2) else [])
    ++ c.dstN 1 (packCodes c.slot.container (qs.map fun x => x.1))

/-- QNT from its scale: every write, then RESCALE for every active thread where some element overflowed and OVFT is
set (R107, R108). -/
def qntFinish (addr : Nat) (sig : Thread → Option Int) (c : Cx) (s : State) : Act :=
  let qs := c.act.map fun t => (t.key, c.quantise t (sig t))
  let ovf (x : Key × List (Nat × Bool × Nat)) : Bool := x.2.any fun q => q.2.1
  let n := if c.rmCode = 5 then c.e.lanes c.g.launch.ks else 0
  let drew (t : Thread) : Thread := if c.act.any (fun u => u.key = t.key) then t.drew n else t
  let s := s.setGroup c.gi fun g =>
    let g := g.apply (qs.map fun x => (x.1, c.qntWrites x.2))
    { g with threads := g.threads.map drew }
  if c.slot.ovft && qs.any ovf then
    .after s (qs.map fun x => (x.1, { cls := 11, addr := addr
                                      info := c.e.op2.toBits.toNat + if ovf x then 2 ^ 16 else 0 }))
  else .done s

/-- DQN (R109). -/
def dqnVal (c : Cx) (t : Thread) : List (Reg × Word) :=
  let k := c.slot
  let x := (c.g.readV t c.e.op1.index).toNat
  (List.range (c.e.lanes c.g.launch.ks)).map fun j =>
    let v := match c.sigma t with
      | some sg => (k.decode (codeAt k.container x j)).scale sg
      | none => .nan
    (.v (c.e.op0.index + j), BitVec.ofNat 32 (f32.round c.rm v))

/-- PACK (R110). -/
def packVal (c : Cx) (t : Thread) : List (Reg × Word) :=
  let k := c.slot
  c.dstN 1 (packCodes k.container ((List.range (c.e.lanes c.g.launch.ks)).map fun j =>
    (c.g.readV t (c.e.op1.index + j)).toNat % 2 ^ k.w))

/-- UNPK: the codes of the containers, whose unused upper bits are ignored (R110, R36). -/
def unpkVal (c : Cx) (t : Thread) : List (Reg × Word) :=
  let x := (c.g.readV t c.e.op1.index).toNat
  (List.range (c.e.lanes c.g.launch.ks)).map fun j =>
    (.v (c.e.op0.index + j), BitVec.ofNat 32 (codeAt c.slot.container x j % 2 ^ c.slot.w))

/-- CVT (R105). -/
def execCvt (e : Ext) (s : State) : Host.Outcome State Fault Refusal := issueE .cvt e s cvtBody
/-- CVTF (R106). -/
def execCvtf (e : Ext) (s : State) : Host.Outcome State Fault Refusal := issueE .cvtf e s (lanes cvtfVal)
/-- CVTN (R106). -/
def execCvtn (e : Ext) (s : State) : Host.Outcome State Fault Refusal := issueE .cvtn e s (lanes cvtnVal)
/-- DQN (R109). -/
def execDqn (e : Ext) (s : State) : Host.Outcome State Fault Refusal := issueE .dqn e s (lanes dqnVal)
/-- PACK (R110). -/
def execPack (e : Ext) (s : State) : Host.Outcome State Fault Refusal := issueE .pack e s (lanes packVal)
/-- UNPK (R110). -/
def execUnpk (e : Ext) (s : State) : Host.Outcome State Fault Refusal := issueE .unpk e s (lanes unpkVal)
/-- RND (R44, R111). -/
def execRnd (e : Ext) (s : State) : Host.Outcome State Fault Refusal :=
  issueE .rnd e s (lanesDraw 1 fun c t => c.dstN 1 ((c.g.draw t 0).extractLsb' 32 32).toNat)

end Sys2Proof.Machine
end

