-- ==== Sys2Proof/Machine/Tensor.lean ====
section
/-! DEFINITION. Tensor descriptors (R298 to R300) and statistics records: contributions (R303, R304), windrow entries
and their merging (R169, R305), the record in memory (R301, R302), the derived exponent (R311). -/

namespace Sys2Proof.Machine

/-! ### Descriptors -/

/-- A descriptor as a use reads it (R299). -/
structure Desc where
  base : Nat
  record : Nat
  fmt : Nat
  slot : Nat
  rank : Nat
  tsc : Int
  ext : List Nat
  str : List Int
  deriving DecidableEq, Repr

/-- The 64 bytes of the descriptor that a handle names (R298, R299). -/
def State.descBits (s : State) (vf handle : Nat) : Nat := s.devNat vf ((s.vf vf).descBase + 64 * (handle % 2 ^ 20)) 64

/-- The fields of a descriptor (R299). -/
def Desc.of (x : Nat) : Desc :=
  let byte (o n : Nat) : Nat := field x (8 * o) (8 * n)
  { base := byte 0 8, record := byte 8 8, fmt := byte 20 1 % 16, slot := byte 20 1 / 16 % 8, rank := byte 21 1 % 8
    tsc := sext 8 (byte 22 1)
    ext := (List.range 4).map fun i => byte (24 + 4 * i) 4
    str := (List.range 3).map fun i => sext 64 (byte (40 + 8 * i) 8) }

/-- The descriptor of a handle does not serve it (R300 check 2). -/
def descStale (handle x : Nat) : Bool :=
  let byte (o n : Nat) : Nat := field x (8 * o) (8 * n)
  let d := Desc.of x
  handle % 2 ^ 20 = 0 || byte 20 1 / 128 = 0 || byte 18 2 != handle / 2 ^ 20 % 2 ^ 12
    || d.base / 2 ^ 56 != 0 || d.record % 256 != 0 || byte 21 1 / 8 != 0 || byte 23 1 != 0
    || !([0, 1, 2, 4, 5, 6, 9, 10, 11, 14].contains d.fmt) || d.rank = 0 || 4 < d.rank
    || (d.ext.zipIdx.any fun (x, i) => if i < d.rank then x = 0 else x != 0)
    || (d.str.zipIdx.any fun (x, i) => d.rank ≤ i + 1 && x != 0)

/-- The use of a handle by a group: its descriptor, or the fault that the checks of R300 find. -/
def State.tensor (s : State) (g : Group) (handle : Nat) (needRecord : Bool) : Except Flt Desc :=
  let x := s.descBits g.vf handle
  let d := Desc.of x
  if descStale handle x then .error { cls := 9, addr := handle }
  else if needRecord && d.record = 0 then .error { cls := 6 }
  else if d.fmt = 14 && !Slot.valid (g.launch.ks.getD d.slot 0) then .error { cls := 6 }
  else .ok d

/-- The element size of a tensor in bits (R36, R139). -/
def Desc.bits (d : Desc) (ks : List Word) : Nat := elemBits d.fmt (ks.getD d.slot 0)

/-- The address of an element (R139). -/
def Desc.address (d : Desc) (ks : List Word) (coords : List Nat) : Nat :=
  let inner : Int := ((coords.getD 0 0 * d.bits ks + 7) / 8 : Nat)
  let outer := (List.range 3).map fun i => if i + 1 < d.rank then (coords.getD (i + 1) 0 : Int) * d.str.getD i 0 else 0
  wrap 64 ((d.base : Int) + inner + outer.sum)

/-- The byte of an element and its first bit there; narrow codes are packed densely along dimension 0 (R36, R139). -/
def Desc.place (d : Desc) (ks : List Word) (coords : List Nat) : Nat × Nat :=
  let x := coords.getD 0 0 * d.bits ks
  let outer := (List.range 3).map fun i => if i + 1 < d.rank then (coords.getD (i + 1) 0 : Int) * d.str.getD i 0 else 0
  (wrap 64 ((d.base : Int) + (x / 8 : Nat) + outer.sum), x % 8)

/-- The first dimension in which an access of n elements at coordinates leaves the tensor (R139). -/
def Desc.outside (d : Desc) (coords : List Nat) (n : Nat) : Option Nat :=
  (List.range d.rank).find? fun i =>
    decide (d.ext.getD i 0 < coords.getD i 0 + (if i = 0 then n else 1))

/-- The value of an element in the descriptor's format, as a record takes it (R299, R303). -/
def Desc.value (d : Desc) (ks : List Word) (code : Nat) : FVal :=
  if d.fmt = 14 then ((Slot.ofWord (ks.getD d.slot 0)).decode code).scale d.tsc
  else if 8 ≤ d.fmt then (fmtOfType d.fmt).decode code
  else FVal.ofInt (readInt d.fmt code)

/-! ### Contributions -/

/-- No contribution. -/
def Stat.zero : Stat :=
  { amax := 0, flags := 0, zeros := 0, count := 0, nans := 0, infs := 0, ov := 0, bins := List.replicate 56 0 }

/-- Two counts of w bits added, saturating, with whether they did (R301, R303). -/
def satAdd (w a b : Nat) : Nat × Bool := if 2 ^ w ≤ a + b then (2 ^ w - 1, true) else (a + b, false)

/-- Contributions merged by maximum, saturating addition and or (R303). -/
def Stat.merge (a b : Stat) : Stat :=
  let z := satAdd 32 a.zeros b.zeros
  let c := satAdd 64 a.count b.count
  let n := satAdd 16 a.nans b.nans
  let i := satAdd 16 a.infs b.infs
  let o := satAdd 32 a.ov b.ov
  let bs := (a.bins.zip b.bins).map fun (x, y) => satAdd 32 x y
  let sat : Bool := z.2 || c.2 || n.2 || i.2 || o.2 || bs.any Prod.snd
  { amax := Nat.max a.amax b.amax, flags := (a.flags ||| b.flags) ||| (if sat then 8 else 0), zeros := z.1, count := c.1
    nans := n.1, infs := i.1, ov := o.1, bins := bs.map Prod.fst }

/-- `StatUpdate` of one value (R303). -/
def Stat.ofValue (x : FVal) : Stat :=
  match x with
  | .nan => { Stat.zero with nans := 1, flags := 1 }
  | .inf _ => { Stat.zero with infs := 1, flags := 2 }
  | .fin _ m e =>
    if m = 0 then { Stat.zero with zeros := 1 }
    else
      let a := f32.round .rup (.fin false m e)
      let top : Int := (Nat.log2 m : Int) + e
      let bin := (min (max (top + 40) 0) 55).toNat
      { Stat.zero with
        count := 1
        amax := Nat.min a 0x7F7FFFFF
        flags := if 0x7F7FFFFF < a then 8 else 0
        bins := Stat.zero.bins.set bin 1 }

/-- An overflow-only contribution of n elements (R303). -/
def Stat.overflow (n : Nat) : Stat :=
  if n = 0 then Stat.zero else { Stat.zero with ov := Nat.min n (2 ^ 32 - 1), flags := if 2 ^ 32 ≤ n then 12 else 4 }

/-- Several contributions as one. -/
def Stat.all (xs : List Stat) : Stat := xs.foldl Stat.merge Stat.zero

/-- The record of 256 bytes with its epoch (R301). -/
def Stat.bytes (x : Stat) (epoch : Nat) : List Byte :=
  natBytes 4 x.amax ++ natBytes 4 x.flags ++ natBytes 4 epoch ++ natBytes 4 x.zeros ++ natBytes 8 x.count
    ++ natBytes 2 x.nans ++ natBytes 2 x.infs ++ natBytes 4 x.ov ++ x.bins.flatMap (natBytes 4)

/-- A record from its bytes (R301). -/
def Stat.ofBytes (b : List Byte) : Stat :=
  let byte (o n : Nat) : Nat := leNat ((b.drop o).take n)
  { amax := byte 0 4, flags := byte 4 4, zeros := byte 12 4, count := byte 16 8, nans := byte 24 2, infs := byte 26 2
    ov := byte 28 4, bins := (List.range 56).map fun i => byte (32 + 4 * i) 4 }

/-- Where a record stands for a write on the T path: its physical address and arena handle; none where it is unreachable
(R304, R309). -/
def State.recordPlace (s : State) (vf addr : Nat) : Option (Nat × Nat) :=
  match s.xlateNow vf addr { w := true } with
  | .ok pa arena => if (s.vf vf).staleAt arena || (s.vf vf).sealedAt arena || inImport pa then none else some (pa, arena)
  | _ => none

/-- Contributions of a thread's group are discarded, and its cluster counts each (R296, R304, R395); a group that is resident no
more has no cluster. -/
def State.dropStat (s : State) (who : Nat × Key × Nat) : State :=
  match s.groups.find? fun g => g.uid = who.1 with
  | some g => s.count g.cl 14 who.2.2
  | none => s.note .stat

/-- The two lines of a record at its home are written with new contents (R301). -/
def State.writeRecord (s : State) (vf arena pa : Nat) (out : List Byte) : State :=
  (s.store none vf arena pa (out.take 128)).store none vf arena (pa + 128) (out.drop 128)

/-- The merge of an entry into a record at its home, unless that is unreachable, which each of its givers counts (R304, R305; log
93), or its arena has been dropped (R292); an entry with an uncorrectable error makes the record's first line ERRORED, for its
readers (R175). -/
def State.mergeHome (s : State) (w : Windrow) : State :=
  if (s.vf w.vf).staleAt w.arena then s
  else
    match s.recordPlace w.vf w.recVa with
    | none => w.givers.foldl State.dropStat s
    | some (pa, arena) =>
      let (s, b) := s.load pa 128
      let (s, b2) := s.load (pa + 128) 128
      let b := b ++ b2
      let s := s.writeRecord w.vf arena pa (((Stat.ofBytes b).merge w.stat).bytes (leNat ((b.drop 8).take 4)))
      if w.bad && !s.errs pa then { s with ms := { s.ms with errored := pa / 128 :: s.ms.errored } } else s

/-- The windrow entry of a list that was updated least recently. -/
def leastRecent (ws : List Windrow) : Option Windrow :=
  ws.foldl (fun a w => match a with
    | some b => if w.last < b.last then some w else a
    | none => some w) none

/-- The givers of an entry with n more contributions of one (R395). -/
def giveTo (who : Nat × Key) (n : Nat) (gs : List (Nat × Key × Nat)) : List (Nat × Key × Nat) :=
  let mine (x : Nat × Key × Nat) : Bool := x.1 = who.1 && x.2.1 = who.2
  if gs.any mine then gs.map fun x => if mine x then (x.1, x.2.1, x.2.2 + n) else x else (who.1, who.2, n) :: gs

/-- An entry leaves its slice for the record's home (R305). -/
def Windrow.leave (clock : Nat) (w : Windrow) : Windrow := { w with first := clock }

/-- n contributions made on a cluster, by a thread of a group, merge into the windrow entry of its die; a full buffer of its
slice first pushes the entry updated least recently (R169, R304, R305). -/
def State.contribute (s : State) (cl vf : Nat) (who : Nat × Key) (addr n : Nat) (x : Stat) : State :=
  if x = Stat.zero then s
  else
    match s.recordPlace vf addr with
    | none => s.count cl 14 n
    | some (pa, arena) =>
      let die := dieOf cl
      let mine (w : Windrow) : Bool := w.die = die && w.vf = vf && w.recVa = addr && w.arena = arena
      let now := s.hier.next
      let s := { s with hier := { s.hier with next := now + 1 } }
      let m := s.ms
      if m.windrows.any mine then
        let put (w : Windrow) : Windrow := if mine w then
            { w with stat := w.stat.merge x, last := now, givers := giveTo who n w.givers } else w
        { s with ms := { m with windrows := m.windrows.map put } }
      else
        let slice := hashOf pa % 48
        let full := m.windrows.filter fun w => w.die = die && w.slice = slice
        let new : Windrow := { id := s.uids + 1, givers := [(who.1, who.2, n)], die := die, slice := slice, vf := vf, recVa := addr
                               arena := arena, stat := x, first := s.clock, last := now, bad := false }
        let m := if full.length < 64 then m
          else match leastRecent full with
            | some old => { m with windrows := m.windrows.erase old, pushes := m.pushes ++ [old.leave s.clock] }
            | none => m
        { s with uids := s.uids + 1, ms := { m with windrows := m.windrows ++ [new] } }

/-- A record of a VF. -/
def Windrow.is (w : Windrow) (vf addr : Nat) : Bool := w.vf = vf && w.recVa = addr

/-- A line of the record is group-held, so that merges into it wait (R305). -/
def State.recordPinned (s : State) (vf addr : Nat) : Bool :=
  match s.recordPlace vf addr with
  | some (pa, _) => s.ms.refuses none (pa / 128) || s.ms.refuses none (pa / 128 + 1)
  | none => false

/-- Every windrow entry of the record is pushed and merged (R307 step 2). -/
def State.pushAll (s : State) (vf addr : Nat) : State :=
  let xs := (s.ms.pushes ++ s.ms.windrows).filter fun w => w.is vf addr
  let s := { s with ms := { s.ms with
    windrows := s.ms.windrows.filter fun w => !w.is vf addr
    pushes := s.ms.pushes.filter fun w => !w.is vf addr } }
  xs.foldl State.mergeHome s

/-- The record reset of STATRST (R310): entries discarded, the epoch advanced, every other field zero; of a SEALED arena it
is discarded, and the issuing cluster counts it (R309). -/
def State.resetRecord (s : State) (cl vf addr : Nat) : State :=
  match s.recordPlace vf addr with
  | none => s.count cl 14 1
  | some (pa, arena) =>
    let s := { s with ms := { s.ms with
      windrows := s.ms.windrows.filter fun w => !w.is vf addr
      pushes := s.ms.pushes.filter fun w => !w.is vf addr } }
    let (s, b) := s.load pa 128
    s.writeRecord vf arena pa (Stat.zero.bytes ((leNat ((b.drop 8).take 4) + 1) % 2 ^ 32))

/-- The scale exponent that a record gives a slot (R311). -/
def deriveExp (k : Slot) (amax : Nat) : Int :=
  match f32.decode amax with
  | .fin _ m e => if m = 0 then 0 else (Nat.log2 m : Int) + e - k.emax - k.margin
  | _ => 0

end Sys2Proof.Machine
end

