-- ==== Sys2Proof/Machine/Mem.lean ====
section
/-! DEFINITION. Loads, stores and prefetches of major 0x28 (R131 to R140), STX (R212): the checks of an access (R134),
the scratchpad's layout and checks (R138, R162 to R164), tensor accesses (R139). -/

namespace Sys2Proof.Machine

/-! ### Checks of an access -/

/-- What the checks of one thread's access find: its place, a page to wait for, or a fault. -/
inductive Chk where
  | ok (pa arena : Nat)
  | page (va : Nat)
  | bad (f : Flt)

/-- The checks of R134 from MISALIGNED on, with the copy of an imported window's state (R369); an answer FAIL for the
page gives its class (R367). -/
def State.checkVa (s : State) (c : Cx) (va width : Nat) (n : Need) : Chk :=
  let bad (cls : Nat) : Chk := .bad { cls := cls, addr := va, access := if n.w then 1 else 0 }
  if va % width != 0 then bad 4
  else if 2 ^ 56 ≤ va then bad 6
  else
    match s.xlate c.g.cl c.g.vf va n with
    | .ok pa arena =>
      if inImport pa && (s.importOf pa).revoked then bad 17
      else if n.w && (s.vf c.g.vf).sealedAt arena then bad 8
      else .ok pa arena
    | .denied => bad 6
    | _ =>
      match c.sh.hold with
      | .failed page cls => if page = va / 4096 then bad cls else .page va
      | _ => .page va

/-- An access that threads of an instruction have passed the checks for. -/
structure Hit where
  t : Thread
  pa : Nat
  arena : Nat

/-- The line that an access reaches is pinned against the group (R186). -/
def Cx.refused (c : Cx) (s : State) (pa : Nat) : Bool := s.ms.refuses (some c.g.uid) (pa / 128)

/-- The thread by which the issuing sheaf is known to wait. -/
def Cx.who (c : Cx) : Key := c.sh.members.headD { t := 0, gl := 0 }

/-- An access of the issuing sheaf to a line is refused by a pin and retried; it counts once (R186, R395). -/
def State.refuse (s : State) (c : Cx) (line : Nat) : State :=
  if s.ms.refused.contains (line, c.g.uid, c.who) then s
  else { s with ms := s.ms.noteRefused line c.g.uid c.who }.count c.g.cl 13 1

/-- THE GATE OF AN ACCESS (R134, R186): a fault of any thread leaves the instruction without effect; a missing page holds
the sheaf; a line pinned by another group refuses it for now; otherwise every thread's access goes on. -/
def gate (c : Cx) (s : State) (ts : List Thread) (chk : Thread → Chk) (w : Bool) (k : List Hit → State → Act) : Act :=
  let rs := ts.map fun t => (t, chk t)
  let bad := rs.filterMap fun x => match x.2 with
    | .bad f => some (x.1.key, f)
    | _ => none
  let pages := rs.filterMap fun x => match x.2 with
    | .page va => some va
    | _ => none
  let hits := rs.filterMap fun x => match x.2 with
    | .ok pa arena => some { t := x.1, pa := pa, arena := arena : Hit }
    | _ => none
  if !bad.isEmpty then .fault bad
  else
    match pages with
    | va :: _ => .stay (s.holdPage c va w false false)
    | [] =>
      match hits.find? fun h => c.refused s h.pa with
      | some h => .stay (s.refuse c (h.pa / 128))
      | none => k hits { s with ms := s.ms.served c.g.uid c.who }

/-! ### Loads and stores -/

/-- The bytes of a width code (R61, R133). -/
def Cx.width (c : Cx) : Nat := 2 ^ c.e.ty.toNat
/-- The registers of a width code (R133). -/
def Cx.wregs (c : Cx) : Nat := regsOfWidth c.e.ty.toNat

/-- The j-th value of this step that the specification leaves open (log 7). -/
def State.freeNat (s : State) (j n : Nat) : Nat :=
  wordsNat ((List.range n).map fun i => Config.freeWord (s.nonce * 65536 + 16 * j + i))

/-- The line of another chip that the cluster holds for the group (R186). -/
def Cx.far (c : Cx) (s : State) (pa : Nat) : Option FarLine :=
  if inImport pa then s.farHeld c.g.cl c.g.uid (pa / 128) else none

/-- The line of another chip that serves an access at cluster scope or narrower: the one held for the group, or the fill that has
come for this sheaf (R185, R186). -/
def Cx.near (c : Cx) (s : State) (pa : Nat) : Option FarLine :=
  (c.far s pa).or (if inImport pa then s.farFill c.g.cl c.g.uid (pa / 128) c.who else none)

/-- Bytes of a held line of another chip. -/
def FarLine.bytes (x : FarLine) (pa n : Nat) : List Byte := (x.data.drop (pa % 128)).take n

/-- Who asks another chip for a thread: its group, its key, the number of its result, and whether it acquires. -/
def Cx.asker (c : Cx) (k : Key) (out : Nat) : Asker := { group := c.g.uid, key := k, out := out, cls := 1, acq := c.acquires }

/-- The access has to perform at the home (R160): at cluster scope or wider it is an acquire; `.nofill` is served by the
cluster cache only where the line is present (R136). -/
def Cx.atHome (c : Cx) : Bool := c.acquires && 2 ≤ c.e.sc.toNat

/-- HINT: 1 `.keep`, 2 `.stream`, 3 `.nofill` (R132). -/
def Cx.hint (c : Cx) : Nat := if c.o = .ld || c.o = .st || c.o = .pref then c.e.rm.toNat / 2 else 0

/-- HINT says `.nofill` (R132, R136). -/
def Cx.nofill (c : Cx) : Bool := c.hint = 3

/-- A load passes the caches of its cluster (R136, R159, R160). -/
def State.loadTags (s : State) (c : Cx) (arena pa : Nat) : State :=
  if c.nofill && (s.hier.lineAt c.g.cl (pa / 128)).isNone then (s.count c.g.cl 6 1).atHome c.g.vf arena pa false
  else (s.readLine c.g.cl c.g.vf arena pa c.atHome).retain c.g.cl c.g.vf pa c.hint

/-- A write of a cluster leaves for another chip: its kind, path, address, operation code, width and data; fills of the line in
the cluster are void (R180, R185, R381). -/
def State.askWrite (s : State) (cl vf kind path pa op width : Nat) (data : List Byte) (a : Asker) : State :=
  (s.voidFills cl (pa / 128)).ask vf kind path pa op width data a

/-- A load of one thread at its place: its result, which arrives later, with the mark it carries (R135, R375); a load
from another chip is served by a line held for the group, or waits for its response (R186, R381). -/
def State.loadAt (s : State) (c : Cx) (j : Nat) (h : Hit) (width n : Nat) : State × Out :=
  let regs (x : Nat) (m : Option MarkKind) : List (Reg × Word × Option MarkKind) :=
    (c.dstN n x).map fun w => (w.1, w.2, m)
  if (s.vf c.g.vf).staleAt h.arena then (s, c.out h.t.key (regs (s.freeNat j n) (some .stale)) true 0)
  else if inImport h.pa then
    match c.far s h.pa with
    | some x => (s, c.out h.t.key (regs (leNat (x.bytes h.pa width)) none) true 0)
    | none =>
      let s := s.ask c.g.vf 1 2 h.pa 0 width [] (c.asker h.t.key (s.uids + 1))
      (s, c.out h.t.key (regs 0 none) false s.uids)
  else if s.errs h.pa then (s, c.out h.t.key (regs (s.freeNat j n) (some .ecc)) true 0)
  else
    let (s, b) := s.load h.pa width
    (s.loadTags c h.arena h.pa, c.out h.t.key (regs (leNat b) none) true 0)

/-- The loads of several threads in order, with their results. -/
def State.loadAll (s : State) (c : Cx) (width n : Nat) (hs : List Hit) : State × List Out :=
  hs.zipIdx.foldl (fun (x : State × List Out) (h, j) =>
    let (s, o) := x.1.loadAt c j h width n
    (s, x.2 ++ [o])) (s, [])

/-- A store of a thread takes effect at its place: its generation is current, and no ERRORED line refuses it (R135, R376). -/
def State.lands (s : State) (c : Cx) (h : Hit) : Bool :=
  !(s.vf c.g.vf).staleAt h.arena && (inImport h.pa || !s.ms.errored.contains (h.pa / 128))

/-- A store of one thread at its place (R135, R160, R381); into a line of another chip that is held for the group, it goes
into that line (R186). -/
def State.storeAt (s : State) (c : Cx) (h : Hit) (bytes : List Byte) : State :=
  if (s.vf c.g.vf).staleAt h.arena then s
  else if inImport h.pa then
    match c.far s h.pa with
    | some x => s.setFar x (putBytes x.data (h.pa % 128) bytes)
    | none => s.askWrite c.g.cl c.g.vf 2 2 h.pa 0 bytes.length bytes (c.asker h.t.key 0)
  else (s.store (some c.g.cl) c.g.vf h.arena h.pa bytes).retain c.g.cl c.g.vf h.pa c.hint

/-- The address of LD, ST and PREF (R134). -/
def Cx.va (c : Cx) (t : Thread) : Nat := c.g.address t c.e 2 64 c.e.scale

/-- The bytes that a store takes from operand 3 (R133). -/
def Cx.data (c : Cx) (t : Thread) : List Byte := natBytes c.width (c.g.src t c.wregs c.e.op3)

/-- A release or returning atomic at thread or group scope pins its line as it performs (R186): a line of another chip that has
come whole for it, unless an access refused on the line has still to be served. -/
def State.pinAt (s : State) (c : Cx) (h : Hit) : State :=
  if (s.vf c.g.vf).staleAt h.arena then s
  else if inImport h.pa then
    match c.near s h.pa with
    | some x => if x.data.isEmpty || s.owes x.line || (c.far s h.pa).isSome then s else s.pinFar x h.arena
    | none => s
  else if s.ms.errored.contains (h.pa / 128) then s
  else s.pinLine c.g.cl c.g.uid (h.pa / 128) c.g.vf h.arena

/-- A line that an access is to pin finds no way of its set yet (R161). -/
def State.noWay (s : State) (c : Cx) (hs : List Hit) : Bool :=
  hs.any fun h => !(s.vf c.g.vf).staleAt h.arena && !s.mayPin c.g.cl (h.pa / 128)

/-- A line of another chip that an access at cluster scope or narrower needs in its cluster and that is not there (R185). -/
def State.missingFar (s : State) (c : Cx) (hs : List Hit) : Option Hit :=
  hs.find? fun h => inImport h.pa && !(s.vf c.g.vf).staleAt h.arena && (c.near s h.pa).isNone

/-- The fill of a line of another chip is asked for, once for each sheaf that needs it (R185, R381). -/
def State.askFar (s : State) (c : Cx) (h : Hit) : State :=
  if s.fab.reqs.any fun r => r.cls = 64 && r.pa / 128 = h.pa / 128 && r.group = c.g.uid && r.key = c.who then s
  else s.ask c.g.vf 1 2 (h.pa / 128 * 128) 0 128 [] { group := c.g.uid, key := c.who, cls := 64, arena := h.arena }

/-- A fill that has served its access and that no pin keeps goes at once, what the access wrote into it through to the home
(R160, R185). -/
def State.settleFar (s : State) (c : Cx) (h : Hit) : State :=
  match (if (c.far s h.pa).isSome then none else c.near s h.pa) with
  | some x => (s.flushFar (c.asker h.t.key 0) x).voidFills c.g.cl x.line
  | none => s

/-- The write-backs of a group's lines to other chips have all been acknowledged (R182 case 9, R211). -/
def State.flushed (s : State) (g : Group) : Bool := !s.fab.reqs.any fun r => r.group = g.uid && r.cls = 128

/-- A release at cluster scope or wider first ends the pins of its group, and performs once their write-backs have performed
(R182 cases 3 and 9, R183, R186). -/
def releaseFirst (c : Cx) (s : State) (on : Bool) (k : State → Act) : Act :=
  if on then
    let s := s.unpin c.g.uid
    if s.flushed c.g then k s else .stay (s.stalled c)
  else k s

/-- LD (R134, R135, R137). -/
def ldBody (c : Cx) (s : State) : Act :=
  gate c s c.actS (fun t => s.checkVa c (c.va t) c.width { r := true }) false fun hs s =>
    let (s, os) := s.loadAll c c.width c.wregs hs
    .done (s.setGroup c.gi fun g => g.addOuts os)

/-- ST (R134, R135, R137, R186). -/
def stBody (c : Cx) (s : State) : Act :=
  gate c s c.act (fun t => s.checkVa c (c.va t) c.width { w := true }) true fun hs s =>
    let narrow : Bool := c.e.ord && c.e.sc.toNat ≤ 1
    match (if narrow then s.missingFar c hs else none) with
    | some h => .stay (s.askFar c h)
    | none =>
      if narrow && s.noWay c hs then .stay (s.stalled c)
      else releaseFirst c s (c.e.ord && 2 ≤ c.e.sc.toNat && !hs.isEmpty) fun s =>
        .done (hs.foldl (fun s h =>
          if narrow then ((s.pinAt c h).storeAt c h (c.data h.t)).settleFar c h else s.storeAt c h (c.data h.t)) s)

/-! ### The scratchpad -/

/-- The size of the scratch area and of one exchange bank in bytes. -/
def Launch.space (l : Launch) : Nat := l.scratch + l.exch

/-- Where an offset of the scratchpad lies in the group's storage (R138, R162, R164). -/
def Group.spOffset (g : Group) (o : Nat) : Nat :=
  if g.launch.scratch ≤ o ∧ g.swapped then o + g.launch.exch else o

/-- Where an exchange offset of the shadow bank lies in the group's storage (R164). -/
def Group.shadowOffset (g : Group) (o : Nat) : Nat := if g.swapped then o else o + g.launch.exch

/-- n bytes of the scratchpad. -/
def Group.spRead (g : Group) (o n : Nat) : List Byte := Memory.readN g.scratch (g.spOffset o) n

/-- A scratchpad access of n bytes meets a word with an uncorrectable error (R175). -/
def Group.spErrs (g : Group) (o n : Nat) : Bool :=
  g.spoilt.any fun w => g.spOffset o < 4 * w + 4 && 4 * w < g.spOffset o + n

/-- Bytes stored in the scratchpad; a word that is stored whole has no error any more. -/
def Group.spWrite (g : Group) (o : Nat) (bytes : List Byte) : Group :=
  let a := g.spOffset o
  { g with
    scratch := Memory.writeN g.scratch a bytes
    spoilt := g.spoilt.filter fun w => 4 * w < a || a + bytes.length < 4 * w + 4 }

/-- The address of a scratchpad instruction (R138). -/
def Cx.sp (c : Cx) (t : Thread) (scale : Nat) : Nat := c.g.address t c.e 1 32 scale

/-- The checks of a scratchpad access over a range of offsets, MISALIGNED first (R138). -/
def spFault (o width lo hi : Nat) (w : Bool) : Option Flt :=
  let bad (cls : Nat) : Option Flt := some { cls := cls, addr := o, access := if w then 1 else 0 }
  if o % width != 0 then bad 4 else if o < lo || hi < o + width then bad 6 else none

/-- The scratchpad words that accesses of a width touch at offsets. -/
def spWords (width : Nat) (offsets : List Nat) : List Nat :=
  offsets.flatMap fun o => (List.range ((width + 3) / 4)).map fun i => o / 4 + i

/-- The clocks for which accesses to words occupy the scratchpad: the most that touch one of the 32 banks (R165). -/
def bankClocks (ws : List Nat) : Nat :=
  (List.range 32).foldl (fun m b => Nat.max m (ws.filter fun w => w % 32 = b).length) 0

/-- The bank-conflict clocks of a scratchpad beyond the first of an instruction are counted (R165, R395). -/
def State.conflicts (s : State) (cl : Nat) (ws : List Nat) : State := s.count cl 7 (bankClocks ws - 1)

/-- The faults of the acting threads by a check of their own. -/
def Cx.bads (ts : List Thread) (f : Thread → Option Flt) : List (Key × Flt) :=
  ts.filterMap fun t => (f t).map fun x => (t.key, x)

/-- A scratchpad read of a thread as an outstanding result: its bytes, or an ECC mark (R138, R175). -/
def Cx.spOut (c : Cx) (t : Thread) (o width n : Nat) : Out :=
  let m : Option MarkKind := if c.g.spErrs o width then some .ecc else none
  c.out t.key ((c.dstN n (leNat (c.g.spRead o width))).map fun w => (w.1, w.2, m)) true 0

/-- LDS (R138). -/
def ldsBody (c : Cx) (s : State) : Act :=
  let o (t : Thread) : Nat := c.sp t c.e.scale
  let bad := Cx.bads c.actS fun t => spFault (o t) c.width 0 c.g.launch.space false
  if !bad.isEmpty then .fault bad
  else
    let s := s.conflicts c.g.cl (spWords c.width (c.actS.map o)).eraseDups
    .done (s.setGroup c.gi fun g => g.addOuts (c.actS.map fun t => c.spOut t (o t) c.width c.wregs))

/-- STS (R138, R135). -/
def stsBody (c : Cx) (s : State) : Act :=
  let o (t : Thread) : Nat := c.sp t c.e.scale
  let bad := Cx.bads c.act fun t => spFault (o t) c.width 0 c.g.launch.space true
  if !bad.isEmpty then .fault bad
  else .done ((s.conflicts c.g.cl (spWords c.width (c.act.map o)).eraseDups).setGroup c.gi fun g =>
    c.act.foldl (fun g t => g.spWrite (o t) (c.data t)) g)

/-! ### Tensor accesses -/

/-- The coordinates of a tensor access (R139). -/
def Cx.coords (c : Cx) (t : Thread) : List Nat :=
  (List.range 4).map fun i => (c.g.readV t (c.e.op2.index + i)).toNat

/-- The checks of LDT and STT for a thread (R139, R300). -/
def State.checkTensor (s : State) (c : Cx) (t : Thread) (w : Bool) : Chk :=
  let h := c.g.src t 1 c.e.op1
  match s.tensor c.g h false with
  | .error f => .bad f
  | .ok d =>
    let e := d.bits c.g.launch.ks
    let bits := 8 * c.width
    if bits % e != 0 then .bad { cls := 10, addr := h, access := if w then 1 else 0 }
    else
      match d.outside (c.coords t) (bits / e) with
      | some i => .bad { cls := 10, addr := h, access := (if w then 1 else 0), info := i }
      | none => s.checkVa c (d.address c.g.launch.ks (c.coords t)) c.width { r := !w, w := w }

/-- LDT (R139). -/
def ldtBody (c : Cx) (s : State) : Act :=
  gate c s c.actS (fun t => s.checkTensor c t false) false fun hs s =>
    let (s, os) := s.loadAll c c.width c.wregs hs
    .done (s.setGroup c.gi fun g => g.addOuts os)

/-- What an STT of a thread contributes to its tensor's record: its address, the number of elements, their contributions (R139,
R304). -/
def State.sttStat (s : State) (c : Cx) (t : Thread) : Option (Nat × Nat × Stat) :=
  match s.tensor c.g (c.g.src t 1 c.e.op1) false with
  | .error _ => none
  | .ok d =>
    if d.record = 0 then none
    else
      let e := d.bits c.g.launch.ks
      let n := 8 * c.width / e
      let x := c.g.src t c.wregs c.e.op3
      some (d.record, n, Stat.all ((List.range n).map fun i => Stat.ofValue (d.value c.g.launch.ks (field x (e * i) e))))

/-- STT (R139, R305): the contributions merge into the windrow before the data's write. -/
def sttBody (c : Cx) (s : State) : Act :=
  gate c s c.act (fun t => s.checkTensor c t true) true fun hs s =>
    .done (hs.foldl (fun s h =>
      let s := match (if s.lands c h then s.sttStat c h.t else none) with
        | some (a, n, x) => s.contribute c.g.cl c.g.vf (c.g.uid, h.t.key) a n x
        | none => s
      s.storeAt c h (c.data h.t)) s)

/-! ### Constants, prefetch, STX -/

/-- The mark that n bytes read in a VF carry: of an old generation, or of an uncorrectable error (R135, R375). -/
def State.readMark (s : State) (vf va n : Nat) : Option MarkKind :=
  (List.range n).findSome? fun i => match s.xlateNow vf (va + i) { r := true } with
    | .ok pa arena => if (s.vf vf).staleAt arena then some .stale else if s.errs pa then some .ecc else none
    | _ => none

/-- A line of n bytes read in a VF that a pin refuses a group (R186). -/
def State.readPin (s : State) (vf group va n : Nat) : Option Nat :=
  (List.range n).findSome? fun i => match s.xlateNow vf (va + i) { r := true } with
    | .ok pa _ => if s.ms.refuses (some group) (pa / 128) then some (pa / 128) else none
    | _ => none

/-- One thread's LDC as an outstanding result (R135, R140); the value that comes with a mark is free (log 7). -/
def State.ldcOut (s : State) (c : Cx) (j a : Nat) (t : Thread) : Out :=
  let m := s.readMark c.g.vf a c.width
  let x := if m.isSome then s.freeNat j c.wregs else s.devNat c.g.vf a c.width
  c.out t.key ((c.dstN c.wregs x).map fun w => (w.1, w.2, m)) true 0

/-- LDC: the grid's constant space begins with the launch record (R140). -/
def ldcBody (c : Cx) (s : State) : Act :=
  let o (t : Thread) : Nat := c.sp t c.e.scale
  let a (t : Thread) : Nat := c.g.lrec + o t
  let bad := Cx.bads c.actS fun t => spFault (o t) c.width 0 c.g.launch.csize false
  if !bad.isEmpty then .fault bad
  else
    match c.actS.findSome? fun t => s.readPin c.g.vf c.g.uid (a t) c.width with
    | some l => .stay (s.refuse c l)
    | none =>
      let s := { s with ms := s.ms.served c.g.uid c.who }
      let s := c.actS.foldl (fun s t => s.devRecall c.g.vf (a t) c.width) s
      .done (s.setGroup c.gi fun g => g.addOuts (c.actS.zipIdx.map fun x => s.ldcOut c x.2 (a x.1) x.1))

/-- The member index that STX names (R212). -/
def Cx.member (c : Cx) (t : Thread) : Nat := c.g.src t 1 c.e.op0

/-- The checks of STX in their order (R212). -/
def Cx.stxFault (c : Cx) (count : Nat) (t : Thread) : Option Flt :=
  let o := c.sp t c.e.scale
  let l := c.g.launch
  if o % c.width != 0 then some { cls := 4, addr := o, access := 1 }
  else if count ≤ c.member t then some { cls := 6, addr := o, access := 1 }
  else spFault o c.width l.scratch l.space true

/-- The group index of a member of a set (R153, R154). -/
def State.memberGroup (s : State) (g : Group) (entry : BitVec 64) (m : Nat) : Nat :=
  s.devNat g.vf (g.lrec + setList entry + 4 * m) 4

/-- How a group of the same grid stands for a delivery to it: running here, finished, or not there yet (R155, R212). -/
inductive GroupAt where
  | here (gi : Nat)
  | finished
  | later

/-- Where the group of a task with a group index is (R155, R156). -/
def State.targetGroup (s : State) (task gidx : Nat) : GroupAt :=
  match s.groups.findIdx? fun g => g.task = task && g.gidx = gidx with
  | some gi => .here gi
  | none =>
    match s.taskOf task with
    | some t => if gidx < t.cursor || t.finished.contains gidx then .finished else .later
    | none => .finished

/-- Bytes of an STX reach the shadow bank of a group (R164, R212). -/
def Group.stxPut (g : Group) (off : Nat) (data : List Byte) : Group :=
  let a := g.shadowOffset off
  { g with
    scratch := Memory.writeN g.scratch a data
    spoilt := g.spoilt.filter fun w => 4 * w < a || a + data.length < 4 * w + 4 }

/-- A group of a task has started: the STX stores that waited for it are delivered in order and acknowledged, and the
arrivals that waited for them are made (R155, R206, R212). -/
def State.flushStx (s : State) (task gidx : Nat) : State :=
  let put (s : State) (x : Stx) : State :=
    match s.targetGroup task gidx with
    | .here ti => s.setGroup ti fun t => t.stxPut x.off x.data
    | _ => s
  let saved := ((s.taskOf task).map Task.saved).getD []
  let s := ((saved.flatMap fun x => x.group.stx).filter fun x => x.gidx = gidx).foldl put s
  let one (s : State) (gi : Nat) : State :=
    match s.groups[gi]? with
    | none => s
    | some g =>
      let due := if g.task = task then g.stx.filter fun x => x.gidx = gidx else []
      if due.isEmpty then s
      else
        let s := s.setGroup gi fun g => { g with stx := g.stx.filter fun x => x.gidx != gidx }
        (due.foldl put s).retryArrivals gi
  let s := (List.range s.groups.length).foldl one s
  s.setTask task fun t => { t with saved := t.saved.map fun x =>
    { x with group := { x.group with stx := x.group.stx.filter fun y => y.gidx != gidx } } }

/-- STX: bytes into the shadow bank of a member, acknowledged at once; to a member not yet started the store waits, while
its thread goes on, and to one that has finished it is discarded (R155, R206, R212). -/
def stxBody (c : Cx) (s : State) : Act :=
  match c.g.xchgSet with
  | none => .done s
  | some (_, entry, _) =>
    let bad := Cx.bads c.act (c.stxFault (setCount entry))
    if !bad.isEmpty then .fault bad
    else
      let dest (t : Thread) : Nat := s.memberGroup c.g entry (c.member t)
      let o (t : Thread) : Nat := c.sp t c.e.scale
      let here (gi : Nat) (t : Thread) : Bool := match s.targetGroup c.g.task (dest t) with
        | .here x => x = gi
        | _ => false
      let busy (s : State) (x : Group × Nat) : State :=
        s.conflicts x.1.cl (spWords c.width ((c.act.filter (here x.2)).map o)).eraseDups
      .done (c.act.foldl (fun s t => match s.targetGroup c.g.task (dest t) with
        | .here gi => s.setGroup gi fun g => g.stxPut (o t) (c.data t)
        | .finished => s
        | .later =>
          let x : Stx := { id := s.uids + 1, key := t.key, gidx := dest t, off := o t, data := c.data t }
          { s with uids := s.uids + 1 }.setGroup c.gi fun g => { g with stx := g.stx ++ [x] })
        (s.groups.zipIdx.foldl busy s))

/-- LD (R134). -/
def execLd (e : Ext) (s : State) : Host.Outcome State Fault Refusal := issueE .ld e s ldBody
/-- ST (R134). -/
def execSt (e : Ext) (s : State) : Host.Outcome State Fault Refusal := issueE .st e s stBody
/-- LDS (R138). -/
def execLds (e : Ext) (s : State) : Host.Outcome State Fault Refusal := issueE .lds e s ldsBody
/-- STS (R138). -/
def execSts (e : Ext) (s : State) : Host.Outcome State Fault Refusal := issueE .sts e s stsBody
/-- LDT (R139). -/
def execLdt (e : Ext) (s : State) : Host.Outcome State Fault Refusal := issueE .ldt e s ldtBody
/-- STT (R139). -/
def execStt (e : Ext) (s : State) : Host.Outcome State Fault Refusal := issueE .stt e s sttBody
/-- LDC (R140). -/
def execLdc (e : Ext) (s : State) : Host.Outcome State Fault Refusal := issueE .ldc e s ldcBody
/-- Where a PREF of a thread finds its line: a check of R134 that fails, or another chip's line, gives none (R136). -/
def State.prefPlace (s : State) (c : Cx) (t : Thread) : Option (Nat × Nat) :=
  let va := c.va t
  let place : Xl := match s.xlate c.g.cl c.g.vf va { r := true } with
    | .missing => s.xlateNow c.g.vf va { r := true }
    | x => x
  if (c.marked t).isSome || 2 ^ 56 ≤ va then none
  else match place with
    | .ok pa arena => if inImport pa || (s.vf c.g.vf).staleAt arena then none else some (pa, arena)
    | _ => none

/-- PREF (R136): each thread's line comes into the cluster cache, or with `.nofill` into its home slice alone; no fault. A line
pinned by another group refuses it for now (R186). -/
def prefBody (c : Cx) (s : State) : Act :=
  let places := c.act.filterMap (s.prefPlace c)
  match places.find? fun x => c.refused s x.1 with
  | some x => .stay (s.refuse c (x.1 / 128))
  | none =>
    .done (places.foldl (fun s x =>
      if c.nofill then s.atHome c.g.vf x.2 x.1 false
      else (s.readLine c.g.cl c.g.vf x.2 x.1 false).retain c.g.cl c.g.vf x.1 c.hint) { s with ms := s.ms.served c.g.uid c.who })

/-- PREF (R136). -/
def execPref (e : Ext) (s : State) : Host.Outcome State Fault Refusal := issueE .pref e s prefBody
/-- STX (R212). -/
def execStx (e : Ext) (s : State) : Host.Outcome State Fault Refusal := issueE .stx e s stxBody

end Sys2Proof.Machine
end

