-- ==== Sys2Proof/Machine/Control.lean ====
section
/-! DEFINITION. The control instructions of major 0x27 (R112 to R122). -/

namespace Sys2Proof.Machine

/-- The next sequential address; after a clause-ending instruction it is the next header (R113). -/
def Cx.nextPc (c : Cx) : Addr := c.sh.pc + 4 * BitVec.ofNat 64 c.len

/-- The target of a transfer by offset in words from the instruction's first word (R75, R112). -/
def Cx.target (c : Cx) : Addr := c.sh.pc + 4 * BitVec.ofInt 64 c.e.disp

/-- Every open region of the issuing sheaf closes (R116). -/
def State.closeAt (s : State) (c : Cx) : State := s.setGroup c.gi fun g => g.closeRegions s.clock c.si

/-- The present threads are filed, each into the bin that a function gives, the sheaf's regions closed first (R115,
R116). -/
def State.fileAll (s : State) (c : Cx) (f : Thread → Addr) : State :=
  (s.closeAt c).setGroup c.gi fun g => c.pres.foldl (fun g t => g.file s.clock t.key (f t)) g

/-- BRA `.u` (R114). -/
def braUBody (c : Cx) (s : State) : Act :=
  if c.act.isEmpty then .done s
  else if c.act.length = c.pres.length then .moved (s.fallThrough c.gi c.si c.target)
  else .fault (c.pres.map fun t => (t.key, { cls := 3 }))

/-- BRA `.s` (R115). -/
def braSBody (c : Cx) (s : State) : Act := .moved (s.fileAll c fun t => if Ext.guards c.e t then c.target else c.nextPc)

/-- BRA `.m` (R116). -/
def braMBody (c : Cx) (s : State) : Act :=
  if c.act.isEmpty ∨ c.act.length = c.pres.length then braUBody c s
  else if 4 ≤ c.sh.regions.length then braSBody c s
  else
    let r : Region :=
      { rc := c.sh.pc + 4 * BitVec.ofNat 64 c.e.distance, target := c.target, stage := 1
        taking := c.act.map Thread.key
        cont := (c.pres.filter fun t => !Ext.guards c.e t).map Thread.key }
    .moved ((s.setSheaf c.gi c.si fun sh => { sh with regions := r :: sh.regions }).fallThrough c.gi c.si c.nextPc)

/-- The address that a thread's transfer through a register pair reaches (R117). -/
def Cx.regTarget (c : Cx) (t : Thread) : Addr := BitVec.ofNat 64 (c.g.src t 2 c.e.op1)

/-- Threads whose target is not a multiple of 4 (R117). -/
def Cx.misaligned (c : Cx) (target : Thread → Addr) : List (Key × Flt) :=
  (c.act.filter fun t => (target t).toNat % 4 != 0).map fun t => (t.key, { cls := 4 })

/-- BRX and RET (R117). -/
def brxBody (c : Cx) (s : State) : Act :=
  let bad := c.misaligned c.regTarget
  if !bad.isEmpty then .fault bad
  else .moved (s.fileAll c fun t => if Ext.guards c.e t then c.regTarget t else c.nextPc)

/-- CALL (R117). -/
def callBody (c : Cx) (s : State) : Act :=
  let target (t : Thread) : Addr := if c.e.op1.absent then c.target else c.regTarget t
  let bad := c.misaligned target
  if !bad.isEmpty then .fault bad
  else
    let s := s.setGroup c.gi fun g => g.apply (c.writes fun c _ => c.dstN 2 c.nextPc.toNat)
    .moved (s.fileAll c fun t => if Ext.guards c.e t then target t else c.nextPc)

/-- YIELD: the present threads wait 32 clocks in the bin of the next header, those whose guard is false with them; where no
guard is true it files them as REFORM does (R118; log 35). -/
def yieldBody (c : Cx) (s : State) : Act :=
  if c.act.isEmpty then .moved (s.fileAll c fun _ => c.nextPc)
  else .moved ((s.closeAt c).setGroup c.gi fun g => c.pres.foldl (fun g t =>
    g.send t.key (.held .delay { c.site with next := c.nextPc } s.clock 0) c.nextPc) g)

/-- TRAP and BRK: the taking threads take the fault, with the code in INFO; the others pass on (R120). -/
def trapBody (cls : Nat) (c : Cx) (s : State) : Act :=
  if c.act.isEmpty then .moved ((s.closeAt c).fallThrough c.gi c.si c.nextPc)
  else .moved ((s.closeAt c).takeAll c.gi c.site c.sh.hdr
    (c.act.map fun t => (t.key, { cls := cls, info := c.e.imm.toNat })))

/-- The ECC mark of an S register that the last thread of its group to exit finds (R25; log 85). -/
def Cx.lastMark (c : Cx) (t : Thread) : Option Nat :=
  let live := c.g.threads.filter fun u => u.place != .exited && u.place != .lent
  if live.all (fun u => c.act.any fun a => a.key = u.key) && (c.act.head?).map Thread.key = some t.key then
    (c.g.marksS.find? fun m => m.2 = .ecc).map Prod.fst
  else none

/-- A thread's fault at EXIT: an uncorrectable mark on any of its V registers, or, for the last of its group, on an S
register (R25, R119), or its part in a glean (R256). -/
def Cx.exitFault (c : Cx) (t : Thread) : Option Flt :=
  match t.marks.find? fun m => m.2 = .ecc with
  | some m => some { cls := 16, access := 8, info := m.1 }
  | none =>
    match c.lastMark t with
    | some i => some { cls := 16, access := 8, info := 0x100 + i }
    | none => if t.part.isSome || t.solo.isSome then some { cls := 15 } else none

/-- EXIT (R119, R207): the thread ends; its default barriers expect one arrival fewer. -/
def exitBody (c : Cx) (s : State) : Act :=
  let bad := c.act.filterMap fun t => (c.exitFault t).map fun f => (t.key, f)
  if !bad.isEmpty then .fault bad
  else
    let one (g : Group) (t : Thread) : Group :=
      let g := g.send t.key .exited 0
      let g := g.modify t.key fun t => { t with marks := [], tickets := [] }
      { g.exitBars s.clock with fences := g.fences.filter fun f => f.key != t.key }
    .done (s.onBars c.gi fun g => c.act.foldl one g)

/-- SREG (R121, R26): a helper reads its recruiter's values, GLPART excepted (R251). -/
def sregVal (s : State) (c : Cx) (t : Thread) : List (Reg × Word) :=
  let i := c.e.imm.toNat % 256
  let u := if i = 0x0E then t else (c.g.find { t := t.key.t, gl := 0 }).getD t
  c.dstN ((sregWidth i).getD 1) (s.sreg c.g u i)

/-- SWREG: DRAWS of each active thread, or HANDLER by the first (R19, R121). The model's choices (log 124): a helper writes its own
DRAWS, which nothing reads while it helps, and a HANDLER that is no multiple of 4 is stored as it is, so that the fetch at an entry
takes the four bytes that stand there. -/
def swregBody (c : Cx) (s : State) : Act :=
  if c.e.imm = 0x0C then
    .done (s.setGroup c.gi fun g => c.act.foldl (fun g t =>
      g.modify t.key fun u => { u with draws := BitVec.ofNat 32 (c.g.src t 1 c.e.op1) }) g)
  else
    match c.act with
    | [] => .done s
    | t :: _ => .done (s.setGroup c.gi fun g => { g with handler := BitVec.ofNat 64 (c.g.src t 2 c.e.op1) })

/-- BRA `.u` (R114). -/
def execBraU (e : Ext) (s : State) : Host.Outcome State Fault Refusal := issueE .braU e s braUBody
/-- BRA `.s` (R115). -/
def execBraS (e : Ext) (s : State) : Host.Outcome State Fault Refusal := issueE .braS e s braSBody
/-- BRA `.m` (R116). -/
def execBraM (e : Ext) (s : State) : Host.Outcome State Fault Refusal := issueE .braM e s braMBody
/-- BRX (R117). -/
def execBrx (e : Ext) (s : State) : Host.Outcome State Fault Refusal := issueE .brx e s brxBody
/-- CALL (R117). -/
def execCall (e : Ext) (s : State) : Host.Outcome State Fault Refusal := issueE .call e s callBody
/-- RET (R117). -/
def execRet (e : Ext) (s : State) : Host.Outcome State Fault Refusal := issueE .ret e s brxBody
/-- REFORM (R118). -/
def execReform (e : Ext) (s : State) : Host.Outcome State Fault Refusal :=
  issueE .reform e s fun c s => .moved (s.fileAll c fun _ => c.nextPc)
/-- EXIT (R119). -/
def execExit (e : Ext) (s : State) : Host.Outcome State Fault Refusal := issueE .exit e s exitBody
/-- YIELD (R118). -/
def execYield (e : Ext) (s : State) : Host.Outcome State Fault Refusal := issueE .yield e s yieldBody
/-- NOP (R118). -/
def execNop (e : Ext) (s : State) : Host.Outcome State Fault Refusal := issueE .nop e s fun _ s => .done s
/-- TRAP: SOFTWARE (R120). -/
def execTrap (e : Ext) (s : State) : Host.Outcome State Fault Refusal := issueE .trap e s (trapBody 18)
/-- BRK: BREAK (R120). -/
def execBrk (e : Ext) (s : State) : Host.Outcome State Fault Refusal := issueE .brk e s (trapBody 19)
/-- SREG (R121). -/
def execSreg (e : Ext) (s : State) : Host.Outcome State Fault Refusal :=
  issueE .sreg e s fun c s => lanes (sregVal s) c s
/-- SWREG (R121). -/
def execSwreg (e : Ext) (s : State) : Host.Outcome State Fault Refusal := issueE .swreg e s swregBody
/-- The cluster holds no instruction word any more, nor a CLEAN line of the code it had fetched (R122, R159). -/
def State.dropCode (s : State) (cl : Nat) : State :=
  let code (line : Nat) : Bool := s.icache.any fun x => x.cl = cl && x.pa / 128 = line
  { s with
    icache := s.icache.filter fun x => x.cl != cl
    hier := { s.hier with lines := s.hier.lines.filter fun x => x.cl != cl || x.kind != .clean || !code x.line } }

/-- ICINV, where a thread's guard is true: the sheaf waits for its threads' accesses to another chip, and then the cluster
holds no instruction word any more (R122). -/
def icinvBody (c : Cx) (s : State) : Act :=
  if c.act.isEmpty then .done s
  else if s.fab.reqs.any fun r => r.group = c.g.uid && r.cls = 1 && c.act.any fun t => t.key = r.key then .stay s
  else .done (s.dropCode c.g.cl)
/-- ICINV (R122). -/
def execIcinv (e : Ext) (s : State) : Host.Outcome State Fault Refusal := issueE .icinv e s icinvBody

end Sys2Proof.Machine
end

