-- ==== Sys2Proof/Machine/Sync.lean ====
section
/-! DEFINITION. Full/empty accesses (R200 to R203), WAITA (R204), atomics and reductions (R191 to R199), barriers (R205
to R211) and FENCE (R213). -/

namespace Sys2Proof.Machine

/-! ### Full/empty words -/

/-- The words of the group's storage that an access at a scratchpad offset covers. -/
def Group.feWords (g : Group) (o n : Nat) : List Nat := (List.range n).map fun i => g.spOffset (o + 4 * i) / 4

/-- Every covered word is full. -/
def Group.allFull (g : Group) (o n : Nat) : Bool := (g.feWords o n).all g.fe.contains
/-- Every covered word is empty. -/
def Group.allEmpty (g : Group) (o n : Nat) : Bool := (g.feWords o n).all fun w => !g.fe.contains w

/-- The covered words become full or empty. -/
def Group.setFe (g : Group) (o n : Nat) (full : Bool) : Group :=
  let ws := g.feWords o n
  let rest := g.fe.filter fun w => !ws.contains w
  { g with fe := if full then ws ++ rest else rest }

/-- The threads held at a full/empty access, with their hold, site and order. -/
def Group.feWaiters (g : Group) : List (Thread × Hold × Site × Nat) :=
  g.threads.filterMap fun t => match t.place with
    | .held h site _ order => (match h with
      | .ldf _ _ _ _ => some (t, h, site, order)
      | .ste _ _ => some (t, h, site, order)
      | _ => none)
    | _ => none

/-- The waiter of a list that arrived earliest, ties to the lower order key (R201). -/
def earliest (xs : List (Thread × Hold × Site × Nat)) : Option (Thread × Hold × Site × Nat) :=
  xs.foldl (fun a x => match a with
    | none => some x
    | some y => if x.2.2.2 < y.2.2.2 || (x.2.2.2 = y.2.2.2 && x.1.key.before y.1.key) then some x else a) none

/-- The waiter that is served next: any LDF without `.take` whose words are full, then the earliest `.take`, then the
earliest STE whose words are empty (R201). -/
def Group.feNext (g : Group) : Option (Thread × Hold × Site × Nat) :=
  let ws := g.feWaiters
  let peek := ws.filter fun x => match x.2.1 with
    | .ldf o n take _ => !take && g.allFull o n
    | _ => false
  let takes := ws.filter fun x => match x.2.1 with
    | .ldf o n take _ => take && g.allFull o n
    | _ => false
  let stes := ws.filter fun x => match x.2.1 with
    | .ste o d => g.allEmpty o d.length
    | _ => false
  match earliest peek, earliest takes with
  | some x, _ => some x
  | none, some x => some x
  | none, none => earliest stes

/-- A satisfied waiter takes its step and becomes eligible at the next header (R201). -/
def Group.feStep (g : Group) (clock : Nat) (x : Thread × Hold × Site × Nat) : Group :=
  let k := x.1.key
  let g := match x.2.1 with
    | .ldf o n take d =>
      let ws := natWords n (leNat (g.spRead o (4 * n)))
      let m : Option MarkKind := if g.spErrs o (4 * n) then some .ecc else none
      let g := ws.zipIdx.foldl (fun (g : Group) (w, i) => g.putMarked k (.v (d + i)) w m) g
      if take then g.setFe o n false else g
    | .ste o d => (g.spWrite o (natBytes (4 * d.length) (wordsNat d))).setFe o d.length true
    | _ => g
  g.file clock k x.2.2.1.next

/-- Every waiter that can be served is (R201). -/
def Group.feServe : Nat → Group → Nat → Group
  | 0, g, _ => g
  | fuel + 1, g, clock =>
    match g.feNext with
    | none => g
    | some x => Group.feServe fuel (g.feStep clock x) clock

/-- Every waiter that can be served is; no more are served than wait. -/
def Group.feSettle (g : Group) (clock : Nat) : Group := Group.feServe (g.threads.length + 1) g clock

/-- The threads held at an STE. -/
def Group.stes (g : Group) : Nat := (g.feWaiters.filter fun x => match x.2.1 with
  | .ste _ _ => true
  | _ => false).length

/-- A change of a group in which full/empty accesses are served, while a number of STE arrive: each STE served is a release
at cluster scope, which ends the group's pins (R186, R201). -/
def State.onFe (s : State) (gi new : Nat) (f : Group → Group) : State :=
  match s.groups[gi]? with
  | none => s
  | some g =>
    let s := s.setGroup gi f
    if ((s.groups[gi]?).map Group.stes).getD 0 < g.stes + new then s.unpin g.uid else s

/-- A clause-ending wait: the sheaf's regions close, threads whose guard is false pass on, and each active thread, in
order, arrives (R67, R116, R144). -/
def State.arriveAll (s : State) (c : Cx) (f : Group → Thread → Group) : State :=
  let s := s.closeAt c
  s.setGroup c.gi fun g =>
    let g := (c.pres.filter fun t => !Ext.guards c.e t).foldl (fun g t => g.file s.clock t.key c.nextPc) g
    c.act.foldl f g

/-- The site of a held instruction: it resumes at the header that follows it. -/
def Cx.heldAt (c : Cx) : Site := { c.site with next := c.nextPc }

/-- LDF and STE (R201): the threads arrive in ascending order, each served at once where its condition holds; an STE that is then
served is a release (R183, R186). -/
def feBody (width : Cx → Nat) (hold : Cx → Thread → Hold) (w : Bool) (c : Cx) (s : State) : Act :=
  let o (t : Thread) : Nat := c.sp t c.e.scale
  let bad := Cx.bads c.act fun t => spFault (o t) (width c) 0 c.g.launch.space w
  if !bad.isEmpty then .fault bad
  else
    releaseFirst c s (w && c.act.any fun t => c.g.allEmpty (o t) (width c / 4)) fun s =>
    let n := s.uids + 1
    let s' := s.conflicts c.g.cl (spWords (width c) (c.act.map o)).eraseDups
    let s' := { s' with uids := n }.arriveAll c fun g _ => g
    .moved (s'.onFe c.gi (if w then c.act.length else 0) fun g => c.act.foldl (fun g t =>
      (g.send t.key (.held (hold c t) c.heldAt s.clock n) c.nextPc).feSettle s.clock) g)

/-- FEINIT (R202): a release at cluster scope, which ends the group's pins (R186). -/
def feinitBody (c : Cx) (s : State) : Act :=
  let o (t : Thread) : Nat := c.sp t c.e.scale
  let n (t : Thread) : Nat := c.g.src t 1 c.e.op3
  let l := c.g.launch
  let bad := Cx.bads c.act fun t =>
    if n t = 0 then none
    else if o t % 4 != 0 then some { cls := 4, addr := o t, access := 1 }
    else if l.space < o t + 4 * n t then some { cls := 6, addr := o t, access := 1 }
    else none
  if !bad.isEmpty then .fault bad
  else
    let on := c.act.filter fun t => n t != 0
    let words := on.flatMap fun t => (List.range (n t)).map fun i => o t / 4 + i
    releaseFirst c s (!on.isEmpty) fun s =>
    let s := s.conflicts c.g.cl words.eraseDups
    .done (s.onFe c.gi 0 fun g => (on.foldl (fun g t => g.setFe (o t) (n t) c.e.ord) g).feSettle s.clock)

/-- FE_TIMEOUT (R203) of the t-th thread of a group. -/
def evFeTimeout (gi t : Nat) (s : State) : State :=
  match (s.groups[gi]?).bind fun g => g.threads[t]?.map fun u => (g, u) with
  | none => s
  | some (g, u) =>
    match u.place with
    | .held h site since _ =>
      let fe : Bool := match h with
        | .ldf _ _ _ _ => true
        | .ste _ _ => true
        | _ => false
      if fe && g.stop = .running && decide (since + 2 ^ g.launch.fexp ≤ s.clock) then
        s.takeOne gi site { wait := 0, set1 := 15, set2 := 15, count := 0 } (u.key, { cls := 13 })
      else s
    | _ => s

/-! ### WAITA -/

/-- The monitors of a cluster in use: distinct watched words (R204). -/
def State.monitors (s : State) (cl : Nat) : List Nat :=
  ((s.groups.filter fun g => g.cl = cl).flatMap fun g => g.threads.filterMap fun t => match t.place with
    | .held (.waita _ pa _ _ _ true _) _ _ _ => some pa
    | _ => none).dedup

/-- WAITA (R204): at cluster scope or narrower the line is filled first. Each thread whose word differs or cannot be read
without an error, whose arena is old or whose word lies on another chip goes on; the others are held, with a monitor where
one is free or shared. -/
def waitaBody (c : Cx) (s : State) : Act :=
  let n := 4 * c.n
  gate c s c.act (fun t => s.checkVa c (c.va t) n { r := true }) false fun hs s =>
    let s := s.closeAt c
    let s := s.setGroup c.gi fun g => (c.pres.filter fun t => !Ext.guards c.e t).foldl
      (fun g t => g.file s.clock t.key c.nextPc) g
    .moved (hs.foldl (fun s h =>
      let v := c.g.src h.t c.n c.e.op3
      let free : Bool := (s.vf c.g.vf).staleAt h.arena || inImport h.pa || s.errs h.pa
      let (s, b) := s.load h.pa n
      let s := if free then s
        else if c.e.sc.toNat ≤ 2 then s.readLine c.g.cl c.g.vf h.arena h.pa false
        else s.atHome c.g.vf h.arena h.pa false
      if free || leNat b != v then s.setGroup c.gi fun g => g.file s.clock h.t.key c.nextPc
      else
        let used := s.monitors c.g.cl
        let mon : Bool := used.contains h.pa || used.length < 64
        s.setGroup c.gi fun g =>
          g.send h.t.key (.held (.waita (c.va h.t) h.pa h.arena n (3 ≤ c.e.sc.toNat) mon v) c.heldAt s.clock 0) c.nextPc) s)

/-- WAITA_POLL (R204) of the t-th thread of a group: without a monitor it reads its word again after 2,400 clocks, once no
other group's pin refuses it (R186). -/
def evWaitaPoll (gi t : Nat) (s : State) : State :=
  match (s.groups[gi]?).bind fun g => g.threads[t]?.map fun u => (g, u) with
  | none => s
  | some (g, u) =>
    match u.place with
    | .held (.waita va pa ar n wide false v) site since order =>
      if s.clock < since + 2400 then s
      else if s.ms.refuses (some g.uid) (pa / 128) then { s with ms := s.ms.noteRefused (pa / 128) g.uid u.key }
      else
        let err := s.errs pa
        let (s, b) := s.load pa n
        let s := { s with ms := s.ms.served g.uid u.key }
        if err || leNat b != v then s.setGroup gi fun g => g.file s.clock u.key site.next
        else s.setGroup gi fun g => g.modify u.key fun u =>
          { u with place := .held (.waita va pa ar n wide false v) site s.clock order }
    | _ => s

/-! ### Atomics and reductions -/

/-- The bytes of an atomic's location (R193). -/
def Cx.atomBytes (c : Cx) : Nat := 4 * c.n
/-- The index scale of an atomic: 1, or its width (R192). -/
def Cx.atomScale (c : Cx) : Nat := if c.e.lo.toNat % 2 = 1 then Nat.log2 c.atomBytes else 0
/-- The operands of an atomic: the operand or compare value, and the new value of `.cas` (R193); a small immediate of a
floating-point type is its value (R82). -/
def Cx.atomArgs (c : Cx) (t : Thread) : Nat × Nat :=
  let w := 32 * c.n
  if c.e.rm = 7 then
    let x := c.g.src t (2 * c.n) c.e.op3
    (x % 2 ^ w, x / 2 ^ w)
  else if c.e.ty = 9 ∨ c.e.ty = 12 ∨ c.e.ty = 13 then (c.g.fsrc t c.o c.e c.e.ty.toNat 3, 0)
  else (c.g.src t c.n c.e.op3, 0)
/-- The new value of the instruction's operation (R194). -/
def Cx.atomOp (c : Cx) (t : Thread) (old : Nat) : Nat :=
  let (v, v2) := c.atomArgs t
  atomNew c.e.rm.toNat c.e.ty.toNat old v v2
/-- The operation and type of an atomic as a flit carries them. -/
def Cx.atomCode (c : Cx) : Nat := c.e.rm.toNat + 8 * c.e.ty.toNat
/-- The operands of an atomic as bytes. -/
def Cx.atomData (c : Cx) (t : Thread) : List Byte :=
  let (v, v2) := c.atomArgs t
  natBytes c.atomBytes v ++ (if c.e.rm = 7 then natBytes c.atomBytes v2 else [])

/-- The old value as the result of an atomic, with its mark. -/
def Cx.atomOut (c : Cx) (k : Key) (x : Nat) (m : Option MarkKind) : Out :=
  c.out k ((c.dstN c.n x).map fun w => (w.1, w.2, m)) true 0

/-- One thread's ATOM at its place (R185): the old value arrives in the destination (R195). A location of another chip is
served by the line held for the group, or, at cluster scope or narrower, by the fill that has come for it; another one
performs at the exporter. -/
def State.atomAt (s : State) (c : Cx) (j : Nat) (h : Hit) : State × Out :=
  let sc := c.e.sc.toNat
  let new (b : List Byte) : List Byte := natBytes c.atomBytes (c.atomOp h.t (leNat b))
  if (s.vf c.g.vf).staleAt h.arena then (s, c.atomOut h.t.key (s.freeNat j c.n) (some .stale))
  else if inImport h.pa then
    match (if sc ≤ 2 then c.near s h.pa else c.far s h.pa) with
    | some x =>
      if x.data.isEmpty then (s, c.atomOut h.t.key (s.freeNat j c.n) (some (if x.old.isEmpty then .ecc else .stale)))
      else
        let b := x.bytes h.pa c.atomBytes
        (s.setFar x (putBytes x.data (h.pa % 128) (new b)), c.atomOut h.t.key (leNat b) none)
    | none =>
      let s := s.askWrite c.g.cl c.g.vf 3 2 h.pa c.atomCode c.atomBytes (c.atomData h.t) (c.asker h.t.key (s.uids + 1))
      (s, { c.atomOut h.t.key 0 none with ready := false, tag := s.uids })
  else if s.errs h.pa then (s.note .store, c.atomOut h.t.key (s.freeNat j c.n) (some .ecc))
  else
    let (s, b) := s.load h.pa c.atomBytes
    let s := if sc ≤ 2 then s.readLine c.g.cl c.g.vf h.arena h.pa c.atHome else s
    (s.store (some c.g.cl) c.g.vf h.arena h.pa (new b), c.atomOut h.t.key (leNat b) none)

/-- ATOM (R185, R186, R195): the threads perform in ascending order; a line of another chip that cluster scope or narrower
needs is filled first. -/
def atomBody (c : Cx) (s : State) : Act :=
  let sc := c.e.sc.toNat
  let va (t : Thread) : Nat := c.g.address t c.e 2 64 c.atomScale
  gate c s c.actS (fun t => s.checkVa c (va t) c.atomBytes { r := true, w := true }) true fun hs s =>
    match (if sc ≤ 2 then s.missingFar c hs else none) with
    | some h => .stay (s.askFar c h)
    | none =>
      if sc ≤ 1 && s.noWay c hs then .stay (s.stalled c)
      else releaseFirst c s (c.releases && 2 ≤ sc && !hs.isEmpty) fun s =>
        let (s, os) := hs.zipIdx.foldl (fun (x : State × List Out) (h, j) =>
          let (s, o) := (if sc ≤ 1 then x.1.pinAt c h else x.1).atomAt c j h
          (s, x.2 ++ [o])) (s, [])
        let s := if sc ≤ 2 then hs.foldl (fun s h => s.settleFar c h) s else s
        .done (s.setGroup c.gi fun g => g.addOuts os)

/-- A partial of the cluster that stands in a location of a contribution with another operation or type (R188). -/
def Partial.differs (p : Partial) (cl pa op ty width : Nat) : Bool :=
  p.cl = cl && p.pa / 8 ≤ (pa + width - 1) / 8 && pa / 8 ≤ (p.pa + p.width - 1) / 8 && (p.op != op || p.ty != ty)

/-- A contribution is merged into the partial of its place, or becomes one, and the line's watchers resume (R188, R196,
R204). -/
def State.addPartial (s : State) (cl vf arena pa op ty width v : Nat) : State :=
  let same (p : Partial) : Bool := p.cl = cl && p.pa = pa && p.op = op && p.ty = ty
  let add (p : Partial) : Partial := if same p then { p with val := atomNew op ty p.val v 0 } else p
  let new : Partial :=
    { id := s.uids + 1, cl := cl, pa := pa, op := op, ty := ty, width := width, val := v, vf := vf, arena := arena, bad := false }
  let ps := if s.ms.partials.any same then s.ms.partials.map add else s.ms.partials ++ [new]
  { s with uids := s.uids + 1, ms := { s.ms with partials := ps } }.wakeLine (pa / 128)

/-- One contribution staged as a partial (R188, R196), after the recalls that have to come first (R170); on a line that the
group itself holds it is applied at once. -/
def State.stage (s : State) (cl vf group arena pa op ty width v : Nat) : State :=
  let line := pa / 128
  if s.ms.pins.any fun p => p.line = line && p.group = group then
    let old := leNat (Memory.readN s.ms.mem pa width)
    s.store (some cl) vf arena pa (natBytes width (atomNew op ty old v 0))
  else
    let s := if s.ms.partials.any fun p => p.differs cl pa op ty width then s.recall line else s
    let s := match s.recallFirst (vf / 16) cl line with
      | some l => s.recall l
      | none => s
    (s.addPartial cl vf arena pa op ty width v).listHolder vf arena cl line

/-- A contribution can be staged now: no recall that has to come first waits for a pin (R170, R188). -/
def State.canStage (s : State) (cl vf group pa op ty width : Nat) : Bool :=
  s.ms.pins.any (fun p => p.line = pa / 128 && p.group = group)
    || (s.mayStage (vf / 16) cl (pa / 128)
      && !(s.ms.refuses none (pa / 128) && s.ms.partials.any fun p => p.differs cl pa op ty width))

/-- One thread's RED at its place (R188, R196): on another chip's location into the line held for the group, or at the exporter,
where it stages its partial. -/
def State.redAt (s : State) (c : Cx) (h : Hit) : State :=
  let v := (c.atomArgs h.t).1
  if (s.vf c.g.vf).staleAt h.arena then s
  else if inImport h.pa then
    match c.far s h.pa with
    | some x =>
      let new := natBytes c.atomBytes (c.atomOp h.t (leNat (x.bytes h.pa c.atomBytes)))
      s.setFar x (putBytes x.data (h.pa % 128) new)
    | none => s.askWrite c.g.cl c.g.vf 4 2 h.pa c.atomCode c.atomBytes (c.atomData h.t) (c.asker h.t.key 0)
  else s.stage c.g.cl c.g.vf c.g.uid h.arena h.pa c.e.rm.toNat c.e.ty.toNat c.atomBytes v

/-- RED (R188, R196): a pin of another group refuses it nothing; it waits only where a recall that must come first does. -/
def redBody (c : Cx) (s : State) : Act :=
  let sc := c.e.sc.toNat
  let va (t : Thread) : Nat := c.g.address t c.e 2 64 c.atomScale
  let rs := c.act.map fun t => (t, s.checkVa c (va t) c.atomBytes { w := true })
  let bad := rs.filterMap fun x => match x.2 with
    | .bad f => some (x.1.key, f)
    | _ => none
  let pages := rs.filterMap fun x => match x.2 with
    | .page va => some va
    | _ => none
  let hits := rs.filterMap fun x => match x.2 with
    | .ok pa arena => some { t := x.1, pa := pa, arena := arena : Hit }
    | _ => none
  let stuck (h : Hit) : Bool := !inImport h.pa
    && !s.canStage c.g.cl c.g.vf c.g.uid h.pa c.e.rm.toNat c.e.ty.toNat c.atomBytes
  if !bad.isEmpty then .fault bad
  else
    match pages with
    | va :: _ => .stay (s.holdPage c va true false false)
    | [] =>
      if hits.any stuck then .stay (s.stalled c)
      else releaseFirst c s (c.releases && 2 ≤ sc && !hits.isEmpty) fun s =>
        .done (hits.foldl (fun s h => s.redAt c h) s)

/-- ATOMS (R199): the threads perform in ascending order on the scratchpad; a word with an uncorrectable error gives its mark
and keeps its contents (R175). -/
def atomsBody (c : Cx) (s : State) : Act :=
  let o (t : Thread) : Nat := c.sp t c.atomScale
  let nr : Bool := c.e.lo.toNat / 2 % 2 = 1
  let bad := Cx.bads c.actS fun t => spFault (o t) c.atomBytes 0 c.g.launch.space true
  if !bad.isEmpty then .fault bad
  else
    let one (g : Group) (t : Thread) : Group × Out :=
      let err := g.spErrs (o t) c.atomBytes
      let old := leNat (g.spRead (o t) c.atomBytes)
      (if err then g else g.spWrite (o t) (natBytes c.atomBytes (c.atomOp t old)),
        c.atomOut t.key old (if err then some .ecc else none))
    let (g, os) := c.actS.foldl (fun (x : Group × List Out) t => let (g, y) := one x.1 t; (g, x.2 ++ [y])) (c.g, [])
    .done ((s.conflicts c.g.cl (spWords c.atomBytes (c.actS.map o))).setGroup c.gi fun _ => if nr then g else g.addOuts os)

/-! ### Barriers -/

/-- The barrier that the instruction names. -/
def Cx.barrier (c : Cx) : Nat := c.e.op0.index

/-- BAR `.arv` (R206): every active thread arrives. -/
def State.arrives (s : State) (c : Cx) (set : Option (Nat × Bool)) : State :=
  c.act.foldl (fun s t => s.arriveAt c.gi c.barrier t.key set) s

/-- BAR `.arv` (R206). -/
def barArvBody (c : Cx) (s : State) : Act := .done (s.arrives c none)

/-- `Wait(b, t)` (R206): a ticket below the phase passes on at once; any other holds the thread. A thread whose arrival still
waits has no ticket yet and takes it with that arrival. -/
def Group.await (g : Group) (c : Cx) (clock : Nat) (t : Thread) : Group :=
  let b := c.barrier
  let phase := (g.bar b).phase
  let late : Bool := g.arvs.any fun a => a.key = t.key && a.bar = b
  let ticket := (((g.find t.key).getD t).ticket b).getD phase
  if !late && phaseBefore ticket phase then (g.modify t.key fun t => t.setTicket b none).file clock t.key c.nextPc
  else
    (g.modify t.key fun t => t.setTicket b (if late then none else some ticket)).send t.key
      (.held (.barrier b) c.heldAt clock 0) c.nextPc

/-- BAR `.wait` (R206). -/
def barWaitBody (c : Cx) (s : State) : Act := .moved (s.arriveAll c fun g t => g.await c s.clock t)

/-- BAR `.sync`, `.set` and `.swap` (R206): every active thread arrives, then waits. -/
def barSyncBody (set : Cx → Option (Nat × Bool)) (c : Cx) (s : State) : Act := barWaitBody c (s.arrives c (set c))

/-- BAREXP's count (R205, R208). -/
def Cx.expCount (c : Cx) (t : Thread) : Nat :=
  match litAt c.o c.e 1 with
  | some x => x % 2 ^ 56
  | none => c.g.src t 1 c.e.op1

/-- BAREXP (R208). -/
def barexpBody (c : Cx) (s : State) : Act :=
  .done (s.onBars c.gi fun g => c.act.foldl (fun g t => g.expect s.clock c.barrier (c.expCount t)) g)

/-- The barrier of a group whose current phase has arrived at a set, with whether its phase began by `.swap` (R209). -/
def Group.sentBar (g : Group) (set : Nat) : Option (Nat × Bool) :=
  g.bars.zipIdx.findSome? fun (x, b) =>
    match x.sets.lookup x.phase with
    | some (n, swap) => if x.sent && n = set then some (b, swap) else none
    | none => none

/-- A group at the completion of a set phase: its banks, and then its barrier (R209, R210). -/
def Group.setComplete (g : Group) (clock set : Nat) (swap : Bool) : Group :=
  let g := if swap then { g with swapped := !g.swapped, swaps := true } else g
  match g.sentBar set with
  | some (b, _) => (g.complete clock b).settleBar clock b
  | none => g

/-- The members of a set of a task: the group indices of its list (R154). -/
def State.setMembers (s : State) (task : Task) (set : Nat) : List Nat :=
  let entry := task.launch.sets.getD set 0
  (List.range (setCount entry)).map fun m => s.devNat task.vf (task.lrec + setList entry + 4 * m) 4

/-- SET_PHASE_COMPLETE (R209, R210): every member of the set has arrived or finished; the banks of every member are
exchanged if the phase began by `.swap`, full/empty accesses that this satisfies are served, and each member's barrier
completes. -/
def evSetPhaseComplete (uid set : Nat) (s : State) : State :=
  match s.taskOf uid with
  | none => s
  | some task =>
    let mem := s.setMembers task set
    let run := (s.groups.filter fun g => g.task = uid) ++ task.saved.map Saved.group
    let here (i : Nat) : Option Group := run.find? fun g => g.gidx = i
    let arrived (i : Nat) : Bool := i < task.cursor || task.finished.contains i || (match here i with
      | some g => (g.sentBar set).isSome && s.flushed g
      | none => false)
    let live := mem.filterMap here
    if !setValid (task.launch.sets.getD set 0) || live.isEmpty || !mem.all arrived then s
    else
      let swap := live.any fun g => match g.sentBar set with
        | some (_, b) => b
        | none => false
      let mine (g : Group) : Bool := g.task = uid && mem.contains g.gidx
      let fix (g : Group) : Group := if mem.contains g.gidx then g.setComplete s.clock set swap else g
      let one (s : State) (gi : Nat) : State :=
        if ((s.groups[gi]?).map mine).getD false then
          (s.onBars gi fun g => g.setComplete s.clock set swap).onFe gi 0 fun g => g.feSettle s.clock
        else s
      let s := (List.range s.groups.length).foldl one s
      s.setTask uid fun t => { t with saved := t.saved.map fun x => { x with group := fix x.group } }

/-! ### FENCE -/

/-- The commands, requests and stores that a fence of a thread over a class set waits for (R189, R213): V, its requests and
the write-backs of its group's lines; C, its copies; M, its matrix commands; X, its unacknowledged STX stores; T, the
windrow entries that hold contributions of it, and its copies and drains, which may still contribute. -/
def State.fenceIds (s : State) (g : Group) (k : Key) (classes : Nat) : List Nat :=
  let asks (r : Req) : Bool := r.group = g.uid && r.copy = 0 && (r.key = k && r.cls = 1 || r.cls = 128)
  (if bitAt classes 0 then (s.fab.reqs.filter asks).map Req.tag else [])
    ++ ((s.copies.filter fun x => x.group = some g.uid && x.key = k
        && (bitAt classes 1 || bitAt classes 4 && tf x.tmpl 36 7 != 127)).map Copy.id)
    ++ (((s.fill ++ s.compute).filter fun x => x.group = g.uid && x.key = k
        && (bitAt classes 2 || bitAt classes 4 && x.o = .adrain)).map MxCmd.id)
    ++ (if bitAt classes 3 then (g.stx.filter fun x => x.key = k).map Stx.id else [])
    ++ (if bitAt classes 4 then
        ((s.ms.windrows ++ s.ms.pushes).filter fun w => w.givers.any fun x => x.1 = g.uid && x.2.1 = k).map Windrow.id else [])

/-- The numbers of everything that a fence can wait for and that is not over. -/
def State.underWay (s : State) : List Nat :=
  s.copies.map Copy.id ++ (s.fill ++ s.compute).map MxCmd.id ++ s.fab.reqs.map Req.tag
    ++ s.groups.flatMap (fun g => g.stx.map Stx.id) ++ (s.ms.windrows ++ s.ms.pushes).map Windrow.id
    ++ s.ms.partials.map Partial.id ++ s.ms.late.map Late.id

/-- Partials that a fence waits for are combined as soon as no pin refuses their recall (R186, R213). -/
def State.fenceRecalls (s : State) : State :=
  let named (p : Partial) : Bool := s.groups.any fun g => g.fences.any fun f => f.ids.contains p.id
  (s.ms.partials.filter named).foldl (fun s p => s.recall (p.pa / 128)) s

/-- Fences for which everything has ended are complete (R213). -/
def State.sweepFences (s : State) : State :=
  let s := s.fenceRecalls
  let live := s.underWay
  { s with groups := s.groups.map fun g =>
      { g with fences := g.fences.filter fun f => f.ids.any live.contains } }

/-- FENCE (R213): per thread it waits for its accesses of the classes; at cluster scope or wider the group's pins end; at
device scope or wider it also waits until every partial of the partition has been combined at its home. -/
def fenceBody (c : Cx) (s : State) : Act :=
  let sc := c.e.sc.toNat
  if c.act.isEmpty then .done s
  else
    let s := if 2 ≤ sc then s.unpin c.g.uid else s
    let mine := if 4 ≤ sc then s.ms.partials.filter fun p => p.vf / 16 = c.g.vf / 16 else []
    let s := mine.foldl (fun s p => s.recall (p.pa / 128)) s
    let left := (mine.filter fun p => s.ms.partials.any fun q => q.id = p.id).map Partial.id
    let new := c.act.filterMap fun t =>
      let ids := s.fenceIds c.g t.key c.e.classes ++ left
      if ids.isEmpty then none
      else some { key := t.key, classes := c.e.classes, ids := ids, site := some (c.site, c.sh.hdr) : Fence }
    .done (s.setGroup c.gi fun g => { g with fences := g.fences ++ new })

/-- LDF (R201). -/
def execLdf (e : Ext) (s : State) : Host.Outcome State Fault Refusal :=
  issueE .ldf e s (feBody Cx.width (fun c t => .ldf (c.sp t c.e.scale) c.wregs c.e.ord c.e.op0.index) false)
/-- STE (R201). -/
def execSte (e : Ext) (s : State) : Host.Outcome State Fault Refusal :=
  issueE .ste e s (feBody Cx.width (fun c t =>
    .ste (c.sp t c.e.scale) (natWords c.wregs (c.g.src t c.wregs c.e.op3))) true)
/-- FEINIT (R202). -/
def execFeinit (e : Ext) (s : State) : Host.Outcome State Fault Refusal := issueE .feinit e s feinitBody
/-- WAITA (R204). -/
def execWaita (e : Ext) (s : State) : Host.Outcome State Fault Refusal := issueE .waita e s waitaBody
/-- ATOM (R195). -/
def execAtom (e : Ext) (s : State) : Host.Outcome State Fault Refusal := issueE .atom e s atomBody
/-- RED (R196). -/
def execRed (e : Ext) (s : State) : Host.Outcome State Fault Refusal := issueE .red e s redBody
/-- ATOMS (R199). -/
def execAtoms (e : Ext) (s : State) : Host.Outcome State Fault Refusal := issueE .atoms e s atomsBody
/-- BAR `.arv` (R206). -/
def execBarArv (e : Ext) (s : State) : Host.Outcome State Fault Refusal := issueE .barArv e s barArvBody
/-- BAR `.wait` (R206). -/
def execBarWait (e : Ext) (s : State) : Host.Outcome State Fault Refusal := issueE .barWait e s barWaitBody
/-- BAR `.sync` (R206). -/
def execBarSync (e : Ext) (s : State) : Host.Outcome State Fault Refusal :=
  issueE .barSync e s (barSyncBody fun _ => none)
/-- BAR `.set` (R206, R209). -/
def execBarSet (e : Ext) (s : State) : Host.Outcome State Fault Refusal :=
  issueE .barSet e s (barSyncBody fun c => (c.g.membership c.e.op1.index).map fun x => (x.1, false))
/-- BAR `.swap` (R206, R210). -/
def execBarSwap (e : Ext) (s : State) : Host.Outcome State Fault Refusal :=
  issueE .barSwap e s (barSyncBody fun c => c.g.xchgSet.map fun x => (x.1, true))
/-- BAREXP (R208). -/
def execBarexp (e : Ext) (s : State) : Host.Outcome State Fault Refusal := issueE .barexp e s barexpBody
/-- FENCE (R213). -/
def execFence (e : Ext) (s : State) : Host.Outcome State Fault Refusal := issueE .fence e s fenceBody
/-- FE_TIMEOUT (R203). -/
def execFeTimeout (g t : Nat) (s : State) : Host.Outcome State Fault Refusal := .next (evFeTimeout g t s)
/-- WAITA_POLL (R204). -/
def execWaitaPoll (g t : Nat) (s : State) : Host.Outcome State Fault Refusal := .next (evWaitaPoll g t s)
/-- SET_PHASE_COMPLETE (R209). -/
def execSetPhaseComplete (task set : Nat) (s : State) : Host.Outcome State Fault Refusal :=
  .next (evSetPhaseComplete task set s)

end Sys2Proof.Machine
end

