-- ==== Sys2Proof/Machine/ArenaOps.lean ====
section
/-! DEFINITION. Arenas (R280 to R297): creating, allocating, querying, dropping and sealing; the points of a change,
of a seal and the end of a sweep. -/

namespace Sys2Proof.Machine

/-! ### The arena unit -/

/-- A handle names a LIVE entry: index and generation match (R288, R289). -/
def VF.liveAt (v : VF) (h : Nat) : Bool :=
  let a := v.arena (h % 4096)
  a.state = 1 && a.gen = h / 4096 % 16

/-- x rounded up to a multiple of n. -/
def roundUp (x n : Nat) : Nat := (x + (n - 1)) / n * n

/-- The lowest index from i on whose entry is FREE, among n indices (R288). -/
def VF.freeIndex (v : VF) : Nat → Nat → Option Nat
  | 0, _ => none
  | n + 1, i => if (v.arena i).state = 0 then some i else v.freeIndex n (i + 1)

/-- ARNEW of one thread (R288): the table and the handle, 0 for failure. -/
def VF.arnew (v : VF) (p q : Nat) : VF × Nat :=
  let i := p % 4096
  let a := v.arena i
  let size := roundUp q 65536
  if !v.liveAt p || a.depth = 8 || q = 0 then (v, 0)
  else
    match v.freeIndex 4095 1 with
    | none => (v, 0)
    | some n =>
      let b := roundUp a.bump 65536
      if a.base + a.quota < b + size then (v, 0)
      else
        let old := v.arena n
        let v := v.setArena n { charged := 0, bump := b, quota := size, base := b, parent := i, depth := a.depth + 1
                                gen := old.gen, state := 1, cgen := old.gen, cstate := 1 }
        (v.setArena i { a with bump := b + size, charged := a.charged + size }, 4096 * old.gen + n)

/-- AALLOC of one thread (R289): the table and the address, 0 for failure. -/
def VF.aalloc (v : VF) (h n align : Nat) : VF × Nat :=
  let a := v.arena (h % 4096)
  let b := roundUp a.bump (2 ^ align)
  if !v.liveAt h || n = 0 || a.base + a.quota < b + n then (v, 0)
  else (v.setArena (h % 4096) { a with bump := b + n, charged := a.charged + n }, b)

/-- ARQRY of one thread (R290): the pair's value. -/
def VF.arqry (v : VF) (h field : Nat) : Nat :=
  let a := v.arena (h % 4096)
  match field with
  | 0 => (if h / 4096 % 16 = a.gen then 2 ^ 31 else 0) + a.parent * 2 ^ 12 + a.depth * 2 ^ 8 + a.gen * 2 ^ 4 + a.state
  | 1 => a.base
  | 2 => a.quota
  | 3 => a.bump
  | _ => a.charged

/-- Index i is index a or lies below it, within a number of levels. -/
def VF.below (v : VF) (a : Nat) : Nat → Nat → Bool
  | 0, i => i = a
  | n + 1, i => i = a || (i != 0 && v.below a n (v.arena i).parent)

/-- The entries that a drop or a seal of an arena reaches, the arena first (R291, R295). -/
def VF.reached (v : VF) (drop : Bool) (i : Nat) : List Nat :=
  let hit (x : Nat × Arena) : Bool :=
    x.1 != i && v.below i 8 x.1 && (if drop then x.2.state = 1 || x.2.state = 2 else x.2.state = 1)
  i :: sortBy (fun x : Nat => x) ((v.arenas.filter hit).map Prod.fst)

/-- The arena unit's part of a drop (R291 step 2). -/
def VF.drop (v : VF) (id i : Nat) : VF :=
  let xs := v.reached true i
  let v' := xs.foldl (fun v j =>
    let a := v.arena j
    v.setArena j { a with gen := (a.gen + 1) % 16, state := 3 }) v
  { v' with changes := v'.changes ++ [{ id := id, drop := true, idxs := xs, passed := none }] }

/-- The arena unit's part of a seal (R295 step 2). -/
def VF.seal (v : VF) (id i : Nat) : VF :=
  let xs := v.reached false i
  let v' := xs.foldl (fun v j => v.setArena j { v.arena j with state := 2 }) v
  { v' with changes := v'.changes ++ [{ id := id, drop := false, idxs := xs, passed := none }] }

/-- A seal of an arena that is SEALED already waits for that arena's seal where it is not complete (R295). -/
def VF.resealed (v : VF) (id i : Nat) : VF :=
  if v.changes.any fun x => !x.drop && x.idxs.contains i then
    { v with changes := v.changes ++ [{ id := id, drop := false, idxs := [i], passed := some 0 }] }
  else v

/-! ### The instructions -/

/-- The handle of a thread. -/
def Cx.handle (c : Cx) (t : Thread) : Nat := c.g.src t 1 c.e.op1

/-- PROTECTION for the threads whose handle is wider than 16 bits (R280). -/
def Cx.wideHandles (c : Cx) : List (Key × Flt) :=
  Cx.bads c.actS fun t => if 2 ^ 16 ≤ c.handle t then some { cls := 6 } else none

/-- The results of an arena instruction that changes the table, thread by thread (R287). -/
def tableBody (f : Thread → VF → VF × Nat) (n : Nat) (c : Cx) (s : State) : Act :=
  if !c.wideHandles.isEmpty then .fault c.wideHandles
  else
    let r := c.actS.foldl (fun (x : VF × List Out) t =>
      let y := f t x.1
      (y.1, x.2 ++ [c.out t.key ((c.dstN n y.2).map fun w => (w.1, w.2, none)) true 0])) (s.vf c.g.vf, [])
    .done ((s.setVf c.g.vf fun _ => r.1).setGroup c.gi fun g => g.addOuts r.2)

/-- ARNEW (R288). -/
def arnewBody (c : Cx) (s : State) : Act :=
  tableBody (fun t v => v.arnew (c.handle t) (c.g.arg t c.o c.e 2 2)) 1 c s

/-- AALLOC (R289). -/
def aallocBody (c : Cx) (s : State) : Act :=
  tableBody (fun t v => v.aalloc (c.handle t) (c.g.arg t c.o c.e 1 2) (c.e.lo.toNat + 16 * (c.e.sc.toNat % 2))) 2 c s

/-- ARQRY (R290). -/
def arqryBody (c : Cx) (s : State) : Act :=
  tableBody (fun t v => (v, v.arqry (c.handle t) (c.e.lo.toNat % 8))) 2 c s

/-- What a thread's ARDROP or ARSEAL does at the unit (R291, R295): the table, and whether the thread faults. `done`
lists the handles that earlier threads of the instruction have dropped or sealed. -/
def unitAct (drop : Bool) (id h : Nat) (x : VF × List Nat) : Except Nat (VF × List Nat) :=
  let v := x.1
  let i := h % 4096
  let a := v.arena i
  let mine (j : Nat) : Nat := 4096 * (v.arena j).gen + j
  if i = 0 then .error 6
  else if x.2.contains h then .ok x
  else if a.state = 0 || a.state = 3 || a.gen != h / 4096 % 16 then .error 7
  else if drop then .ok (v.drop id i, x.2 ++ (v.reached true i).map mine)
  else if a.state = 2 then .ok (v.resealed id i, x.2)
  else .ok (v.seal id i, x.2 ++ (v.reached false i).map mine)

/-- A RELEASE AT DEVICE SCOPE ON EVERY PATH (R291 step 1): the group's pins end (R186), and it has taken place once no command,
request or contribution of the issuing threads is under way; a partial has performed already (R188), and so has what they acquired,
since the release that it came from waited in the same way. The state, and whether it has. -/
def State.released (s : State) (c : Cx) : State × Bool :=
  let s := s.unpin c.g.uid
  (s, !c.act.any fun t => (s.fenceIds c.g t.key 31).any s.underWay.contains)

/-- What the threads of an ARDROP or ARSEAL do at the unit, in order: the table with the handles dropped or sealed, and the
faults (R291, R295). -/
def Cx.unitActs (c : Cx) (drop : Bool) (id : Nat) (v : VF) : (VF × List Nat) × List (Key × Flt) :=
  c.act.foldl (fun (x : (VF × List Nat) × List (Key × Flt)) t =>
    match unitAct drop id (c.handle t) x.1 with
    | .ok y => (y, x.2)
    | .error cls => (x.1, x.2 ++ [(t.key, { cls := cls })])) ((v, []), [])

/-- ARDROP and ARSEAL (R291, R295): the checks, the release, the unit's part, and then the sheaf is held until the
changes of this instruction have taken effect. -/
def changeBody (drop : Bool) (c : Cx) (s : State) : Act :=
  match c.sh.hold with
  | .arena n => if (s.vf c.g.vf).changes.any fun x => x.id = n then .stay s else .done s
  | _ =>
    if !c.wideHandles.isEmpty then .fault c.wideHandles
    else
      let id := s.uids + 1
      let faults := (c.unitActs drop id (s.vf c.g.vf)).2
      if !faults.isEmpty then .fault faults
      else if c.act.isEmpty then .done s
      else
        let (s, over_) := s.released c
        if !over_ then .stay (s.stalled c)
        else
          let s := { s.setVf c.g.vf fun v => (c.unitActs drop id v).1.1 with uids := id }
          if (s.vf c.g.vf).changes.any fun x => x.id = id then .stay (s.setSheaf c.gi c.si fun sh => { sh with hold := .arena id })
          else .done s

/-! ### Points and sweeps -/

/-- The partition of a VF (R328). -/
def partOf (vf : Nat) : Nat := vf / 16

/-- A sweep runs: fewer than 32 sweeps of its partition with an earlier drop point have not ended (R293). -/
def State.sweepRuns (s : State) (vf : Nat) (x : Sweep) : Bool :=
  let vfs := (List.range 128).filter fun i => partOf i = partOf vf
  ((vfs.flatMap fun i => (s.vf i).sweeps).filter fun y => y.order < x.order).length < 32

/-- The drain markers that follow the request of a number have passed: every request sent by then has performed or been
discarded (R293, R295). -/
def State.markersPassed (s : State) (n : Nat) : Bool := !s.fab.reqs.any fun r => r.tag ≤ n

/-- The handle's arena is one of a list of indices, in the generation that its entry had before its drop. -/
def VF.droppedAt (v : VF) (idxs : List Nat) (handle : Nat) : Bool := idxs.contains (handle % 4096) && v.staleAt handle

/-- A waiter whose word was in a dropped arena when it came to wait resumes (R204, R292). -/
def Thread.wakeDropped (clock : Nat) (gone : Nat → Bool) (t : Thread) : Thread :=
  match t.place with
  | .held (.waita _ _ arena _ _ _ _) site _ _ => if gone arena then { t with place := .bin clock, pc := site.next } else t
  | _ => t

/-- WHAT A DROP POINT DISCARDS (R292, R376), by the pair that each thing took with it (R284): dirty lines, whose places keep what
was written back to them, every tag, pins and lines of other chips, partials with their directory entries, windrow
entries; an ERRORED line is freed and counted; watching threads resume, and what waited for a pin goes on. -/
def State.discard (s : State) (vf : Nat) (idxs : List Nat) : State :=
  let gone (v a : Nat) : Bool := v = vf && (s.vf vf).droppedAt idxs a
  let m := s.ms
  let back := m.dirty.filter fun d => gone d.vf d.arena
  let freed (line : Nat) : Bool := m.pins.any fun p => p.line = line && gone p.vf p.arena
  let late := m.late.filter fun x => freed (x.pa / 128)
  let dead := s.hier.slices.filter fun x => m.errored.contains x.line && gone x.vf x.arena
  let partials := m.partials.filter fun p => !gone p.vf p.arena
  let wake (g : Group) : Group :=
    if g.vf = vf then { g with threads := g.threads.map (Thread.wakeDropped s.clock fun a => gone vf a) } else g
  let s := { s with
    ms := { m with
      mem := back.foldl (fun a (d : Dirty) => Memory.writeN a (d.line * 128) d.old) m.mem
      dirty := m.dirty.filter fun d => !gone d.vf d.arena
      pins := m.pins.filter fun p => !gone p.vf p.arena
      late := m.late.filter fun x => !freed (x.pa / 128)
      far := m.far.filter fun x => !gone x.vf x.arena
      partials := partials
      errored := m.errored.filter fun l => !dead.any fun x => x.line = l
      windrows := m.windrows.filter fun w => !gone w.vf w.arena
      pushes := m.pushes.filter fun w => !gone w.vf w.arena }
    hier := { s.hier with dir := s.hier.dir.filter fun e => partials.any fun p => p.pa / 128 = e.line }
    groups := s.groups.map wake }.dropTags gone
  let s := dead.foldl (fun s x => s.noteError .sliceDirty (x.slice / 48) x.line true none) s
  late.foldl (fun s x => if (s.vf x.vf).staleAt x.arena then s else s.store none x.vf x.arena x.pa [x.byte]) s

/-- WHAT THE SEAL OF SOME ARENAS COMPLETES (R295 step 4, R296): their pins end, their partials are combined at home, and the
contributions that stand in windrow entries for their records merge. -/
def State.complete (s : State) (vf : Nat) (idxs : List Nat) : State :=
  let mine (w a : Nat) : Bool := w = vf && idxs.contains (a % 4096) && !(s.vf vf).staleAt a
  let s := s.endPins fun p => mine p.vf p.arena
  let s := (s.ms.partials.filter fun p => mine p.vf p.arena).foldl (fun s p => s.recall (p.pa / 128)) s
  ((s.ms.pushes ++ s.ms.windrows).filter fun w => mine w.vf w.arena).foldl (fun s w => s.pushAll w.vf w.recVa) s

/-- The change at the copies of one index: a drop steps GEN, a seal sets STATE (R282, R291, R295). -/
def Change.put (ch : Change) (v : VF) (j : Nat) : VF :=
  let a := v.arena j
  v.setArena j (if ch.drop then { a with cgen := (a.cgen + 1) % 16, cstate := 3 } else { a with cstate := 2 })

/-- ARENA_CHANGE_POINT (R282, R291): every copy has acknowledged the i-th change of a VF; changes have their points in the order
of the arena unit (R287, R297). At a drop point the sheaf is released and the sweep starts; what was sent before a seal
performs, contributions in windrow entries among it (R296). -/
def evArenaChangePoint (vf i : Nat) (s : State) : State :=
  let v := s.vf vf
  match v.changes[i]? with
  | none => s
  | some ch =>
    if ch.passed.isSome || (v.changes.take i).any fun x => x.passed.isNone then s
    else if ch.drop then
      let v' := ch.idxs.foldl ch.put v
      let head := ch.idxs.headD 0
      let stays (x : Change) : Bool := x.id != ch.id || x.idxs != ch.idxs || x.drop != ch.drop
      let open_ (x : Change) : Bool := x.drop || !ch.idxs.contains (x.idxs.headD 0)
      let sweep : Sweep := { idxs := ch.idxs, handle := 4096 * (v.arena head).cgen + head, order := s.uids + 1 }
      let v' := { v' with
        changes := v'.changes.filter fun x => stays x && open_ x
        sweeps := v'.sweeps ++ [sweep] }
      State.discard { s.setVf vf fun _ => v' with uids := s.uids + 1 } vf ch.idxs
    else
      let s := s.complete vf ch.idxs
      s.setVf vf fun v => { ch.idxs.foldl ch.put v with
        changes := modAt v.changes i fun x => { x with passed := some s.uids } }

/-- SEAL_POINT (R295 steps 3 to 5): once the markers of the first open seal of an arena have passed, partials are combined and
pins end; once what this writes to other chips has performed as well, the seal completes, in the order of the arena unit
(R297; log 117). -/
def evSealPoint (vf idx : Nat) (s : State) : State :=
  let v := s.vf vf
  match v.changes.findIdx? fun x => !x.drop && x.passed.isSome && x.idxs.headD 0 = idx with
  | none => s
  | some i =>
    let ch := v.changes.getD i { id := 0, drop := false, idxs := [], passed := none }
    if !s.markersPassed (ch.passed.getD 0) || (v.changes.take i).any fun x => !x.drop then s
    else
      let s' := s.complete vf ch.idxs
      if s'.fab.reqs.any fun r => s.uids < r.tag then
        s'.setVf vf fun v => { v with changes := modAt v.changes i fun x => { x with passed := some s'.uids } }
      else s'.setVf vf fun v => { v with changes := v.changes.eraseIdx i }

/-- SWEEP_END (R293): the entries become FREE, the range returns to the parent, and the pager is told, once the markers have
passed. A sweep of a descendant whose drop point came earlier ends first, and only 32 sweeps of a partition run. -/
def evSweepEnd (vf idx : Nat) (s : State) : State :=
  let v := s.vf vf
  match v.sweeps.findIdx? fun x => x.idxs.headD 0 = idx with
  | none => s
  | some i =>
    let sw := v.sweeps.getD i { idxs := [], handle := 0, order := 0 }
    if !s.sweepRuns vf sw || !s.markersPassed sw.order || (v.sweeps.take i).any fun x => v.below idx 8 (x.idxs.headD 0) then s
    else
      let a := v.arena idx
      let v := sw.idxs.foldl (fun v j => v.setArena j { v.arena j with state := 0, cstate := 0 }) v
      let p := v.arena a.parent
      let v := v.setArena a.parent { p with
        charged := p.charged - a.quota
        bump := if p.bump = a.base + a.quota then a.base else p.bump }
      let v := { v with sweeps := v.sweeps.eraseIdx i }
      (s.setVf vf fun _ => v).post vf v.pager a.base 3 0 sw.handle (a.quota / 65536)

/-- The drop at retirement with DROPARENA (R275, R291): with no thread held; nothing where the arena is 0, stale, FREE
or SWEEPING, which is counted. -/
def State.dropArena (s : State) (vf h : Nat) : State :=
  match unitAct true (s.uids + 1) h (s.vf vf, []) with
  | .ok x => { s.setVf vf fun _ => x.1 with uids := s.uids + 1 }
  | .error _ => s.note .arena

/-- ARNEW (R287, R288). -/
def execArnew (e : Ext) (s : State) : Host.Outcome State Fault Refusal := issueE .arnew e s arnewBody
/-- ARDROP (R287, R291). -/
def execArdrop (e : Ext) (s : State) : Host.Outcome State Fault Refusal := issueE .ardrop e s (changeBody true)
/-- ARSEAL (R287, R295). -/
def execArseal (e : Ext) (s : State) : Host.Outcome State Fault Refusal := issueE .arseal e s (changeBody false)
/-- ARQRY (R290). -/
def execArqry (e : Ext) (s : State) : Host.Outcome State Fault Refusal := issueE .arqry e s arqryBody
/-- AALLOC (R287, R289). -/
def execAalloc (e : Ext) (s : State) : Host.Outcome State Fault Refusal := issueE .aalloc e s aallocBody
/-- ARENA_CHANGE_POINT (R282, R291). -/
def execArenaChangePoint (vf i : Nat) (s : State) : Host.Outcome State Fault Refusal := .next (evArenaChangePoint vf i s)
/-- SEAL_POINT (R295). -/
def execSealPoint (vf idx : Nat) (s : State) : Host.Outcome State Fault Refusal := .next (evSealPoint vf idx s)
/-- SWEEP_END (R293). -/
def execSweepEnd (vf idx : Nat) (s : State) : Host.Outcome State Fault Refusal := .next (evSweepEnd vf idx s)

end Sys2Proof.Machine
end

