-- ==== Sys2Proof/Machine/Record.lean ====
section
/-! DEFINITION. The launch record as the device reads it (R265), with the limits of R78 that a launch keeps. -/

namespace Sys2Proof.Machine

/-- The launch record at an address of a VF (R265). -/
def State.readLaunch (s : State) (vf a : Nat) : Launch :=
  let num (o n : Nat) : Nat := s.devNat vf (a + o) n
  let argc := num 31 1
  { entry := BitVec.ofNat 64 (num 0 8), handler := BitVec.ofNat 64 (num 8 8), seed := BitVec.ofNat 64 (num 16 8)
    csize := num 24 4, threads := num 28 2, nv := 8 * num 30 1, argc := argc, scratch := num 32 4, exch := num 36 4
    ntiles := num 40 1, nslots := num 41 1, nbars := num 42 1, cexp := num 44 1, fexp := num 45 1
    ks := (List.range 8).map fun i => BitVec.ofNat 32 (num (48 + 4 * i) 4)
    args := (List.range (Nat.min argc 64)).map fun i => BitVec.ofNat 32 (num (80 + 4 * i) 4)
    streams := (List.range 16).map fun i => BitVec.ofNat 256 (num (336 + 32 * i) 32)
    sets := (List.range 256).map fun i => BitVec.ofNat 64 (num (848 + 8 * i) 8)
    gx := num 2896 4, gy := num 2900 4, gz := num 2904 4
    exps := (List.range 96).map fun i => num (2908 + 2 * i) 2
    templates := (List.range (Nat.min (num 46 1) 64)).map fun i => BitVec.ofNat 512 (num (3136 + 64 * i) 64) }

end Sys2Proof.Machine
end

