-- ==== Sys2Proof/Machine/Trace.lean ====
section
/-! DEFINITION. The trace ring of a VF (R400). -/

namespace Sys2Proof.Machine

/-- The records that a trace ring holds (R400): TLOG is taken within 6 to 24. -/
def VF.traceSize (v : VF) : Nat := 2 ^ Nat.max 6 (Nat.min 24 (v.tctl.extractLsb' 1 5).toNat)

/-- Tracing is enabled; for an engine (0 copy, 1 fill, 2 compute) its bit of the mask is set too. -/
def VF.traces (v : VF) (engine : Option Nat) : Bool :=
  v.running && v.tctl.getLsbD 0 && (match engine with
    | some e => v.tctl.getLsbD (6 + e)
    | none => true)

/-- What a trace record holds beside its times (R400). -/
structure TraceRec where
  kind : Nat
  engine : Nat
  pkcl : Nat
  gidx : Nat
  seq : Nat
  start : Nat
  word : Word
  info : Nat
  detail : Nat
  pc : Nat
  deriving DecidableEq, Repr

/-- The 64 bytes of a record (R400). -/
def TraceRec.bytes (r : TraceRec) (now : Nat) : List Byte :=
  natBytes 1 r.kind ++ natBytes 1 r.engine ++ natBytes 2 (r.pkcl % 512) ++ natBytes 4 r.gidx ++ natBytes 8 r.seq
    ++ natBytes 8 r.start ++ natBytes 8 now ++ natBytes 4 r.word.toNat ++ natBytes 4 r.info ++ natBytes 8 r.detail
    ++ natBytes 8 r.pc ++ natBytes 8 0

/-- One record enters the ring, and then TPROD moves; a full ring drops it and counts it (R400). -/
def State.tracePut (s : State) (vf : Nat) (bytes : List Byte) : State :=
  let v := s.vf vf
  if v.traceSize ≤ v.tprod - v.tcons then s.setVf vf fun v => { v with tlost := v.tlost + 1 }
  else
    (s.devWrite vf (v.tbase.toNat + 64 * (v.tprod % v.traceSize)) bytes).setVf vf fun v => { v with tprod := v.tprod + 1 }

/-- A traced event of a VF (R400): where records were lost and room has returned, one record of kind 5 with their
count comes first. -/
def State.trace (s : State) (vf : Nat) (engine : Option Nat) (r : TraceRec) : State :=
  let v := s.vf vf
  if !v.traces engine then s
  else
    let s := if v.tlost != 0 && v.tprod - v.tcons < v.traceSize then
        let lost : TraceRec := { kind := 5, engine := r.engine, pkcl := r.pkcl, gidx := r.gidx, seq := r.seq, start := s.ns
                                 word := 0, info := v.tlost % 2 ^ 32, detail := 0, pc := 0 }
        (s.tracePut vf (lost.bytes s.ns)).setVf vf fun v => { v with tlost := 0 }
      else s
    s.tracePut vf (r.bytes s.ns)

/-- SEQ of the task of a group (R264, R400). -/
def State.taskSeq (s : State) (vf uid : Nat) : Nat :=
  match s.taskOf uid with
  | some t => s.tcbNat vf t.idx 40 8
  | none => 0

end Sys2Proof.Machine
end

