-- ==== Sys2Proof/Machine/Copy.lean ====
section
/-! DEFINITION. Copies (R216 to R223, R228, R229): their elements and units, the places they reach, their service and
completion. -/

namespace Sys2Proof.Machine

/-! ### Elements -/

/-- The template's source element size in bits. -/
def Copy.sbits (k : Copy) : Nat := elemBits (tf k.tmpl 14 4) (k.ks.getD (tf k.tmpl 22 3) 0)
/-- The template's destination element size in bits. -/
def Copy.dbits (k : Copy) : Nat := elemBits (tf k.tmpl 18 4) (k.ks.getD (tf k.tmpl 22 3) 0)
/-- CNTi of the template. -/
def Copy.cnt (k : Copy) (i : Nat) : Nat := tf k.tmpl (128 + 32 * i) 32
/-- The number of elements. -/
def Copy.total (k : Copy) : Nat := k.cnt 0 * k.cnt 1 * k.cnt 2 * k.cnt 3
/-- The planned byte count B (R216). -/
def Copy.bytes (k : Copy) : Nat := k.cnt 0 * k.dbits / 8 * (k.cnt 1 * k.cnt 2 * k.cnt 3)
/-- The number of destination units (R219). -/
def Copy.units (k : Copy) : Nat := (k.bytes + 127) / 128
/-- An aperture copy whose argument block is still to be read (R229). -/
def Copy.unread (k : Copy) : Bool := k.chan.isSome && k.block.isSome
/-- The format slot of the template. -/
def Copy.slot (k : Copy) : Slot := Slot.ofWord (k.ks.getD (tf k.tmpl 22 3) 0)
/-- DSP, SSP, CONV, DTARG and STARG of the template. -/
def Copy.dsp (k : Copy) : Nat := tf k.tmpl 10 2
/-- SSP. -/
def Copy.ssp (k : Copy) : Nat := tf k.tmpl 8 2
/-- CONV. -/
def Copy.conv (k : Copy) : Nat := tf k.tmpl 12 2
/-- DTARG. -/
def Copy.dtarg (k : Copy) : Nat := tf k.tmpl 36 7
/-- STARG. -/
def Copy.starg (k : Copy) : Nat := tf k.tmpl 29 7
/-- RING. -/
def Copy.ring (k : Copy) : Bool := tf k.tmpl 60 1 = 1

/-- The indices of the n-th element in iteration order (R216). -/
def Copy.index (k : Copy) (n : Nat) : Nat × Nat × Nat × Nat :=
  let a := n / k.cnt 0
  let b := a / k.cnt 1
  (n % k.cnt 0, a % k.cnt 1, b % k.cnt 2, b / k.cnt 2)

/-- The strided part of an address from the first stride field (R216). -/
def Copy.strided (k : Copy) (lo : Nat) (i1 i2 i3 : Nat) : Int :=
  i1 * sext 32 (tf k.tmpl lo 32) + i2 * sext 32 (tf k.tmpl (lo + 32) 32) + i3 * sext 32 (tf k.tmpl (lo + 64) 32)

/-- The source address of the n-th element, with its first bit in that byte (R216). -/
def Copy.sa (k : Copy) (n : Nat) : Nat × Nat :=
  let (i0, i1, i2, i3) := k.index n
  (wrap 64 ((k.src : Int) + (i0 * k.sbits / 8 : Nat) + k.strided 256 i1 i2 i3), i0 * k.sbits % 8)

/-- The destination address of the n-th element from a base, swizzled in a scratchpad (R216). -/
def Copy.da (k : Copy) (base n : Nat) : Nat × Nat :=
  let (i0, i1, i2, i3) := k.index n
  let x := wrap 64 ((base : Int) + (i0 * k.dbits / 8 : Nat) + k.strided 352 i1 i2 i3)
  let zs := tf k.tmpl 43 3
  let zw := tf k.tmpl 46 2
  (if k.dsp = 1 then x ^^^ (x / 2 ^ (7 + zs) % 2 ^ zw * 16) else x, i0 * k.dbits % 8)

/-- CPYM serves the template. -/
def Copy.mcast (k : Copy) : Bool := tf k.tmpl 61 1 = 1

/-! ### Places -/

/-- Where a copy's access stands: global memory, a scratchpad of a running group, another chip, a line of another chip that
the group holds; a wait for a page, a pin or another chip's answer; or a failing status. -/
inductive Spot where
  | mem (pa arena : Nat)
  | sp (gi off : Nat)
  | far (pa : Nat)
  | held (pa : Nat)
  | page (va : Nat)
  | pin (line : Nat)
  | bad (status : Nat)

/-- A global address of a copy (R186, R219, R363, R366, R369); a store into a line with an uncorrectable error is refused as
it performs (R376). -/
def State.copyGlobal (s : State) (k : Copy) (va n : Nat) (w : Bool) : Spot :=
  if va % n != 0 then .bad 4
  else
    match s.xlateNow k.vf va { r := !w, w := w } with
    | .ok pa arena =>
      if (s.vf k.vf).staleAt arena then .bad 1
      else if inImport pa && (s.importOf pa).revoked && (w || (k.far.lookup (pa / 128)).isNone) then .bad 2
      else if w && (s.vf k.vf).sealedAt arena then .bad 5
      else if !w && !inImport pa && s.errs pa then .bad 4
      else if s.ms.refuses k.group (pa / 128) then .pin (pa / 128)
      else if !inImport pa then .mem pa arena
      else if (s.farHeld k.cl (k.group.getD 0) (pa / 128)).isSome then .held pa
      else .far pa
    | .denied => .bad 4
    | .missing => if k.retry then .page va else .bad 4
    | .pmiss _ => .page va

/-- A scratchpad offset of a copy in a running group (R138, R219); a word with an uncorrectable error cannot be read (R175). -/
def Group.copySp (g : Group) (gi off n : Nat) (w : Bool) : Spot :=
  if off % n != 0 || g.launch.space < off + n || (!w && g.spErrs off n) then .bad 4 else .sp gi off

/-- The source of the n-th element (R216). -/
def State.copySrc (s : State) (k : Copy) (n : Nat) : Spot :=
  let a := (k.sa n).1
  let w := Nat.max 1 (k.sbits / 8)
  match k.ssp with
  | 0 => s.copyGlobal k a w false
  | 1 =>
    match k.group.bind s.groupOf with
    | some gi => (match s.groups[gi]? with
      | some g => g.copySp gi (a % 2 ^ 32) w false
      | none => .bad 4)
    | none => .bad 4
  | _ => if a % 2 ^ 32 % w != 0 || k.csize < a % 2 ^ 32 + w then .bad 4 else s.copyGlobal k (k.lrec + a % 2 ^ 32) w false

/-- The destination of the n-th element of a part that stands at a base in a group (R216, R223). -/
def State.copyDst (s : State) (k : Copy) (gi : Option Nat) (base n : Nat) : Spot :=
  let a := (k.da base n).1
  let w := Nat.max 1 (k.dbits / 8)
  if k.dsp = 0 then s.copyGlobal k a w true
  else
    match gi.bind fun i => s.groups[i]?.map fun g => (i, g) with
    | some (i, g) => g.copySp i (a % 2 ^ 32) w true
    | none => .bad 4

/-- The cluster of an engine, if it is one's: an aperture has none. -/
def Copy.cluster (k : Copy) : Option Nat := if k.cl < Config.clusters then some k.cl else none

/-- The bytes at a place; a line of another chip is one that an answer has brought. -/
def State.spotRead (s : State) (k : Copy) (n : Nat) : Spot → State × List Byte
  | .mem pa arena =>
    let (s, b) := s.load pa n
    (s.engineLine k.cluster k.vf arena pa, b)
  | .sp gi off => (s, ((s.groups[gi]?).map fun g => g.spRead off n).getD [])
  | .far pa => (s, (((k.far.lookup (pa / 128)).getD []).drop (pa % 128)).take n)
  | .held pa => (s, ((s.farHeld k.cl (k.group.getD 0) (pa / 128)).map fun x => x.bytes pa n).getD [])
  | _ => (s, [])

/-- Bytes written at a place by a unit; a write to another chip carries the unit's number for its failure (R219) and the stamp of
the unit's start (R339). -/
def State.spotWrite (s : State) (k : Copy) (unit : Nat) (stamp : Option Nat) (bytes : List Byte) : Spot → State
  | .mem pa arena => s.store k.cluster k.vf arena pa bytes
  | .sp gi off => s.setGroup gi fun g => g.spWrite off bytes
  | .far pa =>
    s.askWrite k.cl k.vf 2 1 pa 0 bytes.length bytes
      { group := k.group.getD 0, key := k.key, out := unit + 2, copy := k.id, cls := 2, stamp := stamp }
  | .held pa => match s.farHeld k.cl (k.group.getD 0) (pa / 128) with
    | some x => s.setFar x (putBytes x.data (pa % 128) bytes)
    | none => s
  | _ => s

/-! ### Conversion -/

/-- The value of a code in the template's source format (R61, R216). -/
def Copy.srcVal (k : Copy) (code : Nat) : FVal := (fmtOfType (tf k.tmpl 14 4)).decode code

/-- The destination code of an element and its overflow (R216); a code copied unchanged leaves the unused bits of its
container zero (R36). -/
def Copy.convert (k : Copy) (code : Nat) : Nat × Bool :=
  let rm := tf k.tmpl 25 3
  match k.conv with
  | 1 => ((fmtOfType (tf k.tmpl 18 4)).round (Mode.ofCode rm) (k.srcVal code), false)
  | 2 =>
    let mode := Mode.ofCode (if rm = 7 then k.slot.rmode else rm)
    k.slot.encode mode ((k.srcVal code).scale (-(k.sigma.getD 0)))
  | _ => (if tf k.tmpl 18 4 = 14 then code % 2 ^ k.slot.w else code, false)

/-- The contribution of a written element with its overflow (R216, R303). -/
def Copy.stat (k : Copy) (d : Desc) (code : Nat) (ov : Bool) : Stat :=
  let ty := tf k.tmpl 18 4
  let v : FVal := if ty = 14 then (k.slot.decode code).scale d.tsc
    else if 8 ≤ ty then (fmtOfType ty).decode code else FVal.ofInt (readInt ty code)
  (Stat.ofValue v).merge (Stat.overflow (if ov then 1 else 0))

/-- The descriptor of a handle that an argument word names, for a copy: none ends the copy with FAULT (R219, R300). -/
def State.copyDesc (s : State) (k : Copy) (arg : Nat) : Option Desc :=
  let h := (k.args.getD arg 0).toNat
  let x := s.descBits k.vf h
  let d := Desc.of x
  if descStale h x || (d.fmt = 14 && !Slot.valid (k.ks.getD d.slot 0)) then none else some d

/-! ### Service -/

/-- The address at which a part writes: its tile, or the command's destination base (R216, R222, R224). -/
def State.partBase (s : State) (k : Copy) (gi : Option Nat) (p : CPart) : Nat :=
  match p.tile, gi.bind fun i => s.groups[i]? with
  | some t, some g =>
    let q := g.launch.streams.getD (tf k.tmpl 56 4) 0
    sf q 32 32 + t * sf q 64 16
  | _, _ => if k.dsp = 1 then k.dst % 2 ^ 32 else k.dst

/-- The group that a part writes into: none for a global destination. -/
def State.partGroup (s : State) (k : Copy) (p : CPart) : Option GroupAt :=
  if k.dsp = 0 then none
  else
    match k.group.bind s.groupOf with
    | some gi => (s.groups[gi]?).map fun g => s.targetGroup g.task p.gidx
    | none => some .finished

/-- The gang of a task has stopped, or its time T has come (R340). -/
def State.gangStopped (s : State) (uid : Nat) : Bool :=
  match s.taskOf uid with
  | none => false
  | some t => (s.vf t.vf).gangs.any fun e => e.task = t.idx
      && (e.state = 4 || e.state = 5 || (e.state = 3 && !e.mode && e.time ≤ s.ns))

/-- A copy whose group is halted goes on only inside a 4 KiB block, and one of the aperture only while its VF runs (R319,
R328). -/
def State.copyRuns (s : State) (k : Copy) (p : CPart) : Bool :=
  match (k.group.bind s.groupOf).bind fun gi => s.groups[gi]? with
  | none => k.group.isSome || (s.vf k.vf).running
  | some g =>
    match g.stop with
    | .running | .held _ => !s.gangStopped g.task
    | .halting _ _ => p.unit % 32 != 0 && !s.gangStopped g.task
    | .closed => false

/-- A part can proceed: it waits for no page, pin, answer or earlier access, and for no member that has not started (R218,
R221, R223, R366). -/
def State.partReady (s : State) (k : Copy) (p : CPart) : Bool :=
  (p.status.isNone || k.unread) && p.wait.isNone && s.copyRuns k p && !(s.fab.reqs.any fun r => r.copy = k.id && r.out = 1)
    && !(match p.pin with
      | some l => s.ms.refuses k.group l
      | none => false)
    && !(k.after.any s.underWay.contains)
    && (match s.partGroup k p with
      | some .later => false
      | _ => true)

/-- The elements of a unit. -/
def Copy.elems (k : Copy) (u : Nat) : List Nat :=
  let per := 1024 / k.dbits
  (List.range per).filterMap fun i => if u * per + i < k.total then some (u * per + i) else none

/-- What a unit finds before it takes effect: a place to wait at, or the number of elements before the first failing one
with its status. -/
inductive Look where
  | page (va : Nat) (w : Bool)
  | pin (line : Nat)
  | far (pa : Nat)
  | go (n : Nat) (status : Option Nat)

/-- The look over the sources of the elements of a unit in order (R219, R227). -/
def State.lookSrc (s : State) (k : Copy) : List Nat → Nat → Look
  | [], n => .go n none
  | x :: xs, n =>
    match s.copySrc k x with
    | .bad st => .go n (some st)
    | .page va => .page va false
    | .pin l => .pin l
    | .far pa => (match k.far.lookup (pa / 128) with
      | none => .far pa
      | some [st] => .go n (some st.toNat)
      | some _ => State.lookSrc s k xs (n + 1))
    | _ => State.lookSrc s k xs (n + 1)

/-- The look over the destinations of the elements of a unit in order (R219, R227). -/
def State.lookDst (s : State) (k : Copy) (gi : Option Nat) (base : Nat) : List Nat → Nat → Look
  | [], n => .go n none
  | x :: xs, n =>
    match s.copyDst k gi base x with
    | .bad st => .go n (some st)
    | .page va => .page va true
    | .pin l => .pin l
    | _ => State.lookDst s k gi base xs (n + 1)

/-- The destination code of an element and its overflow, read from its source. -/
def State.copyCode (s : State) (k : Copy) (x : Nat) : State × Nat × Bool :=
  let (s, b) := s.spotRead k (Nat.max 1 (k.sbits / 8)) (s.copySrc k x)
  (s, k.convert (field (leNat b) (k.sa x).2 k.sbits))

/-- The codes of elements in order. -/
def State.copyCodes (s : State) (k : Copy) (xs : List Nat) : State × List (Nat × Bool) :=
  xs.foldl (fun (a : State × List (Nat × Bool)) x => let (s, c) := a.1.copyCode k x; (s, a.2 ++ [c])) (s, [])

/-- The byte of narrow codes whose topmost element is the i-th of a unit: the codes before it with it (R36). -/
def Copy.byte (k : Copy) (cs : List (Nat × Bool)) (i : Nat) : Nat :=
  let m := 8 / k.dbits
  ((List.range m).map fun j => (cs.getD (i + 1 - m + j) (0, false)).1 % 2 ^ k.dbits * 2 ^ (k.dbits * j)).sum

/-- The i-th element of a unit, x in the copy, is written (R216): its contribution first, once for each part (R304; log 88); its
overflow reaches the record that DTARG names, or else the cluster counters. Narrow codes for another chip are sent by the byte. -/
def State.copyElem (s : State) (k : Copy) (p : CPart) (gi : Option Nat) (base : Nat) (d : Option Desc) (cs : List (Nat × Bool))
    (x i : Nat) : State :=
  let dst := s.copyDst k gi base x
  let code := (cs.getD i (0, false)).1
  let ov := (cs.getD i (0, false)).2
  let s := match d.filter fun t => t.record != 0 with
    | some t => s.contribute k.cl k.vf (k.group.getD 0, k.key) t.record 1 (k.stat t code ov)
    | none => if ov then s.count k.cl 12 1 else s
  if 8 ≤ k.dbits then s.spotWrite k p.unit p.stamp (natBytes (k.dbits / 8) code) dst
  else
    let bit := (k.da base x).2
    match dst with
    | .far _ => if bit + k.dbits < 8 then s else s.spotWrite k p.unit p.stamp (natBytes 1 (k.byte cs i)) dst
    | _ =>
      let (s, b) := s.spotRead k 1 dst
      let new := leNat b - field (leNat b) bit k.dbits * 2 ^ bit + code % 2 ^ k.dbits * 2 ^ bit
      s.spotWrite k p.unit p.stamp (natBytes 1 new) dst

/-- The state with a copy changed. -/
def State.setCopy (s : State) (id : Nat) (f : Copy → Copy) : State :=
  { s with copies := s.copies.map fun k => if k.id = id then f k else k }

/-- The state with a part of a copy changed. -/
def State.setPart (s : State) (id j : Nat) (f : CPart → CPart) : State :=
  s.setCopy id fun k => { k with parts := modAt k.parts j f }

/-- The scale of a quantising copy is derived once, when it starts (R216, R307, R311): what it waits for, a failing status,
or the exponent; a record at another chip is read there (R177). Under FRESH every push of the record merges first (R307). -/
def State.copyScale (s : State) (k : Copy) : State × Except Look Int :=
  match s.copyDesc k k.starg with
  | none => (s, .error (.go 0 (some 4)))
  | some d =>
    if d.record = 0 then (s, .error (.go 0 (some 4)))
    else
      match s.copyGlobal k d.record 128 false with
      | .mem pa arena =>
        if tf k.tmpl 28 1 = 1 && s.recordPinned k.vf d.record then (s, .error (.pin (pa / 128)))
        else
          let s := if tf k.tmpl 28 1 = 1 then s.pushAll k.vf d.record else s
          if s.errs pa then (s, .error (.go 0 (some 4)))
          else
            let (s, b) := s.load pa 4
            (s.engineLine k.cluster k.vf arena pa, .ok (deriveExp k.slot (leNat b)))
      | .page va => (s, .error (.page va false))
      | .pin l => (s, .error (.pin l))
      | .bad st => (s, .error (.go 0 (some st)))
      | .far pa => (match k.far.lookup (pa / 128) with
        | none => (s, .error (.far pa))
        | some [st] => (s, .error (.go 0 (some st.toNat)))
        | some b => (s, .ok (deriveExp k.slot (leNat (b.take 4)))))
      | .held pa => (s, .ok (deriveExp k.slot (leNat (((s.farHeld k.cl (k.group.getD 0) (pa / 128)).map fun x => x.bytes pa 4).getD []))))
      | .sp _ _ => (s, .error (.go 0 (some 4)))

/-- The cluster under which the walks of a copy are wanted: for an aperture the first of its die (log 29). -/
def Copy.walkCl (k : Copy) : Nat := if k.cl < Config.clusters then k.cl else 80 * k.die

/-- A part waits for a page or a pin, or it has failed (R186, R218, R219, R366). -/
def State.partWaits (s : State) (k : Copy) (j : Nat) : Look → State
  | .page va w => (s.miss k.walkCl k.vf va w false true).setPart k.id j fun p => { p with wait := some (va / 4096) }
  | .pin line =>
    (({ s with ms := s.ms.noteRefused line k.id k.key }.count k.cl 13 1).setPart k.id j fun p => { p with pin := some line })
  | .far pa =>
    s.ask k.vf 1 1 (pa / 128 * 128) 0 128 [] { group := k.group.getD 0, key := k.key, out := 1, copy := k.id, cls := 2 }
  | .go _ st => s.setPart k.id j fun p => { p with started := true, status := st }

/-- A copy's next tile of a ring is reserved for a part in a group, or none is FREE: RING_FULL (R224). -/
def State.reserve (s : State) (k : Copy) (j gi : Nat) : State :=
  let q := tf k.tmpl 56 4
  match (s.groups[gi]?).bind fun g => g.streams[q]? with
  | none => s.setPart k.id j fun p => { p with started := true, status := some 4 }
  | some x =>
    if ((x.tiles[x.r]?).map Prod.fst) = some .free then
      let s := s.setGroup gi fun g => { g with streams := modAt g.streams q fun x =>
        { x with tiles := modAt x.tiles x.r fun y => (.reserved, y.2), r := (x.r + 1) % x.tiles.length } }
      s.setPart k.id j fun p => { p with tile := some x.r }
    else s.setPart k.id j fun p => { p with started := true, status := some 3 }

/-- A part that starts into a ring reserves its tile before it waits for anything, or ends at once with RING_FULL (R223, R224,
R227). -/
def State.reserveFirst (s : State) (k : Copy) (j : Nat) (gi : Option Nat) : State :=
  match k.ring && ((k.parts[j]?).bind CPart.tile).isNone, gi with
  | true, some i => s.reserve k j i
  | _, _ => s

/-- A part starts (R216, R223, R224): its tile reserved, bases aligned, handles current, its scale derived. -/
def State.startPart (s : State) (k : Copy) (j : Nat) (gi : Option Nat) : State :=
  let aligned : Bool := k.src % Nat.max 1 (k.sbits / 8) = 0 && (k.ring || k.dst % Nat.max 1 (k.dbits / 8) = 0)
  let s := s.reserveFirst k j gi
  let full : Bool := (((s.copies.find? fun x => x.id = k.id).bind fun x => x.parts[j]?).bind CPart.status).isSome
  if full then s
  else if !aligned || (k.dtarg != 127 && (s.copyDesc k k.dtarg).isNone) then s.partWaits k j (.go 0 (some 4))
  else
    let (s, sig) := if k.conv = 2 && k.sigma.isNone then
        (match s.copyScale k with
          | (s, .ok t) => (s, Except.ok (some t))
          | (s, .error e) => (s, Except.error e))
      else (s, Except.ok k.sigma)
    match sig with
    | .error e => s.partWaits k j e
    | .ok t => (s.setCopy k.id fun k => { k with sigma := t, far := [] }).setPart k.id j fun p => { p with started := true }

/-- The source of a unit: what it waits for, or the destination codes of its elements with the status of the first that fails. A
CPYM reads it once for all of its parts (R223). -/
def State.readUnit (s : State) (k : Copy) (u : Nat) : State × Except Look (List (Nat × Bool) × Option Nat) :=
  match k.got.find? fun x => x.1 = u with
  | some x => (s, .ok x.2)
  | none =>
    match s.lookSrc k (k.elems u) 0 with
    | .go n st =>
      let (s, cs) := s.copyCodes k ((k.elems u).take n)
      (if k.mcast then s.setCopy k.id fun k => { k with got := k.got ++ [(u, cs, st)] } else s, .ok (cs, st))
    | l => (s, .error l)

/-- A unit whose source has been read is written in order up to the first failing element (R216, R219). -/
def State.writeUnit (s : State) (k : Copy) (j : Nat) (p : CPart) (gi : Option Nat) (d : Option Desc) (cs : List (Nat × Bool))
    (st : Option Nat) : State :=
  let base := s.partBase k gi p
  match s.lookDst k gi base ((k.elems p.unit).take cs.length) 0 with
  | .go n st' =>
    let s := { s with ms := s.ms.served k.id k.key }.setPart k.id j fun p => { p with pin := none }
    let s := (((k.elems p.unit).take n).zipIdx).foldl (fun s x => s.copyElem k p gi base d cs x.1 x.2) s
    match st'.or st with
    | some e => s.setPart k.id j fun p => { p with status := some e }
    | none =>
      let last : Bool := k.units ≤ p.unit + 1
      (((s.setCopy k.id fun k => { k with far := [] }).setPart k.id j fun p =>
        { p with unit := p.unit + 1, stamp := none, status := if last then some 0 else none }).count k.cl 9 1)
  | l => s.partWaits k j l

/-- One unit of a part, or what it waits for (R218, R219); a handle in DTARG that has become stale ends it with FAULT (R219,
R300). -/
def State.serveUnit (s : State) (k : Copy) (j : Nat) (p : CPart) (gi : Option Nat) : State :=
  let stamp := p.stamp.getD s.stamp
  let s := s.setPart k.id j fun p => { p with stamp := some stamp }
  if k.dtarg != 127 && (s.copyDesc k k.dtarg).isNone then s.partWaits k j (.go 0 (some 4))
  else
    match s.readUnit k p.unit with
    | (s, .error l) => s.partWaits k j l
    | (s, .ok (cs, st)) =>
      s.writeUnit k j { p with stamp := some stamp } gi (if k.dtarg = 127 then none else s.copyDesc k k.dtarg) cs st

/-- The effective slack of a command (R218). -/
def Copy.effective (clock : Nat) (k : Copy) : Nat := k.slack - (clock - k.entered) / 4096

/-- The command and part that the copy unit serves next (R218). -/
def State.nextCopy (s : State) (cl : Nat) : Option (Copy × Nat) :=
  let ready := (s.copies.filter fun k => k.cl = cl).filterMap fun k =>
    (k.parts.findIdx? (s.partReady k)).map fun j => (k, j)
  ready.foldl (fun a x => match a with
    | none => some x
    | some y => if x.1.effective s.clock < y.1.effective s.clock then some x else a) none

/-! ### Completion -/

/-- The status word of a completed command (R219, R223). -/
def Copy.word (k : Copy) : Word :=
  let st := k.parts.foldl (fun a p => Nat.max a (p.status.getD 0)) 0
  BitVec.ofNat 32 (st * 2 ^ 28 + Nat.min (k.parts.map CPart.unit).sum (2 ^ 28 - 1))

/-- A result found by its tag arrives with its value. -/
def Out.arrive (tag : Nat) (x : Nat) (o : Out) : Out :=
  if o.tag = tag && !o.ready then
    { o with ready := true, regs := (o.regs.zip (natWords o.regs.length x)).map fun (r, w) => (r.1, w, r.2.2) }
  else o

/-- The result of a tag arrives in every group. -/
def State.answerOut (s : State) (tag x : Nat) : State :=
  let fix (g : Group) : Group := { g with outs := g.outs.map (Out.arrive tag x) }
  { s with
    groups := s.groups.map fix
    tasks := s.tasks.map fun t => { t with saved := t.saved.map fun y => { y with group := fix y.group } } }

/-- What the end of a part does in its member (R220, R223, R224): the barrier's bytes, then the tile. -/
def State.endPart (s : State) (k : Copy) (p : CPart) : State :=
  let gi := match k.group.bind s.groupOf with
    | none => none
    | some i =>
      if !k.mcast then some i
      else match (s.groups[i]?).map fun g => s.targetGroup g.task p.gidx with
        | some (.here j) => some j
        | _ => none
  match gi with
  | none => s
  | some i =>
    let s := match k.bar with
      | some b => if k.mcast && p.status = some 6 then s else s.subtract i b k.bytes
      | none => s
    match p.tile with
    | some t => s.setGroup i fun g => { g with streams := modAt g.streams (tf k.tmpl 56 4) fun x =>
        { x with tiles := modAt x.tiles t fun _ => (.filled, p.status != some 0) } }
    | none => s

/-- The parts of a CPYM that have ended are carried out in their members, each at its own end (R223). -/
def State.endParts (s : State) (id : Nat) : State :=
  match s.copies.find? fun k => k.id = id with
  | none => s
  | some k =>
    if !k.mcast then s
    else
      let over_ := k.parts.filter fun p => p.status.isSome && !p.ended
      let s := over_.foldl (fun s p => s.endPart k p) s
      s.setCopy id fun k => { k with parts := k.parts.map fun p => if p.status.isSome then { p with ended := true } else p }

/-- A part for a group index. -/
def CPart.new (gidx : Nat) : CPart :=
  { gidx := gidx, unit := 0, started := false, tile := none, wait := none, pin := none, status := none, ended := false, stamp := none
    lost := false }

/-- A part that is over at once, with a failing status and nothing to carry out in any member (R223, R229). -/
def CPart.dropped (gidx status : Nat) : CPart := { CPart.new gidx with started := true, status := some status, ended := true }

/-- The parts of the copies of a unit that an answer has ended are carried out (R223). -/
def State.endAll (s : State) (cl : Nat) : State :=
  ((s.copies.filter fun k => k.cl = cl).map Copy.id).foldl State.endParts s

/-- A byte of a range can be read as the device reads it for a copy: what is in the way, or nothing (R229, R366, R375). -/
def State.blockWaits (s : State) (vf va n : Nat) : Option Look :=
  (List.range n).findSome? fun i =>
    match s.xlateNow vf (va + i) { r := true } with
    | .ok pa arena =>
      if (s.vf vf).staleAt arena || inImport pa || s.errs pa then some (.go 0 (some 4))
      else if s.ms.refuses none (pa / 128) then some (.pin (pa / 128))
      else none
    | .pmiss _ => some (.page (va + i) false)
    | _ => some (.go 0 (some 4))

/-- An aperture copy starts (R229): the argument block is read once, and the template from the launch record that it names; a nonzero
reserved field, or an invalid template, ends it with FAULT. -/
def State.startBlock (s : State) (k : Copy) (a : Nat) : State :=
  match s.blockWaits k.vf a 64 with
  | some (.go n st) => (s.partWaits k 0 (.go n st)).setCopy k.id fun k => { k with block := none }
  | some l => s.partWaits k 0 l
  | none =>
    let s := s.devRecall k.vf a 64
    let num (o n : Nat) : Nat := s.devNat k.vf (a + o) n
    let lrec := num 0 8
    let l := s.readLaunch k.vf lrec
    let x := l.templates.getD k.tindex 0
    let ok : Bool := k.tindex < l.templates.length && num 32 1 < 16
      && num 33 31 = 0 && tmplDefined x && tmplSized x l.ks && tmplValid x l.ks l.streams l.argc l.scratch
      && tf x 61 1 = 0 && tf x 60 1 = 0 && tf x 10 2 = 0 && tf x 36 7 = 127 && tf x 29 7 = 127
    s.setCopy k.id fun k => { k with
      block := none, tmpl := x, ks := l.ks, args := l.args, lrec := lrec, csize := l.csize, src := num 8 8, dst := num 16 8
      slack := num 32 1 % 16, token := num 24 8
      parts := if ok then k.parts else [CPart.dropped 0 4] }

/-- A part of a copy is served: it starts, or writes a unit, or ends where its member is gone (R218, R223, R229). -/
def State.servePart (s : State) (k : Copy) (j : Nat) (p : CPart) : State :=
  match k.block with
  | some a => s.startBlock k a
  | none =>
    match s.partGroup k p with
    | some .finished => s.setPart k.id j fun p => { p with status := some (if k.mcast then 6 else 4) }
    | some (.here gi) => if p.started then s.serveUnit k j p (some gi) else s.startPart k j (some gi)
    | _ => if p.started then s.serveUnit k j p none else s.startPart k j none

/-- COPY_UNIT_SERVICE (R218): the unit of least effective slack that can proceed. -/
def evCopyUnitService (cl : Nat) (s : State) : State :=
  let s := s.endAll cl
  match s.nextCopy cl with
  | none => s
  | some (k, j) =>
    let s := if k.began = 0 then s.setCopy k.id fun k => { k with began := s.ns } else s
    match k.parts[j]? with
    | none => s
    | some p => (s.servePart k j p).endParts k.id

/-- The token of an aperture copy is stored in its VF, or lost and counted where its address cannot be written (R134, R229,
R376); at another chip, where the exporter does not take it. -/
def State.writeToken (s : State) (k : Copy) : State :=
  match (if k.token % 4 = 0 && !(k.parts.any CPart.lost) then s.xlateNow k.vf k.token { w := true } else .denied) with
  | .ok pa arena =>
    let bytes := natBytes 4 k.word.toNat
    if (s.vf k.vf).staleAt arena then s.note .status
    else if inImport pa then
      (if (s.importOf pa).revoked then s.note .status else s.ask k.vf 2 1 pa 0 4 bytes { cls := 256 })
    else if (s.vf k.vf).sealedAt arena || s.ms.errored.contains (pa / 128) then s.note .status
    else s.devWrite k.vf k.token bytes
  | _ => s.note .status

/-- The page of an aperture copy's token is one that Furze has still to map or to deny (R229, R367). -/
def State.tokenWaits (s : State) (k : Copy) : Bool :=
  k.chan.isSome && k.token % 4 = 0 && !(k.parts.any CPart.lost) && (match s.xlateNow k.vf k.token { w := true } with
    | .pmiss _ => true
    | _ => false)

/-- The trace record of a copy as it completes (R400); the values that the manual does not state for an aperture copy
are free (log 7). -/
def State.traceCopy (s : State) (k : Copy) : State :=
  match k.group.bind s.groupOf with
  | some gi =>
    (match s.groups[gi]? with
      | some g => s.trace k.vf (some 0) { kind := 1, engine := 0, pkcl := k.cl, gidx := g.gidx, seq := s.taskSeq k.vf g.task
                                          start := k.began, word := k.site.word, info := k.tindex
                                          detail := k.word.toNat, pc := k.site.pc.toNat }
      | none => s)
  | none =>
    let free (n : Nat) : Nat := (Config.freeWord (s.nonce * 65536 + 60000 + n)).toNat
    { s.trace k.vf (some 0) { kind := 3, engine := 0, pkcl := free 0, gidx := k.chan.getD 0, seq := free 1 + 2 ^ 32 * free 2
                              start := k.began, word := 0, info := k.tindex, detail := k.word.toNat, pc := 0 } with
      nonce := s.nonce + 3 }

/-- COPY_COMPLETE (R220) of the i-th command of a queue. -/
def evCopyComplete (cl i : Nat) (s : State) : State :=
  match (s.copies.filter fun k => k.cl = cl)[i]? with
  | none => s
  | some k =>
    if k.unread || !(k.parts.all fun p => p.status.isSome) || s.fab.reqs.any (fun r => r.copy = k.id) then s
    else if s.tokenWaits k then
      (s.miss k.walkCl k.vf k.token true false true).setCopy k.id fun k =>
        { k with parts := k.parts.map fun p => { p with wait := some (k.token / 4096) } }
    else
      let s := (k.parts.filter fun p => !p.ended).foldl (fun s p => s.endPart k p) s
      let s := { s with copies := s.copies.filter fun x => x.id != k.id }
      let s := if k.chan.isSome then s.writeToken k else s.answerOut k.id k.word.toNat
      (s.traceCopy k).sweepFences

/-! ### CPY and CPYM -/

/-- The queue entries of a copy unit or aperture in use. -/
def State.queued (s : State) (cl : Nat) : Nat := (s.copies.filter fun k => k.cl = cl).length

/-- A thread's own accesses on every path that are under way, which come before every access of its next command, but no
earlier command (R221, R244). -/
def Cx.ownIds (c : Cx) (s : State) (t : Thread) : List Nat :=
  s.fenceIds c.g t.key 9
    ++ (((s.ms.windrows ++ s.ms.pushes).filter fun w => w.givers.any fun x => x.1 = c.g.uid && x.2.1 = t.key).map Windrow.id)

/-- What a copy waits for: its thread's own accesses, and under FRESH also the writes of its commands (R221, R307). -/
def Cx.copyAfter (c : Cx) (s : State) (t : Thread) (tmpl : BitVec 512) : List Nat :=
  c.ownIds s t ++ if tf tmpl 28 1 = 1 then s.fenceIds c.g t.key 6 else []

/-- The command of one thread (R217, R222). -/
def Cx.command (c : Cx) (s : State) (t : Thread) (id : Nat) (parts : List CPart) : Copy :=
  let l := c.g.launch
  let base (o : Opnd) : Nat := if o.absent then 0 else c.g.src t 2 o
  { id := id, cl := c.g.cl, vf := c.g.vf, group := some c.g.uid, key := t.key, chan := none, block := none
    tmpl := l.templates.getD (c.e.imm.toNat % 64) 0, tindex := c.e.imm.toNat % 64, ks := l.ks, args := l.args
    lrec := c.g.lrec, csize := l.csize, src := base c.e.op1, dst := base c.e.op2, slack := c.e.lo.toNat
    entered := s.clock, bar := if c.e.sc.toNat % 2 = 1 then some c.e.copyBarrier else none, token := 0
    sigma := none, parts := parts, far := [], got := [], began := 0
    after := c.copyAfter s t (l.templates.getD (c.e.imm.toNat % 64) 0), site := c.site }

/-- The command of one thread enters the queue with its pending token; a CPY into a ring reserves its tile (R217, R220,
R224). -/
def State.enterCopy (s : State) (c : Cx) (parts : List CPart) (t : Thread) : State :=
  let id := s.uids + 1
  let k := c.command s t id parts
  let s := { s with uids := id, copies := s.copies ++ [k] }
  let s := s.setGroup c.gi fun g => g.addOuts [c.out t.key ((c.dstN 1 0).map fun w => (w.1, w.2, none)) false id]
  if k.ring && !k.mcast then s.reserve k 0 c.gi else s

/-- The commands of an instruction enter the queue in ascending order, each as an entry is free (R217). -/
def copyBody (parts : Thread → List CPart) (c : Cx) (s : State) : Act :=
  inTurn c s (fun s _ => s.queued c.g.cl < 64) (fun s t => s.enterCopy c (parts t) t)
    (c.actS.filter fun t => !c.sh.acted.contains t.key)

/-- CPYM's parts (R223): the members of its block whose mask bits are set. -/
def Cx.mcastParts (c : Cx) (s : State) (t : Thread) : List CPart :=
  let mask := match litAt c.o c.e 3 with
    | some x => x % 2 ^ 32
    | none => c.g.src t 1 c.e.op3
  let blk := c.e.imm.toNat / 256 % 2048
  match c.g.membership (c.e.imm.toNat / 64 % 4) with
  | none => []
  | some (_, entry) =>
    ((List.range 32).filter fun k => bitAt mask k).map fun k =>
      let j := 32 * blk + k
      if setCount entry ≤ j then CPart.dropped 0 4
      else CPart.new (s.memberGroup c.g entry j)

/-! ### The aperture -/

/-- COPY_APERTURE_START (R228, R229): a store to a channel's page puts a copy into its VF's queue, where it waits for its argument
block to be read; with a nonzero reserved field in the store it ends with FAULT once the block has been read for its token address.
A store to a full channel waits. Until the block has been read the copy has slack 0 and no token address: a copy whose block cannot
be read loses its status (log 114). -/
def evCopyApertureStart (die chan : Nat) (data : BitVec 64) (s : State) : State :=
  let cl := Config.clusters + die
  let vf := Config.channelVf (die * 64 + chan) % 128
  if 4 ≤ die || 64 ≤ chan then s.note .store
  else
    if 16 ≤ (s.copies.filter fun k => k.cl = cl && k.chan = some chan).length then s
    else
      let id := s.uids + 1
      let k : Copy :=
        { id := id, cl := cl, vf := vf, group := none, key := { t := 0, gl := 0 }, chan := some chan
          block := some (field data.toNat 6 50 * 64), tmpl := 0, tindex := data.toNat % 64, ks := [], args := [], lrec := 0
          csize := 0, src := 0, dst := 0, slack := 0, entered := s.clock, bar := none, token := 1, sigma := none
          parts := [if field data.toNat 56 8 = 0 then CPart.new 0 else CPart.dropped 0 4], far := [], got := [], began := 0
          after := [], site := { pc := 0, hdr := 0, next := 0, word := 0, idx := 0 } }
      { s with uids := id, copies := s.copies ++ [k] }

/-- CPY (R222). -/
def execCpy (e : Ext) (s : State) : Host.Outcome State Fault Refusal :=
  issueE .cpy e s fun c s => copyBody (fun _ => [CPart.new c.g.gidx]) c s
/-- CPYM (R223). -/
def execCpym (e : Ext) (s : State) : Host.Outcome State Fault Refusal :=
  issueE .cpym e s fun c s => copyBody (c.mcastParts s) c s
/-- COPY_UNIT_SERVICE (R218). -/
def execCopyUnitService (cl : Nat) (s : State) : Host.Outcome State Fault Refusal := .next (evCopyUnitService cl s)
/-- COPY_COMPLETE (R220). -/
def execCopyComplete (cl i : Nat) (s : State) : Host.Outcome State Fault Refusal := .next (evCopyComplete cl i s)
/-- COPY_APERTURE_START (R228). -/
def execCopyApertureStart (die chan : Nat) (data : BitVec 64) (s : State) : Host.Outcome State Fault Refusal :=
  .next (evCopyApertureStart die chan data s)

end Sys2Proof.Machine
end

