-- ==== Sys2Proof/Machine/GleanOps.lean ====
section
/-! DEFINITION. Gleaning (R246 to R258): recruiting, the dispenser, reductions, the end of a glean, forced release. -/

namespace Sys2Proof.Machine

/-! ### Recruiting -/

/-- The glean table entries of a cluster (R141). -/
def gleanEntries : Nat := 16

/-- The entries of a cluster's glean table in use. -/
def State.gleansOf (s : State) (cl : Nat) : Nat := ((s.groups.filter fun g => g.cl = cl).map fun g => g.gleans.length).sum

/-- A slot is vacant: its thread has exited, or there never was one, and no result is addressed to it (R119, R142). -/
def Group.vacant (g : Group) (t : Thread) : Bool :=
  t.place = .exited && t.key.gl = 0 && !(g.outs.any fun o => o.key = t.key)

/-- The vacant slots that a glean of a group may recruit, in order (R249): group identity and TIDX. -/
def State.eligible (s : State) (g : Group) : List (Nat × Nat) :=
  let others := sortBy Group.gidx (s.groups.filter fun x => x.task = g.task && x.cl = g.cl && x.uid != g.uid)
  (g :: others).flatMap fun x => (sortKey (x.threads.filter x.vacant)).map fun t => (x.uid, t.key.t)

/-- A helper as it joins (R251). -/
def newHelper (g : Group) (recr j clock id : Nat) (body : Addr) : Thread :=
  { key := { t := recr, gl := j }, place := .bin clock, pc := body, v := List.replicate g.launch.nv 0, p := 128
    flags := List.replicate 12 0, draws := 0, marks := [], seq := 0, tickets := []
    part := some { glean := id, cur := none, staged := List.replicate 4 none, draws := 0, release := none }, solo := none
    entered := false }

/-- A thread whose slot is lent. -/
def Thread.lend (slots : List (Nat × Nat)) (uid : Nat) (t : Thread) : Thread :=
  if slots.contains (uid, t.key.t) && t.key.gl = 0 && t.place = .exited then { t with place := .lent } else t

/-- What the accesses of a helper wait for as it joins: what its recruiter's own wait for, and the accesses ordered before
its GLEAN (R260). -/
def Group.heirs (g : Group) (k h : Key) (ids : List Nat) : List Fence :=
  ((g.fences.filter fun f => f.key = k).map fun f => { f with key := h })
    ++ (if ids.isEmpty then [] else [{ key := h, classes := 63, ids := ids }])

/-- A glean starts, or rejoins, for a recruiter (R248, R250, R258): its slots, helpers and grant, then the recruiter at
the body. The result is the grant. -/
def State.startGlean (s : State) (gi : Nat) (k : Key) (gl : Glean) (solo : Bool) : State × Nat :=
  match s.groups[gi]? with
  | none => (s, 0)
  | some g =>
    let slots := if solo || gleanEntries ≤ s.gleansOf g.cl then [] else (s.eligible g).take gl.want
    let n := slots.length
    let part : GPart := { glean := gl.id, cur := none, staged := List.replicate 4 none, draws := 0, release := none }
    if n = 0 then
      (s.setGroup gi fun g => (g.modify k fun t => { t with solo := some ({ gl with solo := true, lent := [] }, part) }).file
        s.clock k gl.body, 0)
    else
      let lent := slots.zipIdx.map fun (x, j) => (j + 1, x.1, x.2)
      let ids := s.fenceIds g k 9
      let s := { s with groups := s.groups.map fun (x : Group) => { x with threads := x.threads.map (Thread.lend slots x.uid) } }
      (s.setGroup gi fun g =>
        let hs := (List.range n).map fun j => newHelper g k.t (j + 1) s.clock gl.id gl.body
        let g := (g.modify k fun t => { t with part := some part }).file s.clock k gl.body
        let own (t : Thread) : Bool := t.key.t = k.t && t.key.gl != 0
        { g with
          threads := (g.threads.filter fun t => !own t) ++ hs
          fences := g.fences ++ hs.flatMap fun h => g.heirs k h.key ids
          gleans := g.gleans ++ [{ gl with solo := false, lent := lent }] }, n)

/-- The glean of a thread that issues GLEAN (R248). -/
def Cx.newGlean (c : Cx) (t : Thread) (id : Nat) : Glean :=
  let sr := match c.e.op3.reg? 0 with
    | some (.s i) => i
    | _ => 0
  { id := id, recr := t.key.t, count := c.g.src t 1 c.e.op2, next := 0, returned := [], k := c.e.window, sr := sr
    r := c.e.slots, ops := List.replicate c.e.slots none, acc := List.replicate c.e.slots 0
    atGlean := (List.range c.e.slots).map fun i => c.g.readS (sr + i), body := c.target
    site := { c.site with next := c.nextPc }, d := t.draws, rejoined := false, solo := false
    want := Nat.min (c.g.src t 1 c.e.op1) 31, lent := [], gdst := c.e.op0, charged := none, owed := [] }

/-- GLEAN (R248); an S register receives the grant of the first recruiter alone (R19). -/
def gleanBody (c : Cx) (s : State) : Act :=
  let s := s.closeAt c
  let s := s.setGroup c.gi fun g => (c.pres.filter fun t => !Ext.guards c.e t).foldl
    (fun g t => g.file s.clock t.key c.nextPc) g
  .moved (c.act.zipIdx.foldl (fun s (t, j) =>
    let id := s.uids + 1
    let (s, n) := { s with uids := id }.startGlean c.gi t.key (c.newGlean t id) t.part.isSome
    if sDest c.o c.e && j != 0 then s
    else s.setGroup c.gi fun g => g.addOuts [c.out t.key ((c.dstN 1 n).map fun w => (w.1, w.2, none)) true 0]) s)

/-! ### The dispenser -/

/-- The identity of a fixed op (R253). -/
def GOp.identity (o : GOp) : Word :=
  match o.op with
  | 0 => 0
  | 1 => if o.signed then 0x7FFFFFFF else 0xFFFFFFFF
  | _ => if o.signed then 0x80000000 else 0

/-- The merge of two values under a fixed op (R254). -/
def GOp.merge (o : GOp) (x y : Word) : Word :=
  let less (a b : Word) : Bool := if o.signed then a.slt b else a.ult b
  match o.op with
  | 0 => x + y
  | 1 => if less y x then y else x
  | _ => if less x y then y else x

/-- `commit(p)` (R254). -/
def commit (gl : Glean) (p : GPart) : Glean × GPart :=
  let one (x : Word × Nat) : Word :=
    match (gl.ops[x.2]?).join, (p.staged[x.2]?).join with
    | some o, some v => o.merge x.1 v
    | _, _ => x.1
  let gl := if p.cur.isSome then { gl with acc := gl.acc.zipIdx.map one } else gl
  (gl, { p with cur := none, staged := p.staged.map fun _ => none })

/-- The next index that the dispenser gives (R253). -/
def Glean.dispense (gl : Glean) : Option (Nat × Glean) :=
  match sortBy (fun x : Nat => x) gl.returned with
  | i :: rest => some (i, { gl with returned := rest })
  | [] => if gl.next < gl.count then some (gl.next, { gl with next := gl.next + 1 }) else none

/-- The glean in which a thread takes part: its solo glean before the one that holds a table entry (R250). -/
def Group.partOf (g : Group) (t : Thread) : Option (Glean × GPart) :=
  match t.solo, t.part with
  | some x, _ => some x
  | none, some p => (g.glean p.glean).map fun gl => (gl, p)
  | none, none => none

/-- The group with a thread's glean and part changed. -/
def Group.setPart (g : Group) (t : Thread) (gl : Glean) (p : GPart) : Group :=
  if t.solo.isSome then g.modify t.key fun u => { u with solo := some (gl, p) }
  else
    let g := g.modify t.key fun u => { u with part := some p }
    { g with gleans := g.gleans.map fun x => if x.id = gl.id then gl else x }

/-- A helper is released: it is gone, and its slot is vacant again (R251). What it has under way performs, and the end of
the glean waits for it (R260). -/
def State.releaseHelper (s : State) (gi : Nat) (k : Key) : State :=
  match s.groups[gi]? with
  | none => s
  | some g =>
    match (g.find k).bind Thread.part with
    | none => s
    | some p =>
      let slots := ((g.glean p.glean).map Glean.lent).getD [] |>.filter fun x => x.1 = k.gl
      let ids := s.fenceIds g k 31
      let s := s.giveBack slots
      s.setGroup gi fun g =>
        let g := g.send k .exited 0
        { g with
          threads := g.threads.filter fun t => t.key != k
          gleans := g.gleans.map fun x =>
            if x.id = p.glean then { x with lent := x.lent.filter (fun y => y.1 != k.gl), owed := x.owed ++ ids } else x
          outs := g.outs.filter fun o => o.key != k
          fences := g.fences.filter fun o => o.key != k }

/-- The end of a glean (R255): its reduction slots merge, and the recruiter goes on at the next header, its accesses after
those of its helpers (R260). -/
def Group.endGlean (g : Group) (clock : Nat) (k : Key) (gl : Glean) : Group :=
  let slots := (List.range gl.r).filterMap fun i =>
    ((gl.ops[i]?).join).map fun o => (Reg.s (gl.sr + i), o.merge (gl.atGlean.getD i 0) (gl.acc.getD i 0))
  let g := g.putAll k slots
  let after : List Fence := if gl.owed.isEmpty then [] else [{ key := k, classes := 63, ids := gl.owed }]
  let g := if gl.solo then g.modify k fun t => { t with solo := none }
    else { g.modify k fun t => { t with part := none } with gleans := g.gleans.filter fun x => x.id != gl.id }
  let g := { g with fences := g.fences ++ after }
  g.file clock k gl.site.next

/-- A recruiter at GLEND whose helpers are all released goes back to the body, or its glean ends (R255). -/
def Group.settleGlean (g : Group) (clock : Nat) (k : Key) : Group :=
  match g.find k with
  | none => g
  | some t =>
    let held : Option Site := match t.place with
      | .held .glend site _ _ => some site
      | _ => none
    match held, g.partOf t with
    | some site, some (gl, _) =>
      if !gl.lent.isEmpty then g
      else if !gl.returned.isEmpty || gl.next < gl.count then g.file clock k gl.body
      else g.endGlean clock k { gl with site := { gl.site with next := site.next } }
    | _, _ => g

/-- A recruiter whose helper has just been released. -/
def State.afterRelease (s : State) (gi : Nat) (k : Key) : State :=
  s.setGroup gi fun g => g.settleGlean s.clock { t := k.t, gl := 0 }

/-- NEXTIT of one thread (R253); under release it finds none, a helper is released, and a recruiter comes to rest (R257,
R258). -/
def State.nextit (s : State) (c : Cx) (t : Thread) : State :=
  match s.groups[c.gi]? with
  | none => s
  | some g =>
    match (g.find t.key).bind fun u => (g.partOf u).map fun x => (u, x) with
    | none => s
    | some (u, gl, p) =>
      let (gl, p) := commit gl p
      let pd (b : Bool) : List (Reg × Word) := c.dstP 1 b
      if p.release.isSome then
        let s := s.setGroup c.gi fun g =>
          (g.setPart u gl { p with release := if t.key.gl = 0 then none else p.release }).putAll t.key (pd false)
        if t.key.gl != 0 then (s.releaseHelper c.gi t.key).afterRelease c.gi t.key else s
      else
        match gl.dispense with
        | some (i, gl) =>
          s.setGroup c.gi fun g => (g.setPart u gl { p with cur := some i, draws := 0 }).putAll t.key
            (c.dstN 1 i ++ pd true)
        | none => s.setGroup c.gi fun g => (g.setPart u gl p).putAll t.key (pd false)

/-- NEXTIT (R253). -/
def nextitBody (c : Cx) (s : State) : Act := .done (c.act.foldl (fun s t => s.nextit c t) s)

/-- GADD of one thread (R254): the first one to a slot fixes its op. -/
def Group.gadd (g : Group) (c : Cx) (t : Thread) : Group :=
  match (g.find t.key).bind fun u => (g.partOf u).map fun x => (u, x) with
  | none => g
  | some (u, gl, p) =>
    match c.e.op0.reg? 0 with
    | some (.s n) =>
      let i := n - gl.sr
      let o : GOp := { op := c.e.rm.toNat, signed := c.e.ty == 2 }
      let gl := if ((gl.ops[i]?).join).isSome then gl
        else { gl with ops := modAt gl.ops i fun _ => some o, acc := modAt gl.acc i fun _ => o.identity }
      let op := ((gl.ops[i]?).join).getD o
      let v := BitVec.ofNat 32 (c.g.src t 1 c.e.op1)
      g.setPart u gl { p with staged := modAt p.staged i fun x => some (op.merge (x.getD op.identity) v) }
    | _ => g

/-- GADD (R254). -/
def gaddBody (c : Cx) (s : State) : Act := .done (s.setGroup c.gi fun g => c.act.foldl (fun g t => g.gadd c t) g)

/-- GLEND of one thread (R255); a recruiter under release comes to rest (R258). -/
def State.glend (s : State) (c : Cx) (t : Thread) : State :=
  match s.groups[c.gi]? with
  | none => s
  | some g =>
    match (g.find t.key).bind fun u => (g.partOf u).map fun x => (u, x) with
    | none => s
    | some (u, gl, p) =>
      let (gl, p) := commit gl p
      let s := s.setGroup c.gi fun g => g.setPart u gl { p with release := if t.key.gl = 0 then none else p.release }
      if t.key.gl != 0 && u.solo.isNone then (s.releaseHelper c.gi t.key).afterRelease c.gi t.key
      else
        (s.setGroup c.gi fun g => g.send t.key (.held .glend { c.site with next := c.nextPc } s.clock 0) c.nextPc).setGroup
          c.gi fun g => g.settleGlean s.clock t.key

/-- GLEND (R255). -/
def glendBody (c : Cx) (s : State) : Act :=
  let s := s.closeAt c
  let s := s.setGroup c.gi fun g => (c.pres.filter fun t => !Ext.guards c.e t).foldl
    (fun g t => g.file s.clock t.key c.nextPc) g
  .moved (c.act.foldl (fun s t => s.glend c t) s)

/-- GLSTAT's pair (R255). -/
def glstatVal (c : Cx) (t : Thread) : List (Reg × Word) :=
  match c.g.partOf t with
  | none => c.dstN 2 0
  | some (gl, _) =>
    let hi := gl.returned.length % 64 + gl.lent.length * 2 ^ 24 + (if gl.rejoined then 2 ^ 30 else 0) + 2 ^ 31
    c.dstN 2 (gl.next % 2 ^ 32 + 2 ^ 32 * hi)

/-! ### Forced release -/

/-- A participant under release is abandoned (R257, R258): its index returns, its staged values are discarded, and a helper
is released; a recruiter is at rest, and a solo glean inside its iteration goes with it. -/
def State.abandon (s : State) (gi : Nat) (k : Key) : State :=
  match s.groups[gi]? with
  | none => s
  | some g =>
    match (g.find k).bind Thread.part with
    | none => s
    | some p =>
      let back (x : Glean) : Glean :=
        if x.id = p.glean then { x with returned := x.returned ++ p.cur.toList } else x
      let s := s.setGroup gi fun g => { g with gleans := g.gleans.map back }
      if k.gl = 0 then
        s.setGroup gi fun g => g.modify k fun t =>
          { t with part := some { p with cur := none, staged := List.replicate 4 none, release := none }, solo := none }
      else (s.releaseHelper gi k).afterRelease gi k

/-- The halt deadline of a participant's group, or of the group in whose slot a helper runs, has come (R257, R318). -/
def State.overdue (s : State) (g : Group) (k : Key) : Bool :=
  let owner : Option Nat := (g.gleans.find? fun x => x.recr = k.t).bind fun x =>
    (x.lent.find? fun y => y.1 = k.gl).map fun y => y.2.1
  g.stop.overdue s.clock || s.groups.any fun h => some h.uid = owner && h.stop.overdue s.clock

/-- HELPER_ABANDON (R257): a participant under release, the recruiter counting as 0, for whose sheaves 4,096 instructions
have issued, or none for 4,096 clocks, or the deadline of a halt (R258, R318, R401). -/
def evHelperAbandon (gi id part : Nat) (s : State) : State :=
  match s.groups[gi]? with
  | none => s
  | some g =>
    match g.threads.find? fun t => t.key.gl = part && (t.part.map GPart.glean) = some id with
    | none => s
    | some t =>
      match t.part.bind GPart.release with
      | some (n, last) =>
        if s.overdue g t.key || 4096 ≤ n || decide (last + 4096 ≤ s.clock) then s.abandon gi t.key else s
      | none => s

/-- GLEAN (R248). -/
def execGlean (e : Ext) (s : State) : Host.Outcome State Fault Refusal := issueE .glean e s gleanBody
/-- NEXTIT (R253). -/
def execNextit (e : Ext) (s : State) : Host.Outcome State Fault Refusal := issueE .nextit e s nextitBody
/-- GLEND (R255). -/
def execGlend (e : Ext) (s : State) : Host.Outcome State Fault Refusal := issueE .glend e s glendBody
/-- GADD (R254). -/
def execGadd (e : Ext) (s : State) : Host.Outcome State Fault Refusal := issueE .gadd e s gaddBody
/-- GLSTAT (R255). -/
def execGlstat (e : Ext) (s : State) : Host.Outcome State Fault Refusal := issueE .glstat e s (lanesOut glstatVal)
/-- HELPER_ABANDON (R257). -/
def execHelperAbandon (g gl part : Nat) (s : State) : Host.Outcome State Fault Refusal := .next (evHelperAbandon g gl part s)

end Sys2Proof.Machine
end

