-- ==== Sys2Proof/Machine/Matrix.lean ====
section
/-! DEFINITION. The matrix engine (R231 to R244): commands and their queues, weight slots, tiles and cells (R46 to R49),
the checks at issue, the effects at completion, AREAD, deferred marks. -/

namespace Sys2Proof.Machine

/-! ### Cells -/

/-- The combination of special states (R48). -/
def Special.join : Special → Special → Special
  | .none, x => x
  | x, .none => x
  | .pinf, .pinf => .pinf
  | .ninf, .ninf => .ninf
  | _, _ => .nan

/-- An integer of a value at an anchor, rounded by RNE and saturated, with its overflow (R47, R240). -/
def placeInt (neg : Bool) (m : Nat) (e a : Int) : Int × Bool :=
  let n := roundInt .rne neg m (e - a)
  let top := 2 ^ 127 - 1
  let k := Nat.min n top
  (if neg then -(k : Int) else k, top < n)

/-- A tile with a value placed into a cell (R47, R48). -/
def Tile.place (t : Tile) (i : Nat) (x : FVal) : Tile :=
  match x with
  | .fin neg m e =>
    if m = 0 then t
    else
      let (k, ov) := placeInt neg m e t.anchor
      { t with n := modAt t.n i fun y => y + BitVec.ofInt 128 k, ov := t.ov || ov }
  | .inf neg => { t with sp := modAt t.sp i (Special.join (if neg then .ninf else .pinf)) }
  | .nan => { t with sp := modAt t.sp i (Special.join .nan) }

/-- The value of a cell, times 2^t (R46, R48, R241). -/
def Tile.value (t : Tile) (i : Nat) (off : Int) : FVal :=
  match t.sp.getD i .none with
  | .none =>
    let n := (t.n.getD i 0).toInt
    .fin (n < 0) n.natAbs (t.anchor + off)
  | .pinf => .inf false
  | .ninf => .inf true
  | .nan => .nan

/-- The raw 16-byte form of a cell, with the marker of a special state (R241). -/
def Tile.raw (t : Tile) (i : Nat) : Nat :=
  if t.sp.getD i .none = .none then (t.n.getD i 0).toNat else 2 ^ 127

/-- A tile as AZERO leaves it (R239). -/
def Tile.zero (a : Int) : Tile :=
  { n := List.replicate 1024 0, sp := List.replicate 1024 .none, anchor := a, ov := false, mark := none, bad := [] }

/-- A tile with a source of 1,024 cells added: values at their anchor, special states, overflow (R240). At equal anchors the
addition is modular, without an alignment that could saturate (R46, R49, R240; log 89). -/
def Tile.add (t : Tile) (n : List Int) (sp : List Special) (a : Int) (ov : Bool) : Tile :=
  let ks := n.map fun x => if a = t.anchor then (x, false) else placeInt (x < 0) x.natAbs a t.anchor
  { t with
    n := (t.n.zip ks).map fun (y, k) => y + BitVec.ofInt 128 k.1
    sp := (t.sp.zip sp).map fun (x, y) => x.join y
    ov := t.ov || ov || ks.any Prod.snd }

/-! ### Operand formats -/

/-- The container of an operand of type ty with a slot word (R36, R234). -/
def mxContainer (ty : Nat) (w : Word) : Nat := if ty = 14 then (Slot.ofWord w).container else 16
/-- The value of a code of an operand (R234). -/
def mxDecode (ty : Nat) (w : Word) (x : Nat) : FVal :=
  if ty = 14 then (Slot.ofWord w).decode x else (fmtOfType ty).decode x
/-- Rows of a panel of a B container (R236). -/
def panelRows (c : Nat) : Nat := if c ≤ 4 then 64 else if c = 8 then 32 else 16
/-- K of an operand pair by the larger container (R234). -/
def pairK (c : Nat) : Nat := panelRows c
/-- The bytes of a panel (R236). -/
def panelBytes (sp24 : Bool) (c : Nat) : Nat :=
  if sp24 then 2 * panelRows c * c + 4 * panelRows c else 4 * panelRows c * c

/-- The A and B slot words of the instruction, for TYPE 14. -/
def Cx.slotA (c : Cx) : Word := c.g.launch.ks.getD c.e.sc.toNat 0
/-- The B slot word. -/
def Cx.slotB (c : Cx) : Word := c.g.launch.ks.getD (c.e.lo.toNat % 8) 0
/-- The pair is in the exact class (R47). -/
def exactPair (ty : Nat) (wa wb : Word) : Bool :=
  let exact (w : Word) : Bool :=
    let k := Slot.ofWord w
    if k.eb = 0 then k.w ≤ 8 else k.eb ≤ 5
  ty = 14 && exact wa && exact wb

/-- The code of c bits at a bit position of stored bytes (R36). -/
def bitsAt (data : List Byte) (bit c : Nat) : Nat :=
  if 8 ≤ c then leNat ((data.drop (bit / 8)).take (c / 8)) else field (data.getD (bit / 8) 0).toNat (bit % 8) c

/-- The code of a weight slot at a logical row and column (R236). -/
def Weight.code (w : Weight) (r j : Nat) : Nat :=
  let kw := panelRows w.c
  if w.sp24 then
    let pb := panelBytes true w.c
    let panel := (w.data.drop (r / kw * pb)).take pb
    let g := r % kw / 4
    let q := r % 4
    let nib := bitsAt panel (8 * (2 * kw * w.c) + 4 * (32 * g + j)) 4
    let val (b : Nat) : Nat := bitsAt panel (((2 * g + b) * 32 + j) * w.c) w.c
    if q = nib / 4 then val 1 else if q = nib % 4 then val 0 else 0
  else bitsAt w.data ((32 * r + j) * w.c) w.c

/-! ### Names, queues and marks -/

/-- The tile of an index. -/
def Group.tile (g : Group) (i : Nat) : Tile := g.tiles.getD i (Tile.zero 0)
/-- The weight slot of an index; an empty one where nothing was loaded (R30). -/
def Group.weight (g : Group) (i : Nat) : Weight :=
  g.weights.getD i { sp24 := false, c := 8, p := 0, scratch := false, src := 0, data := [], mark := none, bad := false }

/-- The commands of a queue of a cluster. -/
def State.mxQueue (s : State) (cl : Nat) (fill : Bool) : List MxCmd :=
  (if fill then s.fill else s.compute).filter fun x => x.cl = cl

/-- A command of the group that can set a mark on the weight slot is under way (R243). -/
def State.slotBusy (s : State) (g : Group) (w : Nat) : Bool :=
  s.fill.any fun x => x.group = g.uid && x.e.op0.index = w
/-- A command of the group that can set a mark on the tile is under way (R243). -/
def State.tileBusy (s : State) (g : Group) (t : Nat) : Bool :=
  s.compute.any fun x => x.group = g.uid && x.e.op0.index = t
    && (x.o = .adrain || (x.o = .aadd && x.e.lo.toNat / 2 != 0))

/-- The fault of a deferred mark that the reading of a tile or slot raises (R243, R372). -/
def MxMark.flt (m : MxMark) (name : Opnd) : Flt :=
  { cls := m.cls, addr := m.site.pc.toNat, access := 8, info := name.toBits.toNat }

/-- The mark that a reader of a tile finds; an AZERO of it on its way clears it first (R243). -/
def State.tileMark (s : State) (g : Group) (name : Opnd) : Option Flt :=
  let cleared : Bool := s.compute.any fun x => x.group = g.uid && x.o = .azero && x.e.op0.index = name.index
  if cleared then none else (g.tile name.index).mark.map fun m => m.flt name

/-- A cell with an uncorrectable error, as an AREAD, ADRAIN or AADD that reads it finds it (R175, R243). -/
def State.tileHurt (s : State) (g : Group) (name : Opnd) : Option Flt :=
  let cleared : Bool := s.compute.any fun x => x.group = g.uid && x.o = .azero && x.e.op0.index = name.index
  if cleared || (g.tile name.index).bad.isEmpty then none else some { cls := 16, info := name.toBits.toNat }

/-- What a reader of a slot finds: its mark, or a parity error that no refill has mended (R175, R243). -/
def Group.slotMark (g : Group) (name : Opnd) : Option Flt :=
  let w := g.weight name.index
  match w.mark with
  | some m => some (m.flt name)
  | none => if w.bad then some { cls := 16, info := name.toBits.toNat } else none

/-- The pages of addresses as the cluster's TLB translates them, each with its physical page and arena handle (R365). -/
def Cx.pagesOf (c : Cx) (s : State) (as : List Nat) : List (Nat × Nat × Nat) :=
  (as.filterMap fun a => match s.xlate c.g.cl c.g.vf a {} with
    | .ok pa arena => some (a / 4096, pa / 4096, arena)
    | _ => none).eraseDups

/-- The physical address and arena handle of an address that a command reaches (R365). -/
def MxCmd.at_ (k : MxCmd) (a : Nat) : Option (Nat × Nat) :=
  (k.pages.find? fun x => x.1 = a / 4096).map fun x => (x.2.1 * 4096 + a % 4096, x.2.2)

/-- The command of one thread, with its generator's draw position (R44, R233, R241), and the translations of the addresses that its
issue has checked. -/
def Cx.mxCmd (c : Cx) (s : State) (t : Thread) (id base x y tens : Nat) (coords : List Word) (as : List Nat) : MxCmd :=
  let (a, n) := c.g.drawKey t 0
  { id := id, cl := c.g.cl, group := c.g.uid, key := t.key, o := c.o, e := c.e, base := base, x := x, y := y, tens := tens
    coords := coords, seed := c.g.launch.seed, drawG := a, drawC := n.toNat, site := c.site, start := s.stamp
    performed := false, after := c.ownIds s t, far := [], pages := c.pagesOf s as }

/-- The commands of a queue that a cluster may hold (R233). -/
def State.mxRoom (s : State) (cl : Nat) (fill : Bool) : Bool := (s.mxQueue cl fill).length < 8

/-- A command enters its queue. -/
def State.mxEnter (s : State) (fill : Bool) (k : MxCmd) : State :=
  if fill then { s with uids := k.id, fill := s.fill ++ [k] } else { s with uids := k.id, compute := s.compute ++ [k] }

/-- Every active thread's command enters its queue in ascending order, each as the queue has room (R231, R233). -/
def enqueue (fill : Bool) (draws : Nat) (cmd : Thread → Nat → MxCmd) (c : Cx) (s : State) : Act :=
  inTurn c s (fun s _ => s.mxRoom c.g.cl fill) (fun s t =>
    (s.mxEnter fill (cmd t (s.uids + 1))).setGroup c.gi fun g => g.modify t.key fun u => u.drew draws) c.todo

/-- The same fault for every active thread. -/
def Cx.allFault (c : Cx) (f : Flt) : Act := .fault (c.act.map fun t => (t.key, f))

/-- The checks of R134 from MISALIGNED on, at one byte of each of a list of addresses, at issue (R237, R240, R241): the
first fault, or the first page to wait for. -/
def State.checkBytes (s : State) (c : Cx) (n : Need) : List Nat → Option (Flt ⊕ Nat)
  | [] => none
  | a :: as =>
    match s.checkVa c a 1 n with
    | .ok _ _ => s.checkBytes c n as
    | .bad f => some (.inl f)
    | .page va => some (.inr va)

/-- The page starts that a range of bytes covers. -/
def pagesOf (a n : Nat) : List Nat :=
  if n = 0 then [] else (List.range ((a % 4096 + n + 4095) / 4096)).map fun i => if i = 0 then a else (a / 4096 + i) * 4096

/-- A matrix instruction goes on when its bytes pass the checks at issue (R237, R240, R241). -/
def Cx.engineGate (c : Cx) (s : State) (n : Need) (as : List Nat) (k : Act) : Act :=
  if c.act.isEmpty then .done s
  else
    match s.checkBytes c n as with
    | none => k
    | some (.inl f) => c.allFault { f with access := f.access + 4 }
    | some (.inr va) => .stay (s.holdPage c va n.w false true)

/-! ### Issue -/

/-- A thread that stands for the sheaf in reading S registers and immediates. -/
def Cx.first (c : Cx) : Thread :=
  c.act.headD { key := { t := 0, gl := 0 }, place := .sheaf, pc := 0, v := [], p := 0, flags := [], draws := 0, marks := []
                seq := 0, tickets := [], part := none, solo := none, entered := false }

/-- The base of a matrix operand: a 32-bit offset or a 64-bit address (R232); MMA's short displacement field counts units of
128 bytes and is taken as unsigned (log 90). -/
def Cx.mxBase (c : Cx) (scratch : Bool) : Nat :=
  let disp : Int := if c.o = .wbld then c.e.disp
    else if c.o = .mma then (match c.e.lit with
      | some x => sext 32 x.toNat
      | none => (c.e.imm.toNat % 128 * 128 : Nat))
    else 0
  let b := if c.e.op1.absent then 0 else c.g.src c.first (if scratch then 1 else 2) c.e.op1
  wrap (if scratch then 32 else 64) ((b : Int) + disp)

/-- A scratchpad range that must lie in the scratch area or the visible bank (R235, R241). -/
def Launch.inOneArea (l : Launch) (o n : Nat) : Bool :=
  o + n ≤ l.scratch || (l.scratch ≤ o && o + n ≤ l.space)

/-- WBLD (R236, R237): the checks in the order of R236, size before alignment; their ACCESS is an engine's (log 20). -/
def wbldBody (c : Cx) (s : State) : Act :=
  let scratch : Bool := c.e.lo.toNat / 4 % 2 = 1
  let sp24 : Bool := c.e.lo.toNat / 8 = 1
  let base := c.mxBase scratch
  let p := c.g.arg c.first c.o c.e 1 2
  let n := p * panelBytes sp24 (mxContainer c.e.ty.toNat c.slotA)
  if c.act.isEmpty then .done s
  else if 32768 < n then c.allFault { cls := 6, addr := base, access := 4 }
  else if base % 16 != 0 then c.allFault { cls := 4, addr := base, access := 4 }
  else
    let go : Act := enqueue true 0 (fun t id => c.mxCmd s t id base p n 0 [] (if scratch then [] else pagesOf base n)) c s
    if scratch then (if c.g.launch.space < base + n then c.allFault { cls := 6, addr := base, access := 4 } else go)
    else c.engineGate s { r := true } (pagesOf base n) go

/-- MMA (R234, R235, R238); of a marked tile and a marked slot the tile's fault is raised (log 91). -/
def mmaBody (c : Cx) (s : State) : Act :=
  let ty := c.e.ty.toNat
  let ca := mxContainer ty c.slotA
  let cb := mxContainer ty c.slotB
  let k := pairK (Nat.max ca cb)
  let o := c.mxBase true
  let r0 := c.g.arg c.first c.o c.e 1 3 * k
  let w := c.g.weight c.e.op2.index
  if c.act.isEmpty then .done s
  else if s.slotBusy c.g c.e.op2.index || s.tileBusy c.g c.e.op0.index then .stay s
  else
    match s.tileMark c.g c.e.op0, c.g.slotMark c.e.op2 with
    | some f, _ => c.allFault f
    | none, some f => c.allFault f
    | none, none =>
      if o % 128 != 0 then c.allFault { cls := 4, addr := o, access := 4 }
      else if !c.g.launch.inOneArea o (4 * k * ca) then c.allFault { cls := 6, addr := o, access := 4 }
      else if w.p != 0 && (w.c != cb || w.p * panelRows w.c < r0 + k) then c.allFault { cls := 6 }
      else enqueue false 0 (fun t id => c.mxCmd s t id o r0 0 0 [] []) c s

/-- AZERO (R239). -/
def azeroBody (c : Cx) (s : State) : Act :=
  let ty := c.e.ty.toNat
  let a : Int :=
    if c.e.lo.toNat / 8 = 1 then
      (if exactPair ty c.slotA c.slotB then (Slot.ofWord c.slotA).lsb + (Slot.ofWord c.slotB).lsb else -64)
    else sext 10 (c.g.arg c.first c.o c.e 1 1)
  enqueue false 0 (fun t id => c.mxCmd s t id (wrap 16 a) 0 0 0 [] []) c s

/-- The element size of a drain in bits. -/
def Cx.drainBits (c : Cx) : Nat := elemBits c.e.ty.toNat c.slotA

/-- The check of a tensor drain's handle (R139, R241). -/
def Cx.drainDesc (c : Cx) (s : State) : Except Flt Desc :=
  match s.tensor c.g (c.g.src c.first 1 c.e.op1) false with
  | .error f => .error f
  | .ok d =>
    if d.fmt = c.e.ty.toNat && (d.fmt != 14 || d.slot = c.e.sc.toNat) then .ok d
    else .error { cls := 6 }

/-- The coordinates of element (i, j) of a tensor drain (R241). -/
def drainCoords (cs : List Word) (i j : Nat) : List Nat :=
  [((cs.getD 0 0).toNat + j), ((cs.getD 1 0).toNat + i), (cs.getD 2 0).toNat, (cs.getD 3 0).toNat]

/-- The bytes that the elements of a tensor drain inside its extents begin and end at, row by row (R36, R241). -/
def drainPages (d : Desc) (ks : List Word) (cs : List Word) : List Nat :=
  (List.range 32).flatMap fun i =>
    let js := (List.range 32).filter fun j => (d.outside (drainCoords cs i j) 1).isNone
    match js.head?, js.getLast? with
    | some a, some b =>
      [(d.place ks (drainCoords cs i a)).1, (d.place ks (drainCoords cs i b)).1 + (d.bits ks + 7) / 8 - 1]
    | _, _ => []

/-- ADRAIN (R241). Each row of a scratchpad destination lies in one area, of which different rows may take different ones (log 115). -/
def adrainBody (c : Cx) (s : State) : Act :=
  let form := c.e.lo.toNat / 4
  let scratch : Bool := c.e.lo.toNat / 2 % 2 = 1
  let draws := if c.e.rm = 5 || (c.e.rm = 7 && (Slot.ofWord c.slotA).rmode = 5) then 1024 else 0
  if c.act.isEmpty then .done s
  else if s.tileBusy c.g c.e.op0.index then .stay s
  else
    match (s.tileMark c.g c.e.op0).or (s.tileHurt c.g c.e.op0) with
    | some f => c.allFault f
    | none =>
      if form = 2 then
        let h := c.g.src c.first 1 c.e.op1
        let cs := (List.range 4).map fun i => BitVec.ofNat 32 (c.g.src c.first 4 c.e.op2 / 2 ^ (32 * i))
        match c.drainDesc s with
        | .error f => c.allFault f
        | .ok d =>
          let as := drainPages d c.g.launch.ks cs
          c.engineGate s { w := true } as
            (enqueue false draws (fun t id => c.mxCmd s t id 0 0 0 (s.descBits c.g.vf h) cs as) c s)
      else
        let base := c.mxBase scratch
        let stride := sext 32 (c.g.arg c.first c.o c.e 1 2)
        let m : Nat := if c.e.ty = 15 then 16 else 4
        let row := 4 * c.drainBits
        let w := if scratch then 32 else 64
        let start (i : Nat) : Nat := wrap w ((base : Int) + i * stride)
        let sv := match c.e.op3 with
          | .k i => (f32.round .rne (FVal.ofInt (sext 8 i.toNat)))
          | o => c.g.src c.first 1 o
        let as := if scratch then [] else (List.range 32).flatMap fun i => [start i, start i + row - 1]
        let go : Act := enqueue false draws (fun t id => c.mxCmd s t id base (wrap 32 stride) sv 0 [] as) c s
        if base % m != 0 || stride % m != 0 then c.allFault { cls := 4, addr := base, access := 5 }
        else if scratch then
          match (List.range 32).find? fun i => !c.g.launch.inOneArea (start i) row with
          | some i => c.allFault { cls := 6, addr := start i, access := 5 }
          | none => go
        else
          c.engineGate s { r := form = 1, w := true } as go

/-- AADD (R240); of two marked tiles the fault of Ad is raised (log 91). -/
def aaddBody (c : Cx) (s : State) : Act :=
  let src := c.e.lo.toNat / 2
  let scratch : Bool := src = 2
  if c.act.isEmpty then .done s
  else if s.tileBusy c.g c.e.op0.index || (src = 0 && s.tileBusy c.g c.e.op1.index) then .stay s
  else
    match (s.tileMark c.g c.e.op0).or (s.tileHurt c.g c.e.op0),
      (if src = 0 then (s.tileMark c.g c.e.op1).or (s.tileHurt c.g c.e.op1) else none) with
    | some f, _ => c.allFault f
    | none, some f => c.allFault f
    | none, none =>
      if src = 0 then enqueue false 0 (fun t id => c.mxCmd s t id 0 0 0 0 [] []) c s
      else
        let base := c.mxBase scratch
        let a := wrap 16 (sext 10 (c.g.arg c.first c.o c.e 1 2))
        let go : Act := enqueue false 0 (fun t id => c.mxCmd s t id base a 0 0 [] (if scratch then [] else pagesOf base 16384)) c s
        if base % 16 != 0 then c.allFault { cls := 4, addr := base, access := 4 }
        else if scratch then
          (if c.g.launch.space < base + 16384 then c.allFault { cls := 6, addr := base, access := 4 } else go)
        else c.engineGate s { r := true } (pagesOf base 16384) go

/-- What a thread receives from AREAD: row L of the tile, or the tile state word (R242). -/
def Cx.areadVal (c : Cx) (t : Thread) : List (Reg × Word) :=
  let x := c.g.tile c.e.op1.index
  let l := t.key.t % 32
  let n := c.e.op3.index
  let c0 := c.g.src t 1 c.e.op2 % 32
  let d := c.e.op0.index
  if c.e.ty = 6 then
    c.dstN 1 (wrap 10 x.anchor + (if x.ov then 2 ^ 16 else 0) + (if x.sp.any (· != .none) then 2 ^ 17 else 0))
  else if c.e.ty = 15 then
    (List.range n).flatMap fun j =>
      (natWords 4 (x.raw (32 * l + (c0 + j) % 32))).zipIdx.map fun (w, i) => (Reg.v (d + 4 * j + i), w)
  else
    (List.range n).map fun j =>
      (.v (d + j), BitVec.ofNat 32 ((fmtOfType c.e.ty.toNat).round c.rm (x.value (32 * l + (c0 + j) % 32) 0)))

/-- The cells of its tile that an AREAD reads for a thread; `.n32` reads none (R242). -/
def Cx.areadCells (c : Cx) (t : Thread) : List Nat :=
  if c.e.ty = 6 then []
  else (List.range c.e.op3.index).map fun j => 32 * (t.key.t % 32) + (c.g.src t 1 c.e.op2 % 32 + j) % 32

/-- The AREAD command of the issuing sheaf in the compute queue (R233). -/
def Cx.myAread (c : Cx) (s : State) : Option MxCmd :=
  s.compute.find? fun k => k.group = c.g.uid && k.o = .aread && c.sh.acted.contains k.key

/-- A matrix command has completed: it leaves its queue, is counted and traced (R233, R395, R400). -/
def State.mxEnd (s : State) (k : MxCmd) (fill : Bool) : State :=
  let s := { s with fill := s.fill.filter fun x => x.id != k.id, compute := s.compute.filter fun x => x.id != k.id }
  let r (g : Group) : TraceRec :=
    { kind := 2, engine := if fill then 1 else 2, pkcl := k.cl, gidx := g.gidx, seq := s.taskSeq g.vf g.task, start := s.ns
      word := k.site.word, info := k.o.code.2, detail := k.e.op0.index, pc := k.site.pc.toNat }
  let s := match (s.groupOf k.group).bind fun gi => s.groups[gi]? with
    | some g => s.trace g.vf (some (if fill then 1 else 2)) (r g)
    | none => s
  (s.count k.cl 8 1).sweepFences

/-- AREAD (R233, R242): one command for the sheaf enters the compute queue, and the sheaf is held until every earlier command
there has completed; then it reads, a mark or an uncorrectable cell being raised instead (R243). -/
def areadBody (c : Cx) (s : State) : Act :=
  if c.act.isEmpty then .done s
  else match c.myAread s with
    | none =>
      if s.mxRoom c.g.cl false then
        let k := c.mxCmd s c.first (s.uids + 1) 0 0 0 0 [] []
        .stay ((s.mxEnter false k).setSheaf c.gi c.si fun sh => { sh with acted := [k.key] })
      else .stay s
    | some k =>
      if ((s.mxQueue c.g.cl false).head?).map MxCmd.id != some k.id then .stay s
      else
        let x := c.g.tile c.e.op1.index
        let hurt (t : Thread) : Option Flt :=
          if (c.areadCells t).any x.bad.contains then some { cls := 16, info := c.e.op1.toBits.toNat } else none
        match x.mark with
        | some m => .fault (c.act.map fun t => (t.key, m.flt c.e.op1))
        | none =>
          let bad := Cx.bads c.act hurt
          if !bad.isEmpty then .fault bad else lanes Cx.areadVal c (s.mxEnd k false)

/-! ### Completion -/

/-- The bytes of a scratchpad range, by chunks that lie in one area. -/
def Group.spBytes (g : Group) (o n : Nat) : List Byte := (List.range n).flatMap fun i => g.spRead (o + i) 1

/-- The line starts that a range of bytes covers. -/
def linesOf (a n : Nat) : List Nat :=
  if n = 0 then [] else (List.range ((a % 128 + n + 127) / 128)).map fun i => (a / 128 + i) * 128

/-- The state with a matrix command of an identity changed. -/
def State.setMx (s : State) (id : Nat) (f : MxCmd → MxCmd) : State :=
  let g (k : MxCmd) : MxCmd := if k.id = id then f k else k
  { s with fill := s.fill.map g, compute := s.compute.map g }

/-- The line of another chip that the cluster holds for a command's group (R186). -/
def State.mxHeld (s : State) (k : MxCmd) (pa : Nat) : Option FarLine := s.farHeld k.cl k.group (pa / 128)

/-- The line of an address as a command of the engine reads it: its bytes, or the class of the mark that it gives: an old
arena generation or an uncorrectable error, at home or as another chip has answered (R237, R240, R378). -/
def State.engineLine128 (s : State) (vf : Nat) (k : MxCmd) (a : Nat) : State × (List Byte × Option Nat) :=
  match k.at_ a with
  | some (pa, arena) =>
    if (s.vf vf).staleAt arena then (s, [], some 7)
    else if inImport pa then
      (match s.mxHeld k pa, k.far.find? fun x => x.1 = pa / 128 with
        | some x, _ => (s, x.data, none)
        | none, some x => (s, x.2.1, if x.2.2 = 0 then none else some x.2.2)
        | none, none => (s, [], some 16))
    else if s.errs pa then (s, [], some 16)
    else
      let (s, b) := s.load (pa / 128 * 128) 128
      (s.engineLine (some k.cl) vf arena pa, b, none)
  | none => (s, [], some 16)

/-- A global range as a command reads it, with the mark of the first line that fails (R237, R240, R378). -/
def State.engineRead (s : State) (vf : Nat) (k : MxCmd) (a n : Nat) : State × (List Byte × Option Nat) :=
  let r := (linesOf a n).foldl (fun (x : State × (List Byte × Option Nat)) l =>
    let (s, b, m) := x.1.engineLine128 vf k l
    (s, x.2.1 ++ b, x.2.2.or m)) (s, [], none)
  (r.1, (r.2.1.drop (a % 128)).take n, r.2.2)

/-- A scratchpad range as a command reads it: a word with an uncorrectable error gives its mark (R175). -/
def Group.engineSp (g : Group) (o n : Nat) : List Byte × Option Nat :=
  (g.spBytes o n, if (List.range n).any fun i => g.spErrs (o + i) 1 then some 16 else none)

/-- WBLD completes: the slot holds its data, or a mark (R236, R237). -/
def State.wbldDone (s : State) (gi : Nat) (g : Group) (k : MxCmd) : State :=
  let scratch : Bool := k.e.lo.toNat / 4 % 2 = 1
  let (s, data, bad) := if scratch then (s, g.engineSp k.base k.y) else s.engineRead g.vf k k.base k.y
  let w : Weight :=
    { sp24 := k.e.lo.toNat / 8 = 1, c := mxContainer k.e.ty.toNat (g.launch.ks.getD k.e.sc.toNat 0), p := k.x
      scratch := scratch, src := k.base, data := data, mark := bad.map fun c => { cls := c, site := k.site }, bad := false }
  s.setGroup gi fun g => { g with weights := modAt g.weights k.e.op0.index fun _ => w }

/-- The A operand's code at row i and element j, swizzled (R235). -/
def Group.aCode (g : Group) (k : MxCmd) (kk ca i j : Nat) : Nat :=
  let bit := (i * kk + j) * ca
  let zw := k.e.imm.toNat / 2 ^ 18 % 4
  let zs := k.e.imm.toNat / 2 ^ 15 % 8
  let x := k.base + bit / 8
  let x := x ^^^ (x / 2 ^ (7 + zs) % 2 ^ zw * 16)
  bitsAt (g.spRead x (Nat.max 1 (ca / 8))) (bit % 8) ca

/-- A tile with a deferred mark, unless it has one (R243). -/
def Tile.marked (cls : Nat) (site : Site) (t : Tile) : Tile := { t with mark := some (t.mark.getD { cls := cls, site := site }) }

/-- A slot with a deferred mark, unless it has one (R243). -/
def Weight.marked (cls : Nat) (site : Site) (w : Weight) : Weight := { w with mark := some (w.mark.getD { cls := cls, site := site }) }

/-- A tile of a group takes a deferred mark (R243). -/
def State.markTile (s : State) (gi : Nat) (k : MxCmd) (cls : Nat) : State :=
  s.setGroup gi fun g => { g with tiles := modAt g.tiles k.e.op0.index (Tile.marked cls k.site) }

/-- MMA completes: its products are placed (R238), then its bytes are subtracted (R234). An operand with an uncorrectable error
stops it: it places nothing, and the tile, or the slot whose error came after the issue, takes the mark (R175; log 92). -/
def State.mmaDone (s : State) (gi : Nat) (g : Group) (k : MxCmd) : State :=
  let ty := k.e.ty.toNat
  let wa := g.launch.ks.getD k.e.sc.toNat 0
  let wb := g.launch.ks.getD (k.e.lo.toNat % 8) 0
  let ca := mxContainer ty wa
  let kk := pairK (Nat.max ca (mxContainer ty wb))
  let w := g.weight k.e.op2.index
  let cell (t : Tile) (i j : Nat) : Tile :=
    (List.range kk).foldl (fun t q =>
      let x := mxDecode ty wa (g.aCode k kk ca i q)
      let y := if w.p = 0 then FVal.fin false 0 0 else mxDecode ty wb (w.code (k.x + q) j)
      t.place (32 * i + j) (x.mul y)) t
  let s :=
    if w.bad then s.setGroup gi fun g => { g with weights := modAt g.weights k.e.op2.index (Weight.marked 16 k.site) }
    else if (g.engineSp k.base (4 * kk * ca)).2.isSome then s.markTile gi k 16
    else
      let t := (List.range 32).foldl (fun t i => (List.range 32).foldl (fun t j => cell t i j) t) (g.tile k.e.op0.index)
      s.setGroup gi fun g => { g with tiles := modAt g.tiles k.e.op0.index fun _ => t }
  if k.e.imm.toNat / 128 % 2 = 1 then s.subtract gi (k.e.imm.toNat / 256 % 128) (4 * kk * ca) else s

/-- AZERO completes (R239). -/
def State.azeroDone (s : State) (gi : Nat) (k : MxCmd) : State :=
  s.setGroup gi fun g => { g with tiles := modAt g.tiles k.e.op0.index fun _ => Tile.zero (sext 16 k.base) }

/-- AADD completes (R240); a cell whose uncorrectable error came after the issue stops it, with a mark on its tile (R175; log 92). -/
def State.aaddDone (s : State) (gi : Nat) (g : Group) (k : MxCmd) : State :=
  let set (s : State) (f : Tile → Tile) : State :=
    s.setGroup gi fun g => { g with tiles := modAt g.tiles k.e.op0.index f }
  if !(g.tile k.e.op0.index).bad.isEmpty then s.markTile gi k 16
  else
    match k.e.lo.toNat / 2 with
    | 0 =>
      let x := g.tile k.e.op1.index
      if !x.bad.isEmpty then s.markTile gi k 16
      else set s fun t => t.add (x.n.map BitVec.toInt) x.sp x.anchor x.ov
    | f =>
      let (s, data, bad) := if f = 2 then (s, g.engineSp k.base 16384) else s.engineRead g.vf k k.base 16384
      match bad with
      | some c => s.markTile gi k c
      | none =>
        let n := (List.range 1024).map fun i => sext 128 (leNat ((data.drop (16 * i)).take 16))
        set s fun t => t.add n (List.replicate 1024 .none) (sext 16 k.x) false

/-- A write of a drain in its VF (R241): discarded where it is old; refused, with a mark to set, where the arena is sealed. To
another chip it carries the stamp of the command's issue (R339). -/
def State.engineWrite (s : State) (vf : Nat) (k : MxCmd) (a : Nat) (bytes : List Byte) : State × Bool :=
  match k.at_ a with
  | some (pa, arena) =>
    if (s.vf vf).staleAt arena then (s, false)
    else if (s.vf vf).sealedAt arena then (s, true)
    else if inImport pa then
      (match s.mxHeld k pa with
        | some x => (s.setFar x (putBytes x.data (pa % 128) bytes), false)
        | none =>
          (s.askWrite k.cl vf 2 0 pa 0 bytes.length bytes
            { group := k.group, key := k.key, copy := k.id, cls := 4, stamp := some k.start }, false))
    else (s.store (some k.cl) vf arena pa bytes, false)
  | none => (s, false)

/-- The count c of R44 for draw n of a drain: DRAWS runs modulo 2^32, and inside a glean the draws of an iteration modulo
2^20 (R29, R44). -/
def MxCmd.drawAt (k : MxCmd) (n : Nat) : Nat :=
  if k.drawG.getLsbD 63 then k.drawC / 2 ^ 20 * 2 ^ 20 + (k.drawC + n) % 2 ^ 20 else (k.drawC + n) % 2 ^ 32

/-- The rounding mode of element n of a drain (R43, R241). -/
def MxCmd.mode (k : MxCmd) (w : Word) (n : Nat) : Mode :=
  let rm := if k.e.rm = 7 then (Slot.ofWord w).rmode else k.e.rm.toNat
  if rm = 5 then .sr ((draw64 k.seed k.drawG (BitVec.ofNat 64 (k.drawAt n))).extractLsb' 48 16).toNat
  else Mode.ofCode rm

/-- The code that a drain writes for element n of its tile, with its overflow (R241). -/
def MxCmd.code (k : MxCmd) (w : Word) (t : Tile) (n : Nat) : Nat × Bool :=
  let ty := k.e.ty.toNat
  let off := if k.o = .adrain then sext 10 (k.e.imm.toNat % 1024) else 0
  if ty = 15 then (t.raw n, false)
  else if ty = 14 then (Slot.ofWord w).encode (k.mode w n) (t.value n off)
  else ((fmtOfType ty).round (k.mode w n) (t.value n off), false)

/-- The state while a drain writes, with whether a write met a seal. -/
abbrev Drain := State × Bool

/-- Where element n of a drain goes: its byte and its first bit there; none outside a tensor's extents (R36, R241). -/
def MxCmd.place (k : MxCmd) (g : Group) (d : Option Desc) (n : Nat) : Option (Nat × Nat) :=
  match d with
  | some d =>
    let cs := drainCoords k.coords (n / 32) (n % 32)
    if (d.outside cs 1).isSome then none else some (d.place g.launch.ks cs)
  | none =>
    let scratch : Bool := k.e.lo.toNat / 2 % 2 = 1
    let bits := n % 32 * elemBits k.e.ty.toNat (g.launch.ks.getD k.e.sc.toNat 0)
    some (wrap (if scratch then 32 else 64) ((k.base : Int) + (n / 32 : Nat) * sext 32 k.x + (bits / 8 : Nat)), bits % 8)

/-- The drain goes to the scratchpad (R241). -/
def MxCmd.toScratch (k : MxCmd) : Bool := k.e.lo.toNat / 4 != 2 && k.e.lo.toNat / 2 % 2 = 1

/-- n bytes that stand where a drain is to write; those that cannot be read, of a line with an uncorrectable error or one that
another chip has not given, are free (log 116). -/
def State.drainOld (s : State) (gi : Nat) (g : Group) (k : MxCmd) (a n : Nat) : State × List Byte :=
  if k.toScratch then (s, ((s.groups[gi]?).map fun g => g.spRead a n).getD [])
  else
    let (s, b, m) := s.engineRead g.vf k a n
    (s, if m.isSome then (List.range n).map fun i => Config.freeByte (a + i) else b)

/-- Bytes that a drain writes at a place (R241). -/
def drainPut (gi : Nat) (g : Group) (k : MxCmd) (a : Nat) (bytes : List Byte) (x : Drain) : Drain :=
  if k.toScratch then (x.1.setGroup gi fun g => g.spWrite a bytes, x.2)
  else
    let (s, sealed) := x.1.engineWrite g.vf k a bytes
    (s, x.2 || sealed)

/-- The code that a drain writes for element n, with its overflow: for `.axpy` the weight that stood there plus its share
(R241). -/
def MxCmd.elem (k : MxCmd) (g : Group) (t : Tile) (old n : Nat) : Nat × Bool :=
  let w := g.launch.ks.getD k.e.sc.toNat 0
  if k.e.lo.toNat / 4 = 1 then
    let mode := k.mode w n
    (f32.round mode (FVal.sum mode [f32.decode old, (f32.decode k.y).mul (t.value n (sext 10 (k.e.imm.toNat % 1024)))]), false)
  else k.code w t n

/-- The byte of narrow codes at an address, of the elements of a row that a drain writes there; the others stay (R36). -/
def MxCmd.byte (k : MxCmd) (g : Group) (d : Option Desc) (t : Tile) (bits a row old : Nat) : Nat :=
  (List.range 32).foldl (fun y j =>
    let n := 32 * row + j
    match k.place g d n with
    | some (b, bit) =>
      if b = a then y - field y bit bits * 2 ^ bit + (k.elem g t 0 n).1 % 2 ^ bits * 2 ^ bit else y
    | none => y) old

/-- One element of ADRAIN (R241): its contribution or its overflow, and then its write; a byte of narrow codes is written with
the last of its elements. -/
def drainElem (gi : Nat) (g : Group) (k : MxCmd) (d : Option Desc) (t : Tile) (x : Drain) (n : Nat) : Drain :=
  match k.place g d n with
  | none => x
  | some (a, _) =>
    let bits := elemBits k.e.ty.toNat (g.launch.ks.getD k.e.sc.toNat 0)
    let m := Nat.max 1 (bits / 8)
    let last : Bool := (k.place g d (n + 1)).all fun y => y.1 != a || (n + 1) % 32 = 0
    let (s, b) := if (bits < 8 ∧ last) ∨ k.e.lo.toNat / 4 = 1 then x.1.drainOld gi g k a m else (x.1, [])
    let (code, ov) := k.elem g t (leNat b) n
    let s := match d.filter fun d => d.record != 0 with
      | some d => s.contribute g.cl g.vf (g.uid, k.key) d.record 1
          ((Stat.ofValue (d.value g.launch.ks code)).merge (Stat.overflow (if ov then 1 else 0)))
      | none => if ov then s.count g.cl 12 1 else s
    if 8 ≤ bits then drainPut gi g k a (natBytes m code) (s, x.2)
    else if last then drainPut gi g k a (natBytes 1 (k.byte g d t bits a (n / 32) (leNat b))) (s, x.2)
    else (s, x.2)

/-- The descriptor of a tensor drain, as its issue read it (R300). -/
def MxCmd.drainTo (k : MxCmd) : Option Desc :=
  if k.e.lo.toNat / 4 = 2 then some (Desc.of k.tens) else none

/-- ADRAIN performs (R241); a cell whose uncorrectable error came after the issue stops it, with a mark on its tile (R175; log
92). -/
def State.adrainDone (s : State) (gi : Nat) (g : Group) (k : MxCmd) : State :=
  let t := g.tile k.e.op0.index
  if !t.bad.isEmpty then s.markTile gi k 16
  else
    let (s, sealed) := (List.range 1024).foldl (drainElem gi g k k.drainTo t) (s, false)
    if sealed then s.markTile gi k 8 else s

/-- The bytes planned of a drain leave its barrier once its writes have performed, also those to another chip (R208, R241,
R244). -/
def State.adrainBytes (s : State) (gi : Nat) (g : Group) (k : MxCmd) : State :=
  let bytes := 128 * elemBits k.e.ty.toNat (g.launch.ks.getD k.e.sc.toNat 0)
  if k.e.lo.toNat % 2 = 1 then s.subtract gi (k.e.imm.toNat / 1024 % 128) bytes else s

/-- The addresses whose lines of another chip a command has to read before it takes effect: the source of a WBLD or AADD, and
what an ADRAIN adds to or shares a byte with (R237, R240, R241). -/
def MxCmd.reads (k : MxCmd) (g : Group) : List Nat :=
  match k.o with
  | .wbld => if k.e.lo.toNat / 4 % 2 = 1 then [] else linesOf k.base k.y
  | .aadd => if k.e.lo.toNat / 2 = 1 then linesOf k.base 16384 else []
  | .adrain =>
    let narrow : Bool := elemBits k.e.ty.toNat (g.launch.ks.getD k.e.sc.toNat 0) < 8 && k.e.lo.toNat / 4 = 2
    if k.toScratch || !(narrow || k.e.lo.toNat / 4 = 1) then []
    else ((List.range 1024).filterMap fun n => (k.place g (k.drainTo) n).map fun x => x.1 / 128 * 128).eraseDups
  | _ => []

/-- The physical lines of another chip among them that no answer and no held line has brought. -/
def State.mxMissing (s : State) (g : Group) (k : MxCmd) : List Nat :=
  (k.reads g).filterMap fun a => (k.at_ a).bind fun (pa, arena) =>
    if inImport pa && !(s.vf g.vf).staleAt arena && (s.mxHeld k pa).isNone && !(k.far.any fun x => x.1 = pa / 128)
    then some (pa / 128) else none

/-- The engine asks another chip for lines, each once. -/
def State.mxAsk (s : State) (vf : Nat) (k : MxCmd) (lines : List Nat) : State :=
  lines.foldl (fun s l =>
    if s.fab.reqs.any fun r => r.copy = k.id && r.pa = l * 128 then s
    else s.ask vf 1 0 (l * 128) 0 128 [] { group := k.group, key := k.key, out := 1, copy := k.id, cls := 4 }) s

/-- A line that a command is about to reach is pinned against its group (R186). -/
def State.mxPinned (s : State) (g : Group) (k : MxCmd) : Option Nat :=
  let places := if k.o = .adrain then
      (if k.toScratch then [] else (List.range 1024).filterMap fun n => (k.place g (k.drainTo) n).map Prod.fst)
    else k.reads g
  places.findSome? fun a => (k.at_ a).bind fun x =>
    if s.ms.refuses (some g.uid) (x.1 / 128) then some (x.1 / 128) else none

/-- The effect of a command of a group. -/
def State.mxEffect (s : State) (gi : Nat) (g : Group) (k : MxCmd) : State :=
  match k.o with
  | .wbld => s.wbldDone gi g k
  | .mma => s.mmaDone gi g k
  | .azero => s.azeroDone gi k
  | .adrain => s.adrainDone gi g k
  | _ => s.aaddDone gi g k

/-- The head of a queue may take effect: what its thread had under way has ended (R182, R244), and a WBLD waits for the earlier
MMAs that read its slot, an MMA for the earlier WBLDs of its slot (R233, R237). -/
def State.mxFree (s : State) (k : MxCmd) : Bool :=
  !(k.after.any s.underWay.contains)
    && !(k.o = .wbld && s.compute.any fun x => x.group = k.group && x.o = .mma && x.id < k.id && x.e.op2.index = k.e.op0.index)
    && !(k.o = .mma && s.fill.any fun x => x.group = k.group && x.id < k.id && x.e.op0.index = k.e.op2.index)

/-- An AREAD at the head of its queue waits for its sheaf, unless that is gone or its group does not run: then the command
ends, and the instruction is issued again (R233, R242). -/
def State.areadGone (s : State) (k : MxCmd) : Bool :=
  match (s.groupOf k.group).bind fun gi => s.groups[gi]? with
  | none => true
  | some g => g.stop != .running || !g.sheaves.any fun sh => sh.acted.contains k.key && sh.members.contains k.key

/-- A command takes effect: first the lines of other chips that it reads are asked for, and a line pinned by another group
refuses it for now; a drain that has written to another chip completes with the acknowledgements (R186, R233, R241, R244). -/
def State.mxServe (s : State) (gi : Nat) (g : Group) (k : MxCmd) (fill : Bool) : State :=
  if k.performed then (if s.fab.reqs.any fun r => r.copy = k.id then s else (s.adrainBytes gi g k).mxEnd k fill)
  else
    let lines := s.mxMissing g k
    if !lines.isEmpty then s.mxAsk g.vf k lines
    else match s.mxPinned g k with
      | some l => if s.ms.refused.contains (l, k.id, k.key) then s
          else { s with ms := s.ms.noteRefused l k.id k.key }.count k.cl 13 1
      | none =>
        let s := { s with ms := s.ms.served k.id k.key }
        let s := s.mxEffect gi g k
        if k.o != .adrain then s.mxEnd k fill
        else if s.fab.reqs.any fun r => r.copy = k.id then s.setMx k.id fun k => { k with performed := true }
        else (s.adrainBytes gi g k).mxEnd k fill

/-- MATRIX_COMMAND_COMPLETE (R233): the oldest command of a queue of a cluster goes on, takes effect and completes. -/
def evMatrixCommandComplete (cl : Nat) (fill : Bool) (s : State) : State :=
  match s.mxQueue cl fill with
  | [] => s
  | k :: _ =>
    if k.o = .aread then (if s.areadGone k then { s with compute := s.compute.filter fun x => x.id != k.id } else s)
    else if !s.mxFree k then s
    else match (s.groupOf k.group).bind fun gi => (s.groups[gi]?).map fun g => (gi, g) with
      | some (gi, g) => s.mxServe gi g k fill
      | none => s.mxEnd k fill

/-- WBLD (R237). -/
def execWbld (e : Ext) (s : State) : Host.Outcome State Fault Refusal := issueE .wbld e s wbldBody
/-- MMA (R238). -/
def execMma (e : Ext) (s : State) : Host.Outcome State Fault Refusal := issueE .mma e s mmaBody
/-- AZERO (R239). -/
def execAzero (e : Ext) (s : State) : Host.Outcome State Fault Refusal := issueE .azero e s azeroBody
/-- ADRAIN (R241). -/
def execAdrain (e : Ext) (s : State) : Host.Outcome State Fault Refusal := issueE .adrain e s adrainBody
/-- AREAD (R242). -/
def execAread (e : Ext) (s : State) : Host.Outcome State Fault Refusal := issueE .aread e s areadBody
/-- AADD (R240). -/
def execAadd (e : Ext) (s : State) : Host.Outcome State Fault Refusal := issueE .aadd e s aaddBody
/-- MATRIX_COMMAND_COMPLETE (R233). -/
def execMatrixCommandComplete (cl : Nat) (fill : Bool) (s : State) : Host.Outcome State Fault Refusal :=
  .next (evMatrixCommandComplete cl fill s)

end Sys2Proof.Machine
end

