-- ==== Sys2Proof/Machine/Row.lean ====
section
/-! DEFINITION. Row-collectives (R123 to R130), QBLK (R316), the acting of a row and its timeout (R124, R152). -/

namespace Sys2Proof.Machine

/-- A lane that takes part in a collective (R125): its thread, and whether it receives. -/
structure Lane where
  t : Thread
  recv : Bool
  deriving DecidableEq, Repr

/-- The 32 lanes of a row; none for an exited lane or one without a thread. -/
abbrev RowLanes := List (Option Lane)

/-- The lane of an index. -/
def RowLanes.at (r : RowLanes) (i : Nat) : Option Lane := (r[i]?).join

/-- The lanes that take part, with their indices. -/
def RowLanes.part (r : RowLanes) : List (Nat × Lane) := r.zipIdx.filterMap fun (x, i) => x.map fun l => (i, l)

/-- The mask of the taking-part lanes for which a test holds. -/
def RowLanes.mask (r : RowLanes) (p : Thread → Bool) : Nat :=
  (r.part.map fun (i, l) => if p l.t then 2 ^ i else 0).sum

/-- The source lane of BFLY and SHFL for a receiving lane, or none where it lies outside the row (R127). -/
def Cx.sourceLane (c : Cx) (i : Nat) (t : Thread) : Option Nat :=
  let b := c.g.src t 1 c.e.op2 % 32
  match c.o, c.e.lo.toNat % 4 with
  | .bfly, _ => some (i ^^^ b)
  | _, 0 => some b
  | _, 1 => if b ≤ i then some (i - b) else none
  | _, 2 => if i + b < 32 then some (i + b) else none
  | _, _ => some (i ^^^ b)

/-- ROWRED's combination of two values of the type (R129). -/
def Cx.combine (c : Cx) (x y : Nat) : Nat :=
  let w := 32 * c.n
  let signed : Bool := c.e.ty = 2 || c.e.ty = 3
  let less (a b : Nat) : Bool := if signed then sext w a < sext w b else a < b
  match c.e.lo.toNat with
  | 0 => (x + y) % 2 ^ w
  | 1 => if less y x then y else x
  | 2 => if less x y then y else x
  | 3 => x &&& y
  | 4 => x ||| y
  | _ => x ^^^ y

/-- The identity of ROWRED's operation (R129). -/
def Cx.identity (c : Cx) : Nat :=
  let w := 32 * c.n
  let signed : Bool := c.e.ty = 2 || c.e.ty = 3
  match c.e.lo.toNat with
  | 1 => if signed then 2 ^ (w - 1) - 1 else 2 ^ w - 1
  | 2 => if signed then 2 ^ (w - 1) else 0
  | 3 => 2 ^ w - 1
  | _ => 0

/-- What a receiving lane of MATCH, BFLY, SHFL, VOTE, ROWRED and ELECT writes (R126 to R130). -/
def collVal (c : Cx) (r : RowLanes) (i : Nat) (t : Thread) : List (Reg × Word) :=
  let own := c.g.src t c.n c.e.op1
  let vote (u : Thread) : Bool := u.pred c.e.op1.index
  match c.o with
  | .rowMatch => c.dstN 1 (r.mask fun u => c.g.src u c.n c.e.op1 = own)
  | .bfly | .shfl =>
    c.dstN c.n (match c.sourceLane i t with
      | none => own
      | some j => match r.at j with
        | some l => c.g.src l.t c.n c.e.op1
        | none => 0)
  | .vote =>
    match c.e.lo.toNat with
    | 0 => c.dstP 0 (r.part.any fun x => vote x.2.t)
    | 1 => c.dstP 0 (r.part.all fun x => vote x.2.t)
    | _ => c.dstN 1 (r.mask vote)
  | .rowred => c.dstN c.n (r.part.foldl (fun a x => c.combine a (c.g.src x.2.t c.n c.e.op1)) c.identity)
  | .elect => c.dstP 0 ((r.part.find? fun x => x.2.recv).map Prod.fst = some i)
  | _ => []

/-- The E8M0 scale of block j of a row (R316). -/
def blockScale (c : Cx) (r : RowLanes) (j : Nat) : Nat :=
  let mags := r.part.map fun x => (c.g.readV x.2.t (c.e.op1.index + j)).toNat % 2 ^ 31
  let m := (mags.filter fun x => x < 0x7F800000).foldl Nat.max 0
  let t : Int := match f32.decode m with
    | .fin _ a e => if a = 0 then 0 else (Nat.log2 a : Int) + e - c.slot.emax - c.slot.margin
    | _ => 0
  (min (max (t + 127) 0) 254).toNat

/-- The codes of a receiving lane of QBLK with their overflows (R316). -/
def blockCodes (c : Cx) (r : RowLanes) (t : Thread) : List (Nat × Bool) :=
  (List.range (c.e.lo.toNat + 1)).map fun j =>
    let x := f32.decode (c.g.readV t (c.e.op1.index + j)).toNat
    c.slot.encode (c.g.mode t c.rmCode j) (x.scale (127 - (blockScale c r j : Int)))

/-- What a receiving lane of QBLK writes: the codes, and the scales in e (R316). -/
def blockWrites (c : Cx) (r : RowLanes) (t : Thread) : List (Reg × Word) :=
  let k := c.e.lo.toNat + 1
  let scales := (List.range k).map (blockScale c r)
  c.dstN 1 (packCodes c.slot.container ((blockCodes c r t).map Prod.fst))
    ++ c.e.op2.writes ((k + 3) / 4) ((scales.zipIdx.map fun (x, j) => x * 2 ^ (8 * j)).sum)

/-- The sheaf that a thread stands in, with its place. -/
def Group.sheafOf (g : Group) (k : Key) : Option (Sheaf × Nat) := g.sheaves.zipIdx.find? fun x => x.1.members.contains k

/-- A thread is the lowest qualifying one of its sheaf, whose value an S destination takes (R19). -/
def Group.leads (g : Group) (e : Ext) (k : Key) : Bool :=
  match g.sheafOf k with
  | some (sh, _) => ((g.actives sh e).head?).map Thread.key = some k
  | none => false

/-- A row acts: the writes of its receiving lanes, an S destination once, by the lowest receiving lane that leads its sheaf
(R19, R126), their draws (R43), and under QBLK the RESCALE faults (R316). -/
def Cx.actLanes (c : Cx) (r : RowLanes) (g : Group) : Group × List (Key × Flt) :=
  let recv := r.part.filter fun x => x.2.recv
  let val (x : Nat × Lane) : List (Reg × Word) :=
    if c.o = .qblk then blockWrites c r x.2.t else collVal c r x.1 x.2.t
  let lead := (recv.find? fun x => g.leads c.e x.2.t.key).map fun x => x.2.t.key
  let ws := recv.map fun x => (x.2.t.key, (val x).filter fun w => match w.1 with
    | .s _ => lead = some x.2.t.key
    | _ => true)
  let g := g.apply ws
  if c.o = .qblk then
    let n := if c.rmCode = 5 then c.e.lo.toNat + 1 else 0
    let drew (t : Thread) : Thread := if recv.any (fun x => x.2.t.key = t.key) then t.drew n else t
    let ovf := recv.map fun x => (x.2.t.key, (blockCodes c r x.2.t).any Prod.snd)
    let bits := c.e.op2.toBits.toNat
    ({ g with threads := g.threads.map drew },
      if c.slot.ovft && ovf.any Prod.snd then
        ovf.map fun x => (x.1, { cls := 11, info := bits + if x.2 then 2 ^ 16 else 0 })
      else [])
  else (g, [])

/-- A live thread of a row that its collectives await (R124). -/
def Group.awaited (g : Group) (row : Nat) : List Thread :=
  g.threads.filter fun t => t.key.gl = 0 && t.key.t / 32 = row && t.place != .exited && t.place != .lent && !t.gleans

/-- The sheaf stands in the collective hold at a PC with a row still to act. -/
def Sheaf.waitsAt (sh : Sheaf) (pc : Addr) (row : Nat) : Bool :=
  match sh.hold with
  | .collective _ _ site rows => site.pc = pc && !rows.contains row
  | _ => false

/-- A thread has arrived at its row's collective at a PC (R124). -/
def Group.arrived (g : Group) (pc : Addr) (t : Thread) : Bool :=
  t.place = .sheaf && (match g.sheafOf t.key with
    | some (sh, _) => sh.waitsAt pc (t.key.t / 32)
    | none => false)

/-- The lanes of a row at a PC: the arrived threads; a masked one, or one whose guard is false, receives nothing. -/
def Group.rowLanes (g : Group) (pc : Addr) (row : Nat) (e : Ext) : RowLanes :=
  (List.range 32).map fun l =>
    (g.threads.find? fun t => t.key = { t := 32 * row + l, gl := 0 } && !t.gleans && g.arrived pc t).map fun t =>
      { t := t, recv := Ext.guards e t && (match g.sheafOf t.key with
        | some (sh, _) => !sh.masks t.key
        | none => false) }

/-- The instance of a row that may act: every awaited thread has arrived at its PC (R124, R152). -/
def Group.readyInst (g : Group) (row : Nat) : Option Inst :=
  g.insts.find? fun i => i.row = row && g.stop = .running && !(g.awaited row).isEmpty
    && (g.awaited row).all (g.arrived i.pc)

/-- The rows of the members of a sheaf that its collective awaits. -/
def Group.rowsOf (g : Group) (sh : Sheaf) : List Nat :=
  (((g.members sh).filter fun t => t.key.gl = 0 && !t.gleans).map fun t => t.key.t / 32).dedup

/-- The place of a sheaf in the collective hold whose rows have all acted. -/
def Group.finishedSheaf (g : Group) : Option Nat :=
  g.sheaves.findIdx? fun sh => match sh.hold with
    | .collective _ _ _ rows => (g.rowsOf sh).all rows.contains
    | _ => false

/-- The length in words of an extended-form instruction (R54). -/
def Ext.words (e : Ext) : Nat := if e.lit.isSome then 5 else 3

/-- The sheaf of a thread waits for a context, ahead of every bin (R147). -/
def State.standBack (s : State) (gi : Nat) (k : Key) : State :=
  let hold (sh : Sheaf) : Sheaf := if sh.members.contains k then { sh with hold := .back s.clock true none } else sh
  s.setGroup gi fun g => { g with sheaves := g.sheaves.map hold }

/-- Sheaves whose rows have all acted go on after their collective, in a context of their slot or, where none is free,
once one frees (R124, R147). -/
def State.finishSheaves : Nat → State → Nat → State
  | 0, s, _ => s
  | fuel + 1, s, gi =>
    match s.groups[gi]? with
    | none => s
    | some g =>
      match g.finishedSheaf with
      | none => s
      | some si =>
        match (g.sheaves[si]?).map Sheaf.hold with
        | some (.collective o e site _) =>
          match s.cxAt gi si site.word (Ext.words e) o e with
          | some c =>
            let full : Bool := 32 ≤ s.contexts g.cl g.slot
            let s := s.advance c
            State.finishSheaves fuel (match full, c.sh.members with
              | true, k :: _ => s.standBack gi k
              | _, _ => s) gi
          | none => s
        | _ => s

/-- Every finished sheaf of a group goes on. -/
def State.finishAll (s : State) (gi : Nat) : State :=
  match s.groups[gi]? with
  | some g => s.finishSheaves (g.sheaves.length + 1) gi
  | none => s

/-- A row counts as having acted in every sheaf that waits at a PC. -/
def Sheaf.markRow (pc : Addr) (row : Nat) (sh : Sheaf) : Sheaf :=
  if sh.waitsAt pc row then
    match sh.hold with
    | .collective o e site rows => { sh with hold := .collective o e site (row :: rows) }
    | _ => sh
  else sh

/-- The collective hold of a row at a PC: the place of a sheaf in it, its operation and fields. -/
def Group.holdAt (g : Group) (pc : Addr) (row : Nat) : Option (Nat × Op × Ext × Site) :=
  g.sheaves.zipIdx.findSome? fun (sh, si) =>
    if sh.waitsAt pc row && (g.rowsOf sh).contains row then
      match sh.hold with
      | .collective o e site _ => some (si, o, e, site)
      | _ => none
    else none

/-- ROW_COLLECTIVE_ACT (R124): the row acts for all its arrived threads, and finished sheaves go on. -/
def evRowCollectiveAct (gi row : Nat) (s : State) : State :=
  match s.groups[gi]? with
  | none => s
  | some g =>
    match g.readyInst row with
    | none => s
    | some inst =>
      match g.holdAt inst.pc row with
      | none => s
      | some (si, o, e, site) =>
        match s.cxAt gi si site.word (Ext.words e) o e with
        | none => s
        | some c =>
          let (g', fs) := c.actLanes (g.rowLanes inst.pc row e) g
          let left := g'.insts.filter fun i => i != inst
          let s := s.setGroup gi fun _ =>
            { g' with sheaves := g'.sheaves.map (Sheaf.markRow inst.pc row), insts := left }
          (s.takeAll gi site c.sh.hdr fs).finishAll gi

/-- ROW_STALL (R152): at the timeout every arrived thread whose guard is true faults with the mask of the missing lanes;
the other arrived threads rerun their clause. -/
def evRowStall (gi row : Nat) (s : State) : State :=
  match s.groups[gi]? with
  | none => s
  | some g =>
    match g.insts.find? fun i => i.row = row && i.since + 2 ^ g.launch.cexp ≤ s.clock && !g.instStopped s.ms.walks i with
    | none => s
    | some inst =>
      let missing := (g.awaited row).filter fun t => !g.arrived inst.pc t
      match g.holdAt inst.pc row with
      | none => s
      | some (si, _, e, site) =>
        if missing.isEmpty then s
        else
          let mask := (missing.map fun t => 2 ^ (t.key.t % 32)).sum
          let parts := (g.rowLanes inst.pc row e).part
          let hdr := ((g.sheaves[si]?).map Sheaf.hdr).getD { wait := 0, set1 := 15, set2 := 15, count := 0 }
          let back := (parts.filter fun x => !x.2.recv).map fun x => x.2.t.key
          let s := s.setGroup gi fun g =>
            back.foldl (fun g k => g.file s.clock k site.hdr) { g with insts := g.insts.filter fun i => i != inst }
          (s.takeAll gi site hdr ((parts.filter fun x => x.2.recv).map fun x =>
            (x.2.t.key, { cls := 12, info := mask }))).finishAll gi

/-- The arrival of a sheaf at a collective (R124): its glean participants act at once, each as lane 0 of a row of its
own; the sheaf enters the collective hold with its other threads, and each of their rows' instances begins. -/
def rowBody (c : Cx) (s : State) : Act :=
  let solo := c.act.filter Thread.gleans
  let alone (x : Group × List (Key × Flt)) (t : Thread) : Group × List (Key × Flt) :=
    let (g, fs) := c.actLanes (some { t := t, recv := true } :: List.replicate 31 none) x.1
    (g, x.2 ++ fs)
  let (g, fs) := solo.foldl alone (c.g, [])
  let rows := c.g.rowsOf c.sh
  if rows.isEmpty then (if fs.isEmpty then .done (s.setGroup c.gi fun _ => g) else .after (s.setGroup c.gi fun _ => g) fs)
  else
    let new := (rows.filter fun r => !g.insts.any fun i => i.row = r && i.pc = c.site.pc).map fun r =>
      { row := r, pc := c.site.pc, since := s.clock }
    let s := (s.setGroup c.gi fun _ => { g with insts := g.insts ++ new }).countIssue c
    let s := s.setSheaf c.gi c.si fun sh => { sh with hold := .collective c.o c.e c.site [] }
    .stay ((s.takeAll c.gi c.site c.sh.hdr fs).mark c)

/-- MATCH (R126). -/
def execRowMatch (e : Ext) (s : State) : Host.Outcome State Fault Refusal := issueE .rowMatch e s rowBody
/-- BFLY (R127). -/
def execBfly (e : Ext) (s : State) : Host.Outcome State Fault Refusal := issueE .bfly e s rowBody
/-- SHFL (R127). -/
def execShfl (e : Ext) (s : State) : Host.Outcome State Fault Refusal := issueE .shfl e s rowBody
/-- VOTE (R128). -/
def execVote (e : Ext) (s : State) : Host.Outcome State Fault Refusal := issueE .vote e s rowBody
/-- ROWRED (R129). -/
def execRowred (e : Ext) (s : State) : Host.Outcome State Fault Refusal := issueE .rowred e s rowBody
/-- ELECT (R130). -/
def execElect (e : Ext) (s : State) : Host.Outcome State Fault Refusal := issueE .elect e s rowBody
/-- QBLK (R316). -/
def execQblk (e : Ext) (s : State) : Host.Outcome State Fault Refusal := issueE .qblk e s rowBody
/-- ROW_COLLECTIVE_ACT (R124). -/
def execRowCollectiveAct (g row : Nat) (s : State) : Host.Outcome State Fault Refusal := .next (evRowCollectiveAct g row s)
/-- ROW_STALL (R152). -/
def execRowStall (g row : Nat) (s : State) : Host.Outcome State Fault Refusal := .next (evRowStall g row s)

end Sys2Proof.Machine
end

