-- ==== Sys2Proof/Machine/Sched.lean ====
section
/-! DEFINITION. Drawing sheaves (R144 to R147), the arrival of results (R22 to R25, R119), YIELD's delay (R118) and the
timeout of pins (R186). -/

namespace Sys2Proof.Machine

/-! ### Results -/

/-- An outstanding result is written with its marks and its flag falls; for a thread that has exited it is discarded,
an S register among its destinations included (R22 to R25, R119; log 86). -/
def Group.deliver (g : Group) (o : Out) : Group :=
  match g.find o.key with
  | none => g
  | some t =>
    if t.place = .exited then g
    else
      let g := o.regs.foldl (fun g x => g.putMarked o.key x.1 x.2.1 x.2.2) g
      match o.flag with
      | some f => g.modify o.key fun t => t.lower f
      | none => g

/-- The i-th outstanding result of a group arrives, where it is ready and of the kind asked for. -/
def State.arriveOut (s : State) (gi i : Nat) (flagged : Bool) : State :=
  match s.groups[gi]? with
  | none => s
  | some g =>
    match g.outs[i]? with
    | none => s
    | some o =>
      if !o.ready || o.flag.isSome != flagged then s
      else s.setGroup gi fun g => { g with outs := g.outs.eraseIdx i }.deliver o

/-- FLAG_COMPLETION (R22, R23): every register of the result changes here, and a read before finds the old values
(log 101). -/
def evFlagCompletion (gi i : Nat) (s : State) : State := s.arriveOut gi i true
/-- SCOREBOARD_RESULT (R24). -/
def evScoreboardResult (gi i : Nat) (s : State) : State := s.arriveOut gi i false

/-! ### Drawing -/

/-- The eligible threads of a bin with their filing times (R144). -/
def Group.binThreads (g : Group) (clock : Nat) (pc : Addr) : List (Thread × Nat) :=
  g.threads.filterMap fun t => match t.place with
    | .bin f => if t.pc = pc ∧ f ≤ clock ∧ g.mayIssue t then some (t, f) else none
    | _ => none

/-- What may take a context of a slot: a qualifying bin of a group at a PC, or a sheaf of it whose page has been replayed,
by a thread of it; with the filing time of its oldest thread, the group index and the lowest TIDX (R144, R145). -/
structure Draw where
  gi : Nat
  pc : Addr
  back : Option Key
  oldest : Nat
  gidx : Nat
  low : Nat
  deriving DecidableEq, Repr

/-- The smallest of a list of numbers; 0 of none. -/
def least : List Nat → Nat
  | [] => 0
  | x :: xs => xs.foldl Nat.min x

/-- The bins of a group that qualify (R145). -/
def Group.binDraws (g : Group) (clock gi : Nat) : List Draw :=
  (g.binPcs.filter (g.qualifies clock)).map fun pc =>
    let ts := g.binThreads clock pc
    { gi := gi, pc := pc, back := none, oldest := least (ts.map Prod.snd), gidx := g.gidx
      low := least (ts.map fun x => x.1.key.t) }

/-- The sheaves of a group that have come back from a page's replay (R144). Such a sheaf returns whole, and takes a context in the
order of filing times among the bins that qualify without itself being full, aged or complete: the model's choice (log 125). -/
def Group.backDraws (g : Group) (gi : Nat) : List Draw :=
  g.sheaves.filterMap fun sh => match sh.hold, sh.members with
    | .back since false _, k :: _ =>
      if (g.members sh).isEmpty then none else some { gi := gi, pc := sh.pc, back := some k, oldest := since, gidx := g.gidx, low := least (sh.members.map Key.t) }
    | _, _ => none

/-- What may take a context of a slot (R144, R145). -/
def State.draws (s : State) (cl slot : Nat) : List Draw :=
  (s.groups.zipIdx.filter fun x => x.1.cl = cl && x.1.slot = slot).flatMap fun (g, gi) =>
    g.binDraws s.clock gi ++ g.backDraws gi

/-- The order of R145 among them. -/
def Draw.before (a b : Draw) : Bool :=
  a.oldest < b.oldest || (a.oldest = b.oldest && (a.gidx < b.gidx || (a.gidx = b.gidx && a.low < b.low)))

/-- The one that goes first (R145). -/
def firstDraw : List Draw → Option Draw
  | [] => none
  | d :: ds => some (ds.foldl (fun a b => if b.before a then b else a) d)

/-- The threads of a new sheaf (R146): from the row of the oldest thread on, wrapping, in order within a row. -/
def Group.compose (g : Group) (clock : Nat) (pc : Addr) : List Key :=
  let ts := g.binThreads clock pc
  let oldest := least (ts.map Prod.snd)
  let r0 := least ((ts.filter fun x => x.2 = oldest).map fun x => x.1.key.t / 32)
  let all := sortKey (ts.map Prod.fst)
  (all.filter (fun t => r0 ≤ t.key.t / 32) ++ all.filter (fun t => t.key.t / 32 < r0)).take 32 |>.map Thread.key

/-- A sheaf as it is drawn. -/
def newSheaf (members : List Key) (pc : Addr) (clock : Nat) : Sheaf :=
  { members := members, pc := pc, inClause := false, hdr := { wait := 0, set1 := 15, set2 := 15, count := 0 }, hdrPc := pc
    idx := 0, regions := [], drawn := clock, last := clock, hold := .free, code := [], acted := [] }

/-- A sheaf that has a context again (R147): it goes on, or raises the answer FAIL that it has had (R367). -/
def Sheaf.resume (sh : Sheaf) : Sheaf :=
  match sh.hold with
  | .back _ _ fail => { sh with hold := match fail with
    | some x => .failed x.1 x.2
    | none => .free }
  | _ => sh

/-- The sheaf of a thread has a context again. -/
def State.resumeSheaf (s : State) (gi : Nat) (k : Key) : State :=
  s.setGroup gi fun g =>
    { g with sheaves := g.sheaves.map fun sh => if sh.members.contains k then sh.resume else sh }

/-- A sheaf of a slot that waits for the first context that frees, by the clock since which it waits (R147). -/
def State.firstAhead (s : State) (cl slot : Nat) : Option (Nat × Nat × Key) :=
  let xs := (s.groups.zipIdx.filter fun x => x.1.cl = cl && x.1.slot = slot && x.1.stop = .running).flatMap fun (g, gi) =>
    g.sheaves.filterMap fun sh => match sh.hold, sh.members with
      | .back since true _, k :: _ => some (since, gi, k)
      | _, _ => none
  xs.foldl (fun a x => match a with
    | some y => if x.1 < y.1 then some x else a
    | none => some x) none

/-- A new sheaf is drawn from a bin of a group (R146, R395 event 3). -/
def State.drawBin (s : State) (d : Draw) : State :=
  match s.groups[d.gi]? with
  | none => s
  | some g =>
    let ks := g.compose s.clock d.pc
    let take (t : Thread) : Thread := if ks.contains t.key then { t with place := .sheaf } else t
    (s.setGroup d.gi fun g => { g with
      threads := g.threads.map take
      aged := g.aged.filter fun p => p.1 != d.pc
      sheaves := g.sheaves ++ [newSheaf ks d.pc s.clock] }).count g.cl 3 1

/-- SHEAF_DRAW (R145 to R147): a free context of a slot goes to a sheaf that waits ahead of every bin, or else to the first
qualifying bin or replayed sheaf; a context that a sheaf ready at a ring will take stays free for it (R225). -/
def evSheafDraw (cl slot : Nat) (s : State) : State :=
  if 32 ≤ s.contexts cl slot then s
  else
    match s.firstAhead cl slot with
    | some (_, gi, k) => s.resumeSheaf gi k
    | none =>
      if 32 ≤ s.contexts cl slot + s.aheads cl slot then s
      else
        match firstDraw (s.draws cl slot) with
        | none => s
        | some d =>
          match d.back with
          | some k => s.resumeSheaf d.gi k
          | none => s.drawBin d

/-- BIN_AGE_EXPIRY (R145): the oldest eligible thread of a bin was filed 16 clocks ago; no YIELD delays the bin (R118). The
mark holds for threads filed by then. -/
def evBinAgeExpiry (gi : Nat) (pc : Addr) (s : State) : State :=
  match s.groups[gi]? with
  | none => s
  | some g =>
    let old := (g.binThreads s.clock pc).map Prod.snd |>.filter fun f => f + 16 ≤ s.clock
    if g.delayed pc || old.all fun f => g.aged.any fun x => x.1 = pc && f ≤ x.2 then s
    else s.setGroup gi fun g => { g with aged := (pc, old.foldl Nat.max 0) :: g.aged.filter fun x => x.1 != pc }

/-- YIELD_DELAY_EXPIRY (R118): the delay has passed, and the bin's threads count as filed now. -/
def evYieldDelayExpiry (gi : Nat) (pc : Addr) (s : State) : State :=
  match s.groups[gi]? with
  | none => s
  | some g =>
    let late (t : Thread) : Bool := match t.place with
      | .held .delay _ since _ => t.pc != pc || since + 32 ≤ s.clock
      | _ => true
    if g.delayed pc && g.threads.all late then
      let file (t : Thread) : Thread := match t.place with
        | .held .delay _ _ _ => if t.pc = pc then { t with place := .bin s.clock } else t
        | .bin _ => if t.pc = pc then { t with place := .bin s.clock } else t
        | _ => t
      s.setGroup gi fun g => { g with threads := g.threads.map file, aged := g.aged.filter fun x => x.1 != pc }
    else s

/-- PIN_TIMEOUT (R186): a pin ends 65,536 clocks after it was taken. -/
def evPinTimeout (line : Nat) (s : State) : State :=
  s.endPins fun p => p.line = line && p.taken + 65536 ≤ s.clock

/-- FLAG_COMPLETION (R22). -/
def execFlagCompletion (g i : Nat) (s : State) : Host.Outcome State Fault Refusal := .next (evFlagCompletion g i s)
/-- SCOREBOARD_RESULT (R24). -/
def execScoreboardResult (g i : Nat) (s : State) : Host.Outcome State Fault Refusal := .next (evScoreboardResult g i s)
/-- SHEAF_DRAW (R145). -/
def execSheafDraw (cl slot : Nat) (s : State) : Host.Outcome State Fault Refusal := .next (evSheafDraw cl slot s)
/-- BIN_AGE_EXPIRY (R145). -/
def execBinAgeExpiry (g : Nat) (pc : Addr) (s : State) : Host.Outcome State Fault Refusal := .next (evBinAgeExpiry g pc s)
/-- YIELD_DELAY_EXPIRY (R118). -/
def execYieldDelayExpiry (g : Nat) (pc : Addr) (s : State) : Host.Outcome State Fault Refusal :=
  .next (evYieldDelayExpiry g pc s)
/-- PIN_TIMEOUT (R186). -/
def execPinTimeout (line : Nat) (s : State) : Host.Outcome State Fault Refusal := .next (evPinTimeout line s)

end Sys2Proof.Machine
end

