-- ==== Sys2Proof/Machine/Save.lean ====
section
/-! DEFINITION. Pre-emption, the save frame, restoring (R318 to R327), world switch and split counter reads (R328 to
R330), and stops for debugging (R401). -/

namespace Sys2Proof.Machine

/-! ### Halting -/

/-- A participant is put under release at a clock (R257, R318). -/
def Thread.underRelease (clock : Nat) (t : Thread) : Thread :=
  match t.part with
  | some p => if p.release.isSome then t else { t with part := some { p with release := some (0, clock) } }
  | none => t

/-- WAITA's threads resume at a halt (R318). -/
def Thread.endWaita (clock : Nat) (t : Thread) : Thread :=
  match t.place with
  | .held (.waita _ _ _ _ _ _ _) site _ _ => { t with place := .bin clock, pc := site.next }
  | _ => t

/-- The helpers of other groups that stand in slots of a group: place of their group, and key (R249, R318). -/
def State.guests (s : State) (uid : Nat) : List (Nat × Key) :=
  s.groups.zipIdx.flatMap fun (g, gi) => g.gleans.flatMap fun gl =>
    (gl.lent.filter fun x => x.2.1 = uid && g.uid != uid).map fun x => (gi, { t := gl.recr, gl := x.1 })

/-- A sheaf that holds participants beside other threads goes on for the participants alone: the others stand where they are, in
a sheaf of their own (R318). -/
def Group.partSheaf (g : Group) (sh : Sheaf) : List Sheaf :=
  let takesPart (k : Key) : Bool := (g.find k).any fun t => t.part.isSome
  let only (p : Key → Bool) : Sheaf :=
    let region (r : Region) : Region := { r with taking := r.taking.filter p, cont := r.cont.filter p }
    { sh with members := sh.members.filter p, acted := sh.acted.filter p, regions := sh.regions.map region }
  if sh.members.any takesPart && !sh.members.all takesPart then [only takesPart, only fun k => !takesPart k] else [sh]

/-- A group halts: it takes a stop, its participants and the helpers in its slots go under release, its WAITA threads resume, and
its other threads stand apart from the participants (R318). -/
def State.haltWith (s : State) (gi : Nat) (stop : Stop) : State :=
  match s.groups[gi]? with
  | none => s
  | some g =>
    let s := (s.guests g.uid).foldl (fun s x => s.setGroup x.1 fun g => g.modify x.2 (Thread.underRelease s.clock)) s
    s.setGroup gi fun g =>
      { g with stop := stop, threads := g.threads.map (fun t => (t.underRelease s.clock).endWaita s.clock)
               sheaves := g.sheaves.flatMap g.partSheaf }

/-- A participant of the group has not come to rest: a recruiter under release, or a helper (R257, R258). -/
def Group.participates (g : Group) : Bool := g.threads.any fun t => t.key.gl != 0 || (t.part.bind GPart.release).isSome

/-- A helper of another group in a slot of the group is still under release (R318). -/
def State.hosts (s : State) (g : Group) : Bool :=
  (s.guests g.uid).any fun x => match (s.groups[x.1]?).bind fun h => h.find x.2 with
    | some t => (t.part.bind GPart.release).isSome
    | none => false

/-- The helpers of the group and those in its slots are abandoned, and its recruiters: at the halt deadline, or where all
participants have come to rest (R257, R258, R318). -/
def State.restGleans (s : State) (gi : Nat) : State :=
  match s.groups[gi]? with
  | none => s
  | some g =>
    let s := (s.guests g.uid).foldl (fun s x => s.abandon x.1 x.2) s
    (g.threads.filter fun t => t.part.isSome).foldl (fun s t => s.abandon gi t.key) s

/-- The threads of a halting group have all halted: none of its participants nor of the helpers in its slots runs any more, or
the deadline has come, at which they are abandoned (R257, R258, R318). -/
def State.allHalted (s : State) (g : Group) : Bool := g.stop.overdue s.clock || !(g.participates || s.hosts g)

/-- A list of bytes made n long with zeros. -/
def padTo (n : Nat) (l : List Byte) : List Byte := l.take n ++ List.replicate (n - l.length) 0

/-- The header of a frame (R322): whether COMPLETE is set, the cluster and the time at the halt, and the results still to
arrive. -/
def frameHeader (g : Group) (ns waits : Nat) (complete : Bool) : List Byte :=
  padTo 4096 (natBytes 4 1 ++ natBytes 4 g.gidx ++ natBytes 4 (2 + if complete then 1 else 0)
    ++ natBytes 4 (clid g.cl) ++ natBytes 8 ns ++ natBytes 4 waits ++ natBytes 4 (g.launch.frame / 4096))

/-- The address of a group's frame (R321). -/
def Task.frameAt (t : Task) (gidx : Nat) : Nat :=
  t.save + t.launch.frame * (gidx % Nat.min (t.gx * t.gy * t.gz) 256)

/-- The halt of a group is complete: its participants are at rest, its frame takes its header, VALID with the time, and COMPLETE
clear (R318, R322). -/
def State.settleHalt (s : State) (gi : Nat) : State :=
  match s.groups[gi]? with
  | none => s
  | some g =>
    match g.stop with
    | .halting since none =>
      if !s.allHalted g then s
      else
        let s := (s.restGleans gi).setGroup gi fun g => { g with stop := .halting since (some s.ns) }
        match s.taskOf g.task with
        | some t => s.devWrite g.vf (t.frameAt g.gidx) (frameHeader g s.ns 0 false)
        | none => s
    | _ => s

/-- Every halt that is complete (R318, R322). -/
def State.settleHalts (s : State) : State :=
  s.groups.zipIdx.foldl (fun s x => match x.1.stop with
    | .halting _ none => s.settleHalt x.2
    | _ => s) s

/-- A pre-emption request names a group (R318). -/
def State.haltGroup (s : State) (gi : Nat) : State :=
  match (s.groups[gi]?).map Group.stop with
  | some (.halting _ _) => s
  | some _ => (s.haltWith gi (.halting s.clock none)).settleHalt gi
  | none => s

/-- Every running group that a test picks is pre-empted. -/
def State.haltAll (s : State) (p : Group → Bool) : State :=
  (s.groups.zipIdx.filter fun x => p x.1).foldl (fun s x => s.haltGroup x.2) s

/-- A part of a copy has come to rest (R319, R340). -/
def CPart.rests (gang : Bool) (p : CPart) : Bool :=
  p.status.isSome || !p.started || p.wait.isSome || gang || p.unit % 32 = 0

/-- The engine work of a halting group is at rest (R319): no matrix command, every copy ended or stopped at a
boundary, and no request of it under way except for a result. -/
def State.engineRest (s : State) (g : Group) : Bool :=
  let mine := s.copies.filter fun k => k.group = some g.uid
  !((s.fill ++ s.compute).any fun k => k.group = g.uid)
    && mine.all (fun k => k.parts.all (CPart.rests (s.gangStopped g.task)))
    && !(s.fab.reqs.any fun r => r.group = g.uid && (r.out = 0 || mine.any fun k => k.id = r.copy))

/-! ### The save frame -/

/-- A number with the listed bits set. -/
def bitsOf (l : List Nat) : Nat := (l.dedup.map fun i => 2 ^ i).sum

/-- x rounded up to 4 KiB. -/
def pageUp (x : Nat) : Nat := (x + 4095) / 4096 * 4096

/-- Where the sections of R321 begin: V, scratchpad, tiles, weights. -/
def Launch.sections (l : Launch) : Nat × Nat × Nat × Nat :=
  let t := 32 * ((l.threads + 31) / 32)
  let v := pageUp (20480 + 512 * t)
  let sp := pageUp (v + 4 * t * l.nv)
  let ti := pageUp (sp + (l.scratch + 2 * l.exch) * 33 / 32)
  (v, sp, ti, pageUp (ti + 16704 * l.ntiles))

/-- Outstanding results that the frame still waits for: not the tokens of stopped copies (R319, R320). -/
def Saved.waits (x : Saved) : List Out := x.group.outs.filter fun o => !x.copies.any fun k => k.id = o.tag

/-- The header of a frame (R322). -/
def Saved.header (x : Saved) : List Byte := frameHeader x.group x.ns x.waits.length x.complete

/-- A stream's 32 bytes: the affine indices, or the pointers and each tile's state and error bit (R323, R324). -/
def Stream.frame (x : Stream) : List Byte :=
  let code (y : TileState × Bool) : Nat := (match y.1 with
    | .free => 0
    | .reserved => 1
    | .pushed _ => 1
    | .filled => 2
    | .popped => 3
    | .advanced _ => 3) + if y.2 then 4 else 0
  padTo 32 (if x.tiles.isEmpty then x.idx.flatMap (natBytes 4)
    else natBytes 1 x.r ++ natBytes 1 x.p ++ natBytes 1 x.a
      ++ natBytes 29 ((x.tiles.zipIdx.map fun (y, i) => code y * 8 ^ i).sum))

/-- The number of a register in a stopped copy's record: V from 1, S from 257, P from 769; 0 for none (log 14). -/
def Reg.code : Reg → Nat
  | .v i => 1 + i
  | .s i => 257 + i
  | .p i => 769 + i

/-- A stopped copy's 64 bytes, one for each of its parts, with the register and the flag of its token (R319; log 14). -/
def Copy.frame (g : Group) (k : Copy) : List (List Byte) :=
  let out := g.outs.find? fun o => o.tag = k.id
  let reg := ((out.bind fun o => o.regs.head?).map fun x => x.1.code).getD 0
  let flag := ((out.bind Out.flag).map (· + 1)).getD 0
  k.parts.map fun p =>
    padTo 64 (natBytes 1 k.tindex ++ natBytes 1 k.slack ++ natBytes 1 ((k.bar.map (· + 1)).getD 0)
      ++ natBytes 1 ((p.status.map (· + 1)).getD 0) ++ natBytes 4 p.gidx ++ natBytes 8 k.src ++ natBytes 8 k.dst
      ++ natBytes 4 p.unit ++ natBytes 4 k.key.t ++ natBytes 4 ((p.tile.map (· + 1)).getD 0) ++ natBytes 4 k.id
      ++ natBytes 2 reg ++ natBytes 1 flag)

/-- A barrier's 16 bytes: arrivals and expected count of 16 bits, phase number of 32, pending bytes of 56 (R206, R323; log
14). -/
def Bar.frame (b : Bar) : List Byte := natBytes 2 b.arrivals ++ natBytes 2 b.c ++ natBytes 4 b.phase ++ natBytes 8 b.pending

/-- The group section (R323). -/
def Saved.groupSection (x : Saved) : List Byte :=
  let g := x.group
  let regS (r : Reg) : Option Nat := match r with
    | .s i => some i
    | _ => none
  let pend := bitsOf ((g.outs.flatMap fun o => o.regs.map Prod.fst).filterMap regS)
  let kinds := (g.marksS.filter fun m => m.2 = .ecc).map Prod.fst
  padTo 2048 (g.s.flatMap fun w => natBytes 4 w.toNat)
    ++ natBytes 64 pend ++ natBytes 64 (bitsOf (g.marksS.map Prod.fst)) ++ natBytes 64 (bitsOf kinds)
    ++ padTo 512 (g.streams.flatMap Stream.frame) ++ padTo 1536 (g.bars.flatMap Bar.frame) ++ natBytes 8 g.handler.toNat
    ++ List.replicate 3896 0 ++ padTo 4096 ((x.copies.flatMap (Copy.frame g)).take 64).flatten ++ List.replicate 4096 0

/-- STATE of a thread record: the state, the hold's cause and its operand; with HOLDARG (R324). -/
def Group.threadState (g : Group) (t : Thread) : Nat × Nat :=
  let held (cause operand arg : Nat) : Nat × Nat := (1 + 8 * cause + 256 * operand, arg)
  match t.place with
  | .bin _ => (0, 0)
  | .held (.ldf off n _ _) _ _ _ => held 1 n off
  | .held (.ste off d) _ _ _ => held 2 d.length off
  | .held (.waita va _ _ n _ _ _) _ _ _ => held 3 n va
  | .held (.barrier b) _ _ _ => held 4 b b
  | .held .delay _ _ _ => held 5 0 0
  | .held .glend _ _ _ => held 6 0 0
  | .sheaf => (match g.sheafOf t.key with
    | some (sh, _) => (match sh.hold with
      | .collective _ _ _ _ => (3, 0)
      | .page va _ _ _ _ => held 7 0 va
      | .stream q _ _ _ => held 8 q q
      | _ => (2, 0))
    | none => (0, 0))
  | .stopped _ _ mid => (if mid then 2 else 0, 0)
  | .exited => (4, 0)
  | .lent => (5, 0)

/-- The glean part of a thread record (R324). -/
def Group.gleanFrame (g : Group) (t : Thread) : List Byte :=
  let x : Option (Glean × GPart) := match t.solo, t.part with
    | some y, _ => some y
    | none, some p => if t.key.gl = 0 then (g.glean p.glean).map fun gl => (gl, p) else none
    | none, none => none
  match x with
  | none => List.replicate 224 0
  | some (gl, p) =>
    padTo 224 (natBytes 4 gl.count ++ natBytes 4 gl.next ++ natBytes 2 gl.k ++ natBytes 2 gl.sr ++ natBytes 2 gl.r
      ++ natBytes 1 (if gl.solo then 1 else 0) ++ natBytes 1 (if gl.rejoined then 1 else 0)
      ++ natBytes 4 ((p.cur.map (· + 1)).getD 0) ++ natBytes 8 gl.body.toNat ++ natBytes 4 gl.d.toNat
      ++ padTo 16 (gl.acc.flatMap fun w => natBytes 4 w.toNat)
      ++ padTo 16 (p.staged.flatMap fun w => natBytes 4 ((w.map BitVec.toNat).getD 0))
      ++ natBytes 4 gl.returned.length ++ gl.returned.flatMap (natBytes 4))

/-- The ticket byte of a barrier: the ticket less the phase, saturating; −128 for none (R324). -/
def Group.ticketByte (g : Group) (t : Thread) (b : Nat) : Byte :=
  match t.tickets.lookup b with
  | none => 128
  | some x => BitVec.ofInt 8 (max (-127) (min 127 ((x : Int) - (g.bar b).phase)))

/-- A thread record (R324); clocks of a saved group are counts of elapsed clocks. -/
def Group.threadRecord (g : Group) (t : Thread) : List Byte :=
  let sh := g.sheafOf t.key
  let st := g.threadState t
  let rejoin : Bool := t.key.gl = 0 && t.part.isSome
  let pend := (g.outs.filter fun o => o.key = t.key).flatMap fun o => o.regs.filterMap fun x => match x.1 with
    | .v i => some i
    | _ => none
  let elapsed := match t.place with
    | .held (.ldf _ _ _ _) _ since _ => since
    | .held (.ste _ _) _ since _ => since
    | .sheaf => (match (g.insts.find? fun i => i.row = t.key.t / 32 && some i.pc = sh.map fun x => x.1.pc) with
      | some i => if st.1 = 3 then i.since else 0
      | none => 0)
    | _ => 0
  let pc : Addr := match sh with
    | some (x, _) => if t.place = .sheaf then x.pc else t.pc
    | none => t.pc
  let flags := (t.flags.zipIdx.map fun (n, i) => n % 16 * 16 ^ i).sum + if rejoin then 2 ^ 48 else 0
  let ecc := (t.marks.filter fun m => m.2 = .ecc).map Prod.fst
  natBytes 8 pc.toNat ++ natBytes 4 st.1 ++ natBytes 4 t.draws.toNat ++ natBytes 8 st.2 ++ natBytes 8 elapsed
    ++ natBytes 8 flags ++ natBytes 1 (t.p.toNat % 128) ++ natBytes 1 ((sh.map fun x => x.1.idx).getD 0)
    ++ natBytes 2 ((sh.map Prod.snd).getD 0) ++ List.replicate 4 0
    ++ natBytes 32 (bitsOf pend) ++ natBytes 32 (bitsOf (t.marks.map Prod.fst)) ++ natBytes 32 (bitsOf ecc)
    ++ padTo 112 ((List.range 96).map (g.ticketByte t)) ++ g.gleanFrame t ++ List.replicate 32 0

/-- The slots of a group in TIDX order; its helpers are gone when it is saved. -/
def Group.slots (g : Group) : List Thread := sortKey (g.threads.filter fun t => t.key.gl = 0)

/-- The scratchpad section: the bytes, then the full/empty bits (R321). -/
def Group.spSection (g : Group) : List Byte :=
  let n := g.launch.scratch + 2 * g.launch.exch
  Memory.readN g.scratch 0 n ++ (List.range (n / 32)).map fun i =>
    BitVec.ofNat 8 (bitsOf ((List.range 8).filter fun b => g.fe.contains (8 * i + b)))

/-- The code of a special state (R321). -/
def Special.code : Special → Nat
  | .none => 0
  | .pinf => 1
  | .ninf => 2
  | .nan => 3

/-- A tile's 16,704 bytes (R321). -/
def Tile.frame (t : Tile) : List Byte :=
  padTo 16384 (t.n.flatMap fun c => natBytes 16 c.toNat)
    ++ natBytes 256 ((t.sp.zipIdx.map fun (x, i) => x.code * 4 ^ i).sum)
    ++ padTo 64 (natBytes 2 (wrap 16 t.anchor) ++ natBytes 1 (if t.ov then 1 else 0)
      ++ natBytes 1 ((t.mark.map MxMark.cls).getD 0))

/-- A weight slot's 32,832 bytes (R321). -/
def Weight.frame (w : Weight) : List Byte :=
  padTo 32768 w.data ++ padTo 64 (natBytes 1 (if w.sp24 then 1 else 0) ++ natBytes 1 w.c ++ natBytes 2 w.p
    ++ natBytes 1 (if w.scratch then 1 else 0) ++ natBytes 1 ((w.mark.map MxMark.cls).getD 0) ++ natBytes 2 0
    ++ natBytes 8 w.src)

/-- A frame is written, its sections in order and the header last (R325). -/
def State.writeFrame (s : State) (t : Task) (x : Saved) : State :=
  let g := x.group
  let a := t.frameAt g.gidx
  let at_ := g.launch.sections
  let s := s.devWrite g.vf (a + 4096) x.groupSection
  let s := s.devWrite g.vf (a + 20480) (g.slots.flatMap g.threadRecord)
  let s := s.devWrite g.vf (a + at_.1) (g.slots.flatMap fun t => padTo (4 * g.launch.nv) (t.v.flatMap fun w => natBytes 4 w.toNat))
  let s := s.devWrite g.vf (a + at_.2.1) g.spSection
  let s := s.devWrite g.vf (a + at_.2.2.1) (g.tiles.flatMap Tile.frame)
  let s := s.devWrite g.vf (a + at_.2.2.2) (g.weights.flatMap Weight.frame)
  s.devWrite g.vf a x.header

/-! ### Saving -/

/-- A task has groups that are neither placed nor finished (R271). -/
def Task.waits (t : Task) : Bool := t.cursor + t.finished.length + t.placed.length < t.gx * t.gy * t.gz

/-- A clock turned into a count of elapsed clocks, and back. -/
def Group.ages (clock : Nat) (g : Group) : Group :=
  let thread (t : Thread) : Thread := match t.place with
    | .held h site since order => { t with place := .held h site (clock - since) order }
    | _ => t
  let inst (i : Inst) : Inst := { i with since := clock - i.since }
  { g with threads := g.threads.map thread, insts := g.insts.map inst }

/-- A damaged register is saved as one with an ECC mark (R175, R324; log 94). -/
def Group.marksSaved (g : Group) : Group :=
  let m (x : Nat × MarkKind) : Nat × MarkKind := (x.1, if x.2 = .hurt then .ecc else x.2)
  { g with marksS := g.marksS.map m, threads := g.threads.map fun t => { t with marks := t.marks.map m } }

/-- Keys in lists of at most 32. -/
def chunks : Nat → List Key → List (List Key)
  | 0, _ => []
  | _, [] => []
  | n + 1, ks => ks.take 32 :: chunks n (ks.drop 32)

/-- FENCEs that wait on a stopped copy are taken back (R319): a sheaf that stands right after one, or threads in the bin after its
clause, stand at it again, and issue it again after the restore; where some of them have gone further, it stays pending (log 46). -/
def Group.unfence (clock : Nat) (stopped : List Nat) (g : Group) : Group :=
  let of (k : Key) : Option (Site × Header) :=
    (g.fences.filter fun f => f.key = k && f.ids.any stopped.contains).findSome? Fence.site
  let at_ (ks : List Key) (x : Site × Header) (sh : Sheaf) : Sheaf :=
    { sh with members := ks, pc := x.1.pc, inClause := true, hdr := x.2, hdrPc := x.1.hdr, idx := x.1.idx }
  let back (sh : Sheaf) : Option Sheaf :=
    (sh.members.head?.bind of).bind fun x =>
      let after : Bool := if sh.inClause then sh.hdrPc = x.1.hdr && sh.idx = x.1.idx + 1 else sh.regions.isEmpty && sh.pc = x.1.next
      if after && sh.hold = .free && sh.members.all fun k => of k = some x then some (at_ sh.members x sh) else none
  let binned (t : Thread) : Option (Site × Header) := match t.place with
    | .bin _ => (of t.key).filter fun x => x.1.next = t.pc
    | _ => none
  let sites := (g.threads.filterMap binned).eraseDups
  let new := sites.flatMap fun x =>
    (chunks 32 ((g.threads.filter fun t => binned t = some x).map Thread.key)).map fun ks => at_ ks x (newSheaf ks x.1.pc clock)
  let over_ := (g.sheaves.filterMap back).flatMap Sheaf.members ++ (g.threads.filter fun t => (binned t).isSome).map Thread.key
  { g with
    sheaves := g.sheaves.map (fun sh => (back sh).getD sh) ++ new
    threads := g.threads.map fun t => if (binned t).isSome then { t with place := .sheaf } else t
    fences := g.fences.filter fun f => !(over_.contains f.key && f.site.isSome && f.ids.any stopped.contains) }

/-- A sheaf that stands at a header outside every region is filed again, and one that waits for a context is mid-clause; one that
waits for a page stays held, and the restore reads the words of its clause again (R324, R326, R367). -/
def Group.foldSheaves (clock : Nat) (g : Group) : Group :=
  let idle (sh : Sheaf) : Bool := !sh.inClause && sh.regions.isEmpty
  let refile (sh : Sheaf) (g : Group) (k : Key) : Group :=
    let on : Bool := ((g.find k).map Thread.entered).getD false
    (g.file clock k sh.pc).modify k fun t => { t with entered := on }
  let g := (g.sheaves.filter idle).foldl (fun g sh => sh.members.foldl (refile sh) g) g
  let free (sh : Sheaf) : Sheaf := match sh.hold with
    | .back _ _ _ => sh.resume
    | _ => sh
  { g.sweepSheaves with sheaves := g.sweepSheaves.sheaves.map fun sh => { free sh with code := [] }, aged := [] }

/-- Each recruiter's PC becomes that of its GLEAN (R258). -/
def Group.recruitersBack (clock : Nat) (g : Group) : Group :=
  (g.gleans.foldl (fun g gl => g.file clock { t := gl.recr, gl := 0 } gl.site.pc) g).sweepSheaves

/-- A group can be saved: its halt is complete and its engine work at rest; a gang's group also waits for its window to close
(R318, R319, R341). -/
def State.saveable (s : State) (g : Group) : Bool :=
  match g.stop with
  | .halting _ (some _) =>
    s.engineRest g
      && (match s.taskOf g.task with
        | some t => !((s.vf t.vf).gangs.any fun e => e.task = t.idx && e.state = 4)
        | none => false)
  | _ => false

/-- The time of TAI at a group's halt (R322). -/
def State.haltTime (s : State) (g : Group) : Nat :=
  match g.stop with
  | .halting _ (some ns) => ns
  | _ => s.ns

/-- The saved form of a group with its stopped copies (R319, R322 to R324). -/
def State.savedForm (s : State) (g : Group) (ns : Nat) : Saved :=
  let rest (k : Copy) : Copy := { k with far := [], entered := s.clock - k.entered, parts := k.parts.map fun p => { p with wait := none, pin := none } }
  let copies := s.copies.filter fun k => k.group = some g.uid
  let g := (g.unfence s.clock (copies.map Copy.id)).recruitersBack s.clock
  let x : Saved :=
    { group := ((g.foldSheaves s.clock).ages s.clock).marksSaved, copies := copies.map rest, ns := ns, complete := false }
  { x with complete := x.waits.isEmpty }

/-- SAVE_FRAME (R319 to R325): the group's pins end, and once what they wrote home has performed, its sections and stopped
copies are written, its cluster's resources are released, and it returns to the unplaced groups of its task (R273), whose
aging counts from now on where it had none (R271). -/
def evSaveFrame (gi : Nat) (s : State) : State :=
  match s.groups[gi]? with
  | none => s
  | some g =>
    if !s.saveable g then s
    else
      let ns := s.haltTime g
      let s := (s.unpin g.uid).dropFills g.uid
      match s.groups[gi]?, s.taskOf g.task with
      | some g, some task =>
        if !s.engineRest g then s
        else
          let x := s.savedForm g ns
          let s := { s with
            groups := s.groups.eraseIdx gi
            copies := s.copies.filter fun k => k.group != some g.uid }
          let s := s.setTask task.uid fun t => { t with
            saved := t.saved ++ [x]
            placed := t.placed.filter fun i => i != g.gidx
            agedAt := if t.waits then t.agedAt else s.clock }
          s.writeFrame task x
      | _, _ => s

/-- RESULT_DELIVERY (R320): a result that has arrived is written into the j-th saved frame of the i-th task; with none
left COMPLETE is set. -/
def evResultDelivery (i j : Nat) (s : State) : State :=
  match s.tasks[i]? with
  | none => s
  | some task =>
    match task.saved[j]? with
    | none => s
    | some x =>
      match x.waits.find? Out.ready with
      | none => s
      | some o =>
        let g := { x.group with outs := x.group.outs.erase o }.deliver o
        let y : Saved := { x with group := g }
        let y := { y with complete := y.waits.isEmpty }
        (s.setTask task.uid fun t => { t with saved := t.saved.set j y }).writeFrame task y

/-! ### Restoring -/

/-- A field of a frame read back: a value from before where the frame still holds what was saved for it, since the frame's form can
hold less than the value (log 14). -/
def readBack {α : Type} (saved frame : List Byte) (old new : α) : α := if saved = frame then old else new

/-- A stream read back from its 32 bytes (R323, R326). -/
def Stream.ofFrame (x : Stream) (b : List Byte) : Stream :=
  let code (i : Nat) : TileState × Bool :=
    let c := leNat (b.drop 3) / 8 ^ i % 8
    ((match c % 4 with
      | 0 => TileState.free
      | 1 => .reserved
      | 2 => .filled
      | _ => .popped), c / 4 = 1)
  if x.tiles.isEmpty then { x with idx := (List.range 4).map fun i => leNat ((b.drop (4 * i)).take 4) }
  else { x with r := leNat (b.take 1), p := leNat ((b.drop 1).take 1), a := leNat ((b.drop 2).take 1)
                tiles := (List.range x.tiles.length).map code }

/-- A special state from its code (R321). -/
def specialOf (c : Nat) : Special :=
  match c with
  | 0 => .none
  | 1 => .pinf
  | 2 => .ninf
  | _ => .nan

/-- A tile read back from its 16,704 bytes (R321, R326). -/
def Tile.ofFrame (t : Tile) (b : List Byte) : Tile :=
  let sp := leNat ((b.drop 16384).take 256)
  let cls := leNat ((b.drop 16643).take 1)
  { t with
    n := (List.range 1024).map fun i => BitVec.ofNat 128 (leNat ((b.drop (16 * i)).take 16))
    sp := (List.range 1024).map fun i => specialOf (sp / 4 ^ i % 4)
    anchor := sext 16 (leNat ((b.drop 16640).take 2))
    ov := leNat ((b.drop 16642).take 1) = 1
    mark := if cls = (t.mark.map MxMark.cls).getD 0 then t.mark
            else if cls = 0 then none else some { cls := cls, site := { pc := 0, hdr := 0, next := 0, word := 0, idx := 0 } } }

/-- A weight slot read back from its 32,832 bytes (R321, R326). -/
def Weight.ofFrame (w : Weight) (b : List Byte) : Weight :=
  let h := b.drop 32768
  let num (o n : Nat) : Nat := leNat ((h.drop o).take n)
  { w with
    data := b.take w.data.length, sp24 := num 0 1 = 1, c := num 1 1, p := num 2 2, scratch := num 4 1 = 1, src := num 8 8
    mark := if num 5 1 = (w.mark.map MxMark.cls).getD 0 then w.mark
            else if num 5 1 = 0 then none else some { cls := num 5 1, site := { pc := 0, hdr := 0, next := 0, word := 0, idx := 0 } } }

/-- The marks that two bit maps of a frame give, by register (R323, R324). -/
def marksOf (n marked ecc : Nat) : List (Nat × MarkKind) :=
  ((List.range n).filter (bitAt marked)).map fun i => (i, if bitAt ecc i then .ecc else .stale)

/-- What a restore reads back of a thread from its record and its part of the V section (R324, R326); gleans stand as they were
saved (log 14). -/
def Group.threadOf (g : Group) (t : Thread) (rec v : List Byte) : Thread :=
  let num (o n : Nat) : Nat := leNat ((rec.drop o).take n)
  let phase (b : Nat) : Int := ((g.bar b).phase : Int)
  let ticket (b : Nat) : Option (Nat × Nat) :=
    if num (144 + b) 1 = (g.ticketByte t b).toNat then (t.tickets.lookup b).map fun x => (b, x)
    else if num (144 + b) 1 = 128 then none
    else some (b, wrap 32 (phase b + sext 8 (num (144 + b) 1)))
  { t with
    v := (List.range g.launch.nv).map fun i => BitVec.ofNat 32 (leNat ((v.drop (4 * i)).take 4))
    p := BitVec.ofNat 8 (128 + num 40 1 % 128)
    draws := BitVec.ofNat 32 (num 12 4)
    flags := (List.range 12).map fun i => num 32 6 / 16 ^ i % 16
    marks := marksOf g.launch.nv (num 80 32) (num 112 32)
    tickets := (List.range 96).filterMap ticket
    pc := match t.place with
      | .bin _ => BitVec.ofNat 64 (num 0 8)
      | _ => t.pc }

/-- A sheaf saved mid-clause resumes at the PC and the CPOS that the record of its first thread holds (R324, R326). -/
def Group.sheafFrom (g : Group) (num : Nat → Nat → Nat) (sh : Sheaf) : Sheaf :=
  match sh.members.head? with
  | some k =>
    let r := 20480 + 512 * k.t
    if sh.inClause && ((g.find k).map g.threadState).any (fun x => x.1 = 2) then
      { sh with pc := BitVec.ofNat 64 (num r 8), idx := num (r + 41) 1 }
    else sh
  | none => sh

/-- What a restore reads back from the frame (R326): the registers with their marks, flags, tickets, PCs, HANDLER, streams,
barriers, the scratchpad with its full/empty bits, tiles and weight slots; copies and gleans stand as they were saved (log 14). -/
def State.reload (s : State) (task : Task) (g : Group) : Group :=
  let a := task.frameAt g.gidx
  let num (o n : Nat) : Nat := s.devNat g.vf (a + o) n
  let bytes (o n : Nat) : List Byte := s.devRead g.vf (a + o) n
  let at_ := g.launch.sections
  let n := g.launch.scratch + 2 * g.launch.exch
  let thread (t : Thread) : Thread :=
    g.threadOf t (bytes (20480 + 512 * t.key.t) 512) (bytes (at_.1 + 4 * t.key.t * g.launch.nv) (4 * g.launch.nv))
  let stream (x : Stream × Nat) : Stream :=
    let b := bytes (4096 + 2240 + 32 * x.2) 32
    readBack x.1.frame b x.1 (x.1.ofFrame b)
  let bar (x : Bar × Nat) : Bar :=
    let o := 4096 + 2752 + 16 * x.2
    { x.1 with arrivals := num o 2, c := num (o + 2) 2, phase := num (o + 4) 4, pending := num (o + 8) 7 }
  { g with
    s := (List.range 512).map fun i => BitVec.ofNat 32 (num (4096 + 4 * i) 4)
    marksS := marksOf 512 (num (4096 + 2112) 64) (num (4096 + 2176) 64)
    handler := BitVec.ofNat 64 (num (4096 + 4288) 8)
    threads := g.threads.map fun t => if t.key.gl = 0 then thread t else t
    sheaves := g.sheaves.map (g.sheafFrom num)
    streams := g.streams.zipIdx.map stream
    bars := g.bars.zipIdx.map bar
    scratch := (bytes at_.2.1 n).zipIdx.foldl (fun m x => Memory.write m x.2 x.1) []
    fe := (List.range (n / 4)).filter fun w => bitAt (num (at_.2.1 + n + w / 8) 1) (w % 8)
    tiles := g.tiles.zipIdx.map fun (t, k) => t.ofFrame (bytes (at_.2.2.1 + 16704 * k) 16704)
    weights := g.weights.zipIdx.map fun (w, k) => w.ofFrame (bytes (at_.2.2.2 + 32832 * k) 32832) }

/-- A glean rejoins on restore: its recruiter goes to the body with a new grant (R258). -/
def State.rejoin (s : State) (gi : Nat) (gl : Glean) : State :=
  let k : Key := { t := gl.recr, gl := 0 }
  let s := s.setGroup gi fun g =>
    { g.modify k fun t => { t with part := none } with gleans := g.gleans.filter fun x => x.id != gl.id }
  let r := s.startGlean gi k { gl with rejoined := true, lent := [] } false
  r.1.setGroup gi fun g => g.putAll k (gl.gdst.writes 1 r.2)

/-- The j-th saved group of the i-th task goes on a cluster with a start set for its scratchpad lines (R142, R162, R326). Full
and empty words and members that changed meanwhile are served (R155, R201, R210). -/
def State.restoreGroup (s : State) (i j cl s0 : Nat) : State :=
  match s.tasks[i]? with
  | none => s
  | some task =>
    match task.saved[j]? with
    | none => s
    | some x =>
      let k := (s.cluster cl).started
      let resuming : Bool := (s.vf task.vf).gangs.any fun e => e.task = task.idx && e.state = 6
      let g := (s.reload task x.group).ages s.clock
      let bin (t : Thread) : Thread := match t.place with
        | .bin _ => { t with place := .bin s.clock }
        | _ => t
      let fresh (sh : Sheaf) : Sheaf := { sh with drawn := s.clock, last := s.clock, hold := match sh.hold with
        | .page _ _ _ _ _ => .free
        | h => h }
      let count (c : Cluster) : Cluster := { c with started := c.started + 1 }
      let move (y : Copy) : Copy := { y with cl := cl, entered := s.clock - y.entered }
      let (s, ways) := s.takeWays cl s0 ((g.launch.scratch + 2 * g.launch.exch) / 128)
      let g := { g with
        cl := cl
        slot := k % 4
        s0 := s0
        ways := ways
        started := s.clock
        stop := if resuming then .closed else .running
        threads := g.threads.map bin
        sheaves := g.sheaves.map fresh }
      let s := { s with
        clusters := modAt s.clusters cl count
        groups := s.groups ++ [g]
        copies := s.copies ++ x.copies.map move }
      let s := s.setTask task.uid fun t =>
        { t with
          saved := t.saved.eraseIdx j
          placed := t.placed ++ [g.gidx]
          agedAt := s.clock
          reserved := none
          promised := t.promised.filter fun p => p.1 != g.gidx }
      let gi := s.groups.length - 1
      let s := g.gleans.foldl (fun s gl => s.rejoin gi gl) s
      (((s.onFe gi 0 fun g => g.feSettle s.clock).flushStx g.task g.gidx).retryArrivals gi).fitContexts gi

/-! ### World switch and counters -/

/-- The record of a partition. -/
def Chip.partRec (c : Chip) (part : Nat) : Option PartRec :=
  (c.applied.map ProvRecord.parts).bind fun xs => xs.find? fun p => p.part = part

/-- The VF whose slice comes after another's, in the order of the partition's record (R328). -/
def State.nextVf (s : State) (part vf : Nat) : Option Nat :=
  (s.chip.partRec part).bind fun p =>
    let ids := p.vfs.map VfRec.vf
    (ids.findIdx? (· = vf)).bind fun i => ids[(i + 1) % ids.length]?

/-- The slice of a running VF has ended (R328). -/
def State.sliceOver (s : State) (vf : Nat) : Bool := (s.vf vf).began + 2400 * (s.vf vf).slice ≤ s.clock

/-- WORLD_SWITCH (R328, R329): at the end of its slice the running VF of the partition stops, and its groups are pre-empted; once
none of them is left, the counters change hands and the next VF in the record's order runs. -/
def evWorldSwitch (part vf : Nat) (s : State) : State :=
  let mine (i : Nat) : Bool := partOf i = part && i != vf
  if partOf vf != part || 128 ≤ vf || (s.vf vf).running then s
  else
    match (List.range 128).find? fun i => mine i && (s.vf i).running with
    | some i =>
      if !s.sliceOver i || s.nextVf part i != some vf then s
      else (s.setVf i fun v => { v with running := false }).haltAll fun g => g.vf = i
    | none =>
      let out := (List.range 128).find? fun i => mine i && (s.vf i).saved.isNone
      if s.groups.any (fun g => mine g.vf) || (out.any fun i => s.nextVf part i != some vf) then s
      else
        let cls := (List.range s.clusters.length).filter fun c => (s.cluster c).part = some part
        let now := cls.map fun c => (c, (s.cluster c).cnt)
        let s := match out with
          | some i => s.setVf i fun v => { v with saved := some now }
          | none => s
        let new := (s.vf vf).saved.getD []
        let put (x : Cluster × Nat) : Cluster := if cls.contains x.2 then
            { x.1 with cnt := (new.lookup x.2).getD Counters.reset } else x.1
        let age (t : Task) : Task := if t.vf = vf then { t with agedAt := s.clock } else t
        { (s.setVf vf fun v => { v with running := true, saved := none, began := s.clock }) with
          clusters := s.clusters.zipIdx.map put
          tasks := s.tasks.map age }

/-- The counters of a cluster as a VF's window shows them (R394): none outside its partition. -/
def State.windowCounters (s : State) (vf cl : Nat) : Option Counters :=
  if (s.cluster cl).part != some (partOf vf) then none
  else match (s.vf vf).saved with
    | none => some (s.cluster cl).cnt
    | some ks => some ((ks.lookup cl).getD Counters.reset)

/-- A counter as a VF's window shows it: of a cluster, or of the shared units under the number after the last cluster
(R394). -/
def State.counterValue (s : State) (vf cl i : Nat) : Nat :=
  if cl = Config.clusters then (s.vf vf).shared.getD i 0
  else match s.windowCounters vf cl with
    | some k => k.c.getD i 0
    | none => 0

/-- COUNTER_LOW_READ (R330): the low half is answered and the latch takes the high half. -/
def evCounterLowRead (hart vf cl i : Nat) (s : State) : State :=
  let x := s.counterValue vf cl i
  let s := s.setVf vf fun v =>
    { v with latches := { hart := hart, cl := cl, i := i, high := x / 2 ^ 32 % 2 ^ 32 } :: v.latches.filter fun l => l.hart != hart }
  { s with msgs := s.msgs ++ [.value vf hart (natBytes 4 x)] }

/-- COUNTER_HIGH_READ (R330): the latched half where the latch is valid for the counter; otherwise the high half now. -/
def evCounterHighRead (hart vf cl i : Nat) (s : State) : State :=
  match (s.vf vf).latches.find? fun l => l.hart = hart && l.cl = cl && l.i = i with
  | some l =>
    let s := s.setVf vf fun v => { v with latches := v.latches.filter fun l => l.hart != hart }
    { s with msgs := s.msgs ++ [.value vf hart (natBytes 4 l.high)] }
  | none => { s with msgs := s.msgs ++ [.value vf hart (natBytes 4 (s.counterValue vf cl i / 2 ^ 32))] }

/-! ### Debugging -/

/-- DEBUG_HALT (R401): the group's threads stop as R318 states, and engine commands run on. -/
def evDebugHalt (gi : Nat) (s : State) : State :=
  match s.groups[gi]? with
  | none => s
  | some g => if g.dbg && g.stop = .running then s.haltWith gi (.held s.clock) else s

/-- A stopped thread goes on: at its header, or in a sheaf of those that stopped with it (R401). -/
def Group.goOn (g : Group) (clock : Nat) (t : Thread) : Group :=
  match t.place with
  | .stopped site hdr true =>
    let same (sh : Sheaf) : Bool := sh.inClause && sh.pc = site.pc && sh.idx = site.idx && sh.hdrPc = site.hdr
      && sh.regions.isEmpty && sh.drawn = clock && sh.members.length < 32
    let g := g.modify t.key fun t => { t with place := .sheaf }
    if g.sheaves.any same then
      let add (x : Sheaf × Nat) : Sheaf := if some x.2 = g.sheaves.findIdx? same then { x.1 with members := x.1.members ++ [t.key] } else x.1
      { g with sheaves := g.sheaves.zipIdx.map add }
    else
      { g with sheaves := g.sheaves ++ [{ newSheaf [t.key] site.pc clock with
          inClause := true, hdr := hdr, hdrPc := site.hdr, idx := site.idx }] }
  | .stopped _ _ false => (g.file clock t.key t.pc).modify t.key fun u => { u with entered := t.entered }
  | _ => g

/-- DEBUGGER_HOLD (R401): a debugger takes its hold on a group, or releases it, and stopped threads and groups go on. -/
def evDebuggerHold (gi : Nat) (on : Bool) (s : State) : State :=
  if on then s.setGroup gi fun g => { g with dbg := true }
  else
    let own (t : Thread) : Thread := match t.part with
      | some p => if t.key.gl = 0 then { t with part := some { p with release := none } } else t
      | none => t
    let on_ (g : Group) : Group :=
      let g := { g with dbg := false }
      let g := match g.stop with
        | .held _ => { g with stop := .running, threads := g.threads.map own }
        | _ => g
      g.threads.foldl (fun g t => g.goOn s.clock t) g
    (s.setGroup gi on_).fitContexts gi

/-- SAVE_FRAME (R325). -/
def execSaveFrame (g : Nat) (s : State) : Host.Outcome State Fault Refusal := .next (evSaveFrame g s)
/-- RESULT_DELIVERY (R320). -/
def execResultDelivery (i j : Nat) (s : State) : Host.Outcome State Fault Refusal := .next (evResultDelivery i j s)
/-- WORLD_SWITCH (R328). -/
def execWorldSwitch (part vf : Nat) (s : State) : Host.Outcome State Fault Refusal := .next (evWorldSwitch part vf s)
/-- COUNTER_LOW_READ (R330). -/
def execCounterLowRead (hart vf cl i : Nat) (s : State) : Host.Outcome State Fault Refusal :=
  .next (evCounterLowRead hart vf cl i s)
/-- COUNTER_HIGH_READ (R330). -/
def execCounterHighRead (hart vf cl i : Nat) (s : State) : Host.Outcome State Fault Refusal :=
  .next (evCounterHighRead hart vf cl i s)
/-- DEBUG_HALT (R401). -/
def execDebugHalt (g : Nat) (s : State) : Host.Outcome State Fault Refusal := .next (evDebugHalt g s)
/-- DEBUGGER_HOLD (R401). -/
def execDebuggerHold (g : Nat) (on : Bool) (s : State) : Host.Outcome State Fault Refusal := .next (evDebuggerHold g on s)

end Sys2Proof.Machine
end

