-- ==== Sys2Proof/Machine/TaskOps.lean ====
section
/-! DEFINITION. Submission (R263 to R268), dependences (R269, R270), inheritance (R271) and the task instructions
(R278, R279); CLK (R334), PMRD and MARK (R396 to R398). -/

namespace Sys2Proof.Machine

/-! ### Checks at submission -/

/-- The bytes of a TCB field are zero. -/
def State.tcbZero (s : State) (vf i off n : Nat) : Bool := s.tcbNat vf i off n = 0

/-- A TCB keeps every rule of R264 (R267, ERR 5). -/
def State.tcbValid (s : State) (vf i : Nat) : Bool :=
  let f := s.tcbNat vf i
  let v := s.vf vf
  let index (x : Nat) : Bool := x = 0 || (x < 2 ^ 24 && v.validTask x)
  let entry (a : Nat) : Bool := s.devNat vf a 4 < 2 ^ 24
  f 0 8 % 256 = 0 && f 8 8 = 0 && f 28 1 < 8 && f 29 1 < 64 && f 31 1 < 8 && index (f 36 4)
    && (if f 16 4 = 0 then f 20 4 = 0 && f 24 4 = 0 else f 20 4 != 0 && f 24 4 != 0)
    && [48, 52, 56, 60].all (fun o => index (f o 4)) && (succAddrs v i).all entry
    && f 180 4 = 0 && f 194 2 = 0 && f 200 8 % 4096 = 0 && s.tcbZero vf i 224 32

/-- The grid of a task: its own, or the launch record's (R264, R266). -/
def State.gridOf (s : State) (vf i : Nat) (l : Launch) : Nat × Nat × Nat :=
  if s.tcbNat vf i 16 4 = 0 then (l.gx, l.gy, l.gz) else (s.tcbNat vf i 16 4, s.tcbNat vf i 20 4, s.tcbNat vf i 24 4)

/-- A launch record keeps R265 and the limits of R78, with its templates valid (R215); `grid` is the grid in use (R267,
ERR 1). -/
def State.launchValid (s : State) (vf lrec : Nat) (l : Launch) (grid : Nat × Nat × Nat) : Bool :=
  let num (o n : Nat) : Nat := s.devNat vf (lrec + o) n
  let shape (x : Nat × Nat × Nat) : Bool := x.1 != 0 && x.2.1 != 0 && x.2.2 != 0 && x.1 * x.2.1 * x.2.2 ≤ 2 ^ 31
  l.entry.toNat % 4 = 0 && l.handler.toNat % 4 = 0
    && l.csize % 4096 = 0 && 8192 ≤ l.csize && l.csize ≤ 2 ^ 20
    && 1 ≤ l.threads && l.threads ≤ 1024 && 8 ≤ l.nv && l.nv ≤ 256 && l.argc ≤ 64
    && l.scratch % 128 = 0 && l.exch % 128 = 0 && l.scratch + 2 * l.exch ≤ 393216
    && l.ntiles ≤ 128 && l.nslots ≤ 32 && l.nbars ≤ 96 && num 43 1 = 0 && num 47 1 = 0 && num 3100 36 = 0
    && 10 ≤ l.cexp && l.cexp ≤ 40 && 10 ≤ l.fexp && l.fexp ≤ 40
    && num 46 1 ≤ 64 && l.templates.all (fun x => !tmplDefined x || tmplValid x l.ks l.streams l.argc l.scratch)
    && l.exps.all (fun n => n ≤ 1024) && shape (l.gx, l.gy, l.gz) && shape grid
    && (l.exch != 0 || l.sets.all fun x => !(setValid x && setXchg x))

/-- The member list of a set entry (R154). -/
def State.listOf (s : State) (vf lrec : Nat) (x : BitVec 64) : List Nat :=
  (List.range (setCount x)).map fun m => s.devNat vf (lrec + setList x + 4 * m) 4

/-- A list is strictly ascending. -/
def ascending : List Nat → Bool
  | a :: b :: rest => a < b && ascending (b :: rest)
  | _ => true

/-- A group table keeps R153 and R154 for a grid of n groups (R267, ERR 2). -/
def State.setsValid (s : State) (vf lrec : Nat) (l : Launch) (n : Nat) : Bool :=
  let valid := l.sets.filter setValid
  let lists := valid.map (s.listOf vf lrec)
  valid.all (fun x => setCount x != 0 && setList x % 4 = 0 && setList x + 4 * setCount x ≤ l.csize)
    && lists.all (fun xs => ascending xs && xs.all fun g => g < n)
    && lists.flatten.all (fun g => (lists.filter fun xs => xs.contains g).length ≤ 4)

/-- No group is in two sets with XCHG (R205; R267, ERR 3). -/
def State.xchgValid (s : State) (vf lrec : Nat) (l : Launch) : Bool :=
  let lists := (l.sets.filter fun x => setValid x && setXchg x).map (s.listOf vf lrec)
  lists.flatten.all fun g => (lists.filter fun xs => xs.contains g).length ≤ 1

/-- The rows of a group (R141, R142). -/
def Launch.rows (l : Launch) : Nat := (l.threads + 31) / 32
/-- The scratchpad lines of a group (R141). -/
def Launch.lines (l : Launch) : Nat := (l.scratch + 2 * l.exch) / 128

/-- One group fits an empty cluster (R141; R267, ERR 4). -/
def Launch.fitsEmpty (l : Launch) : Bool :=
  32 * l.rows ≤ 2048 && 32 * l.rows * l.nv ≤ 262144 && l.lines ≤ 3072 && l.ntiles ≤ 128 && l.nslots ≤ 32 && l.nbars ≤ 96

/-- The gang entry that a timed task binds (R336): ARMED, of its GANG, with its GMEMB and no task. -/
def State.gangFor (s : State) (vf i : Nat) : Option Nat :=
  (s.vf vf).gangs.findIdx? fun g => g.state = 1 && g.gang = s.tcbNat vf i 176 2 && g.gmemb = s.tcbNat vf i 178 2 && g.task = 0

/-- The first cause for which a submission is refused (R267, R336). -/
def State.refusal (s : State) (vf i : Nat) (l : Launch) : Option Nat :=
  let lrec := s.tcbNat vf i 0 8
  let g := s.gridOf vf i l
  if !s.tcbValid vf i then some 5
  else if !s.launchValid vf lrec l g then some 1
  else if !s.setsValid vf lrec l (g.1 * g.2.1 * g.2.2) then some 2
  else if !s.xchgValid vf lrec l then some 3
  else if !l.fitsEmpty then some 4
  else if bitAt (s.tcbNat vf i 31 1) 0 && (s.gangFor vf i).isNone then some 7
  else none

/-! ### Submission -/

/-- STATE of a task that may be submitted (R266). -/
def State.submittable (s : State) (vf i : Nat) : Bool :=
  let st := s.tcbNat vf i 30 1
  st = 0 || st = 4 || st = 5

/-- Queue q of a VF has an entry free (R268). -/
def State.queueRoom (s : State) (vf q : Nat) : Bool := (s.vf vf).live.getD q 0 < 4096

/-- A task is submitted to a queue (R266 to R268): its number, the checks, the states WAITING and READY, and the gang
entry of a timed task (R336). Its launch holds the grid in use (R27, R266). -/
def State.submit (s : State) (vf q i : Nat) : State :=
  let s := s.devRecall vf ((s.vf vf).tcb i) 256
  let s := s.devRecall vf (s.tcbNat vf i 0 8) 8192
  let n := (s.vf vf).seqs.getD q 0 + 1
  let s := s.setVf vf fun v => { v with seqs := v.seqs.set q n }
  let s := s.tcbPut vf i 40 8 (q * 2 ^ 58 + n % 2 ^ 58)
  let s := s.tcbPut vf i 212 4 0
  let f := s.tcbNat vf i
  let l := s.readLaunch vf (f 0 8)
  match s.refusal vf i l with
  | some e => s.abortNew vf i e
  | none =>
    let g := s.gridOf vf i l
    let timed := bitAt (f 31 1) 0
    let t : Task :=
      { uid := s.uids + 1, vf := vf, idx := i, queue := q, seq := n, launch := { l with gx := g.1, gy := g.2.1, gz := g.2.2 }, lrec := f 0 8
        gx := g.1, gy := g.2.1, gz := g.2.2, save := f 200 8, timed := timed, gang := f 176 2, start := f 184 8
        notify := bitAt (f 31 1) 1, note := BitVec.ofNat 64 (f 192 8), dropArena := bitAt (f 31 1) 2, arena := f 208 2
        placed := [], finished := [], cursor := 0, readyAt := 0, agedAt := 0, saved := [], setStart := []
        setFailed := [], reserved := none, promised := [] }
    let s' := { s with uids := t.uid, tasks := s.tasks ++ [t] }
    let s' := s'.setVf vf fun v => { v with live := modAt v.live q (· + 1) }
    let s' := match if timed then s.gangFor vf i else none with
      | some e => s'.setVf vf fun v =>
          { v with gangs := modAt v.gangs e fun g => { g with task := i, start := f 184 8, released := false, sent := false } }
      | none => s'
    if f 32 4 != 0 || timed then s'.tcbPut vf i 30 1 1 else s'.makeReady vf i

/-- QUEUE_SUBMIT (R268): a store to a queue page; one to a full queue waits, and one of other content is discarded. -/
def evQueueSubmit (vf q : Nat) (data : BitVec 64) (s : State) : State :=
  let i := data.toNat
  if 2 ^ 24 ≤ i || 64 ≤ q || 128 ≤ vf then s.note .store
  else if !(s.vf vf).validTask i || !s.submittable vf i then s.note .command
  else if s.queueRoom vf q then s.submit vf q i
  else s

/-! ### Priorities -/

/-- The effective priority of a task (R271): PRIO is clamped to the cap of the queue it was submitted to (R268). -/
def State.effPrio (s : State) (vf i : Nat) : Nat :=
  let p := s.tcbNat vf i 28 1 % 8
  let p := match s.taskAt vf i with
    | some k => Nat.min p ((s.vf vf).caps.getD ((s.tasks[k]?).map Task.queue |>.getD 0) 7)
    | none => p
  let ip := s.tcbNat vf i 29 1
  Nat.min 7 (Nat.max (Nat.max p (ip % 8)) (p + ip / 8 % 8))

/-- IPRIO[2:0] of a task is raised to at least p (R271). -/
def State.raisePrio (s : State) (vf i p : Nat) : State :=
  let ip := s.tcbNat vf i 29 1
  if ip % 8 < p then s.tcbPut vf i 29 1 (ip / 8 * 8 + p) else s

/-- A raise follows the back-links to a depth (R271). -/
def State.inherit : Nat → State → Nat → Nat → Nat → State
  | 0, s, vf, i, p => s.raisePrio vf i p
  | n + 1, s, vf, i, p =>
    let s := s.raisePrio vf i p
    [48, 52, 56, 60].foldl (fun s o =>
      let b := s.tcbNat vf i o 4 % 2 ^ 24
      if (s.vf vf).validTask b then State.inherit n s vf b p else s) s

/-- The back-link and the raise of a new link from p to x (R271). -/
def State.link (s : State) (vf p x : Nat) : State :=
  let s := match [48, 52, 56, 60].find? fun o => s.tcbNat vf x o 4 % 2 ^ 24 = 0 with
    | some o => s.tcbPut vf x o 4 p
    | none => s
  State.inherit 4 s vf p (s.effPrio vf x)

/-! ### TASK, TDEP, TSIG, UINT -/

/-- A status word (R278). -/
def statusWord (st i : Nat) : Nat := st * 2 ^ 28 + i % 2 ^ 24

/-- TASK of one thread (R279): none while the queue is full. -/
def State.taskOp (s : State) (vf q x : Nat) : Option (State × Nat) :=
  if 64 ≤ q || !(s.vf vf).validTask x then some (s, statusWord 1 x)
  else if !s.submittable vf x then some (s, statusWord 2 x)
  else if !s.queueRoom vf q then none
  else
    let s := s.submit vf q x
    some (s, statusWord (if s.tcbNat vf x 30 1 = 5 then 4 else 0) x)

/-- GCOUNT of a task (R266). -/
def State.gcount (s : State) (vf i : Nat) : Nat :=
  let g := s.gridOf vf i (s.readLaunch vf (s.tcbNat vf i 0 8))
  g.1 * g.2.1 * g.2.2

/-- TDEP of one thread (R279). -/
def State.tdepOp (s : State) (vf p x : Nat) (pre : Bool) (n : Nat) : State × Nat :=
  let v := s.vf vf
  let st := s.tcbNat vf x 30 1
  let pst := s.tcbNat vf p 30 1
  if !v.validTask p || !v.validTask x then (s, statusWord 1 x)
  else if p = x || (2 ≤ st && st ≤ 5) || (st = 1 && s.tcbNat vf x 32 4 = 0) then (s, statusWord 2 x)
  else if pst = 4 || (pre && n = 0)
      || (pre && pst != 5 && decide (Nat.min n (s.gcount vf p) ≤ s.tcbNat vf p 212 4)) then (s, statusWord 5 x)
  else if pst = 5 then (s.abort vf x 9, statusWord 0 x)
  else
    match (s.succList vf v.poolN p).find? fun a => s.devNat vf a 4 % 2 ^ 24 = 0 with
    | none => (s, statusWord 3 x)
    | some a =>
      let s := s.tcbPut vf x 32 4 (s.tcbNat vf x 32 4 + 1)
      let s := s.devWrite vf a (natBytes 4 x ++ natBytes 4 (if pre then n else 0))
      (s.link vf p x, statusWord 0 x)

/-- TSIG of one thread (R270, R279). -/
def State.tsigOp (s : State) (vf x : Nat) : State × Nat :=
  let st := s.tcbNat vf x 30 1
  if !(s.vf vf).validTask x then (s, statusWord 1 x)
  else if (st != 0 && st != 1) || s.tcbNat vf x 32 4 = 0 then (s, statusWord 2 x)
  else (s.decPred vf x, statusWord 0 x)

/-- The task instructions with a status word act thread by thread in ascending order, each as soon as its queue has an entry
free (R278, R279); a thread's accesses before it have performed by then, so that they are ordered before every access of a
task that becomes READY (R182 case 7). -/
def statusBody (f : Cx → Thread → State → Option (State × Nat)) (c : Cx) (s : State) : Act :=
  let room (s : State) (t : Thread) : Bool :=
    !(s.fenceIds c.g t.key 9).any s.underWay.contains && (f c t s).isSome
  let one (s : State) (t : Thread) : State :=
    match f c t s with
    | none => s
    | some (s, st) => s.setGroup c.gi fun g => g.addOuts [c.out t.key ((c.dstN 1 st).map fun w => (w.1, w.2, none)) true 0]
  inTurn c s room one (c.actS.filter fun t => !c.sh.acted.contains t.key)

/-- A 32-bit operand of a thread, or the literal in its place. -/
def Cx.word1 (c : Cx) (t : Thread) (k : Nat) : Nat := c.g.arg t c.o c.e 1 k

/-- UINT (R277, R279): a release of the threads' earlier accesses, then one notice for each. -/
def uintBody (c : Cx) (s : State) : Act :=
  if c.act.isEmpty then .done s
  else
    let (s, over_) := s.released c
    if !over_ then .stay (s.stalled c)
    else
      .done (c.act.foldl (fun s t =>
        let v := c.g.arg t c.o c.e 2 2
        s.post c.g.vf (c.word1 t 1 % 2 ^ 16) v 1 0 0 (c.g.cl % 512 + 512 * (t.key.t % 1024))) s)

/-! ### CLK, PMRD and MARK -/

/-- BOUND at a time: in HOLDOVER it has grown from its value at the loss of lock, by at most 100 ns a second (R333). -/
def Lammas.boundAt (l : Lammas) (ns : Nat) : Nat :=
  let grown := if l.lock = 3 then (ns - l.lostAt) * (Config.holdoverRate % 101) / 10 ^ 9 else 0
  Nat.min (l.bound + grown) 65535

/-- The Lammas status word at a time (R333). -/
def Lammas.word (l : Lammas) (ns : Nat) : Nat :=
  l.lock % 4 * 2 ^ 30 + (if l.loss then 2 ^ 29 else 0) + l.boundAt ns

/-- CLK (R334). -/
def clkBody (c : Cx) (s : State) : Act :=
  let ns := s.ns % 2 ^ 64
  lanesOut (fun c _ =>
    if c.e.lo == 0 then c.dstN 2 ns
    else if c.e.lo == 1 then c.dstN 4 (ns + 2 ^ 64 * (s.lam.tai % 2 ^ 16) + 2 ^ 96 * s.lam.word s.ns)
    else c.dstN 1 (s.lam.word s.ns)) c s

/-- PMRD (R397). -/
def pmrdBody (c : Cx) (s : State) : Act :=
  lanesOut (fun c _ => c.dstN 2 ((s.cluster c.g.cl).cnt.c.getD c.e.op1.index 0)) c s

/-- MARK (R398, R400): one record for the first active thread, where tracing is enabled. -/
def markBody (c : Cx) (s : State) : Act :=
  match c.act.head? with
  | none => .done s
  | some t =>
    .done (s.trace c.g.vf none { kind := 4, engine := 3, pkcl := c.g.cl, gidx := c.g.gidx, seq := s.taskSeq c.g.vf c.g.task
                                 start := s.ns, word := c.site.word, info := c.e.imm.toNat, detail := c.word1 t 1
                                 pc := c.site.pc.toNat })

/-- TASK (R279). -/
def execTask (e : Ext) (s : State) : Host.Outcome State Fault Refusal :=
  issueE .task e s (statusBody fun c t s => s.taskOp c.g.vf (c.word1 t 1) (c.word1 t 2))
/-- TDEP (R279). -/
def execTdep (e : Ext) (s : State) : Host.Outcome State Fault Refusal :=
  issueE .tdep e s (statusBody fun c t s =>
    some (s.tdepOp c.g.vf (c.word1 t 1) (c.word1 t 2) (c.e.lo.toNat % 2 = 1) (c.word1 t 3)))
/-- TSIG (R279). -/
def execTsig (e : Ext) (s : State) : Host.Outcome State Fault Refusal :=
  issueE .tsig e s (statusBody fun c t s => some (s.tsigOp c.g.vf (c.word1 t 1)))
/-- UINT (R279). -/
def execUint (e : Ext) (s : State) : Host.Outcome State Fault Refusal := issueE .uint e s uintBody
/-- CLK (R334). -/
def execClk (e : Ext) (s : State) : Host.Outcome State Fault Refusal := issueE .clk e s clkBody
/-- PMRD (R397). -/
def execPmrd (e : Ext) (s : State) : Host.Outcome State Fault Refusal := issueE .pmrd e s pmrdBody
/-- MARK (R398). -/
def execMark (e : Ext) (s : State) : Host.Outcome State Fault Refusal := issueE .mark e s markBody
/-- QUEUE_SUBMIT (R268). -/
def execQueueSubmit (vf q : Nat) (data : BitVec 64) (s : State) : Host.Outcome State Fault Refusal :=
  .next (evQueueSubmit vf q data s)

end Sys2Proof.Machine
end

