-- ==== Sys2Proof/Machine/Distribute.lean ====
section
/-! DEFINITION. The distributor (R141, R142, R155, R273, R274), aging (R271), restores (R326), the exit of groups (R119,
R156, R269) and the retirement of tasks (R275). -/

namespace Sys2Proof.Machine

/-! ### Room (R141, R162) -/

/-- What is taken of a cluster: by a group, whose launch and start set of scratchpad lines these are, or, without a group
place, by a thread row that a glean keeps of a group that has exited (R251). -/
structure Load where
  uid : Nat
  cl : Nat
  launch : Launch
  s0 : Nat
  place : Bool
  deriving DecidableEq, Repr

/-- The load of a resident group. -/
def Group.load (g : Group) : Load := { uid := g.uid, cl := g.cl, launch := g.launch, s0 := g.s0, place := true }

/-- The helpers on a cluster that run in slots of groups that have exited: place of their group, key, and the owner of the
slot with its row (R251). -/
def State.strays (s : State) (cl : Nat) : List (Nat × Key × Nat × Nat) :=
  s.groups.zipIdx.flatMap fun (g, gi) => if g.cl != cl then [] else g.gleans.flatMap fun gl => gl.lent.filterMap fun x =>
    if s.groups.any fun h => h.uid = x.2.1 then none else some (gi, { t := gl.recr, gl := x.1 }, x.2.1, x.2.2 / 32)

/-- The rows that the helpers of a cluster keep of groups that have exited: of the same grid, so of the same launch (R249,
R251). -/
def State.strayLoads (s : State) (cl : Nat) : List Load :=
  ((s.strays cl).map fun x => (x.2.2.1, x.2.2.2, ((s.groups[x.1]?).map Group.launch))).eraseDups.filterMap fun x =>
    x.2.2.map fun l =>
      { uid := x.1, cl := cl, s0 := 0, place := false
        launch := { l with threads := 32, scratch := 0, exch := 0, ntiles := 0, nslots := 0, nbars := 0 } }

/-- What is taken of the clusters of a list by the groups that a test keeps and, where asked for, by kept rows. -/
def State.loads (s : State) (cls : List Nat) (keep : Group → Bool) (strays : Bool) : List Load :=
  (s.groups.filter keep).map Group.load ++ (if strays then cls.flatMap s.strayLoads else [])

/-- The scratchpad lines of a load in a set (R162). -/
def linesIn (lines s0 set : Nat) : Nat := lines / 256 + if (set + 256 - s0) % 256 < lines % 256 then 1 else 0

/-- A start set works: no set would hold more than 12 lines (R162). -/
def setFits (xs : List Load) (lines s0 : Nat) : Bool :=
  (List.range 256).all fun j => (xs.map fun x => linesIn x.launch.lines x.s0 j).sum + linesIn lines s0 j ≤ 12

/-- The start set that a group takes on a cluster beside the given loads: none where there is no room (R141, R162). -/
def fits (loads : List Load) (cl : Nat) (l : Launch) : Option Nat :=
  let xs := loads.filter fun x => x.cl = cl
  let sum (f : Launch → Nat) : Nat := (xs.map fun x => f x.launch).sum + f l
  if (xs.filter Load.place).length < 16 && sum Launch.rows ≤ 64 && sum (fun l => 32 * l.rows * l.nv) ≤ 262144
      && sum Launch.ntiles ≤ 128 && sum Launch.nslots ≤ 32 && sum Launch.nbars ≤ 96 then
    (List.range 256).find? (setFits xs l.lines)
  else none

/-- The cluster for a group (R273 rule 3): fewest resident groups, then the lower number. -/
def pickCluster (loads : List Load) (cls : List Nat) (l : Launch) : Option (Nat × Nat) :=
  let room := cls.filterMap fun c => (fits loads c l).map fun s0 => (c, s0)
  let n (c : Nat) : Nat := (loads.filter fun x => x.cl = c && x.place).length
  match room with
  | [] => none
  | x :: xs => some (xs.foldl (fun a b => if n b.1 < n a.1 || (n b.1 = n a.1 && b.1 < a.1) then b else a) x)

/-- The clusters of a partition (R390). -/
def State.clustersOf (s : State) (part : Nat) : List Nat :=
  (List.range s.clusters.length).filter fun c => (s.cluster c).part = some part

/-! ### Tasks and their groups -/

/-- GCOUNT of a submitted task (R266). -/
def Task.count (t : Task) : Nat := t.gx * t.gy * t.gz

/-- The sets of a group: set index and member index, ascending (R153). -/
def State.setsOf (s : State) (t : Task) (gidx : Nat) : List (Nat × Nat) :=
  (t.launch.sets.zipIdx.filterMap fun (x, i) =>
    if setValid x then (((s.setMembers t i).findIdx? fun m => m = gidx).map fun m => (i, m)) else none).take 4

/-- A group of a task has started: it is resident or has finished; a saved one has started too (R155). -/
def Task.startedAt (t : Task) (i : Nat) : Bool :=
  i < t.cursor || t.finished.contains i || t.placed.contains i || t.saved.any fun x => x.group.gidx = i

/-- The co-resident sets of a group (R154, R155). -/
def State.coresOf (s : State) (t : Task) (gidx : Nat) : List Nat :=
  ((s.setsOf t gidx).map Prod.fst).filter fun i => setCores (t.launch.sets.getD i 0)

/-- Every member of a set is resident or has finished. -/
def State.setFull (s : State) (t : Task) (i : Nat) : Bool :=
  (s.setMembers t i).all fun m => m < t.cursor || t.finished.contains m || t.placed.contains m

/-- Every member of a set has started, also one that is saved (R155, R274). -/
def State.setStarted (s : State) (t : Task) (i : Nat) : Bool := (s.setMembers t i).all t.startedAt

/-- The groups of a task that may be placed, ascending (R156, R273 rule 1): unplaced ones in the reorder window, a saved
one only with COMPLETE set (R326). -/
def Task.unplaced (t : Task) : List Nat :=
  ((List.range 256).map (t.cursor + ·)).filter fun i =>
    i < t.count && !t.finished.contains i && !t.placed.contains i
      && t.saved.all fun x => x.group.gidx != i || x.complete

/-- Groups that members of a failed set are, which are placed as one (R274). -/
def State.withheld (s : State) (t : Task) (i : Nat) : Bool := (s.coresOf t i).any t.setFailed.contains

/-- The entry of a task's gang, if it is bound to one (R335). -/
def State.gangOf (s : State) (t : Task) : Option Gang := (s.vf t.vf).gangs.find? fun e => e.task = t.idx && t.idx != 0

/-- The gang of a task keeps its groups from being placed: it is stopped (R340 to R344). -/
def State.gangShut (s : State) (t : Task) : Bool :=
  match s.gangOf t with
  | some e => e.state = 4 || e.state = 5
  | none => false

/-- The rank of a task at a decision: its effective priority, and above every other while its gang resumes (R273,
R344). -/
def State.rank (s : State) (t : Task) : Nat :=
  match s.gangOf t with
  | some e => if e.state = 6 then 8 else s.effPrio t.vf t.idx
  | none => s.effPrio t.vf t.idx

/-- A task comes before another (R273 rule 1). -/
def State.taskBefore (s : State) (a b : Task) : Bool :=
  let r := s.rank a
  let q := s.rank b
  q < r || (r = q && (a.readyAt < b.readyAt || (a.readyAt = b.readyAt
    && (a.queue < b.queue || (a.queue = b.queue && a.seq < b.seq)))))

/-- Insertion by the order of decisions. -/
def State.insertTask (s : State) (t : Task) : List Task → List Task
  | [] => [t]
  | x :: xs => if s.taskBefore t x then t :: x :: xs else x :: s.insertTask t xs

/-- The tasks of a partition with a group to place, in the order of R273 rule 1. -/
def State.candidates (s : State) (part : Nat) : List Task :=
  let ok (t : Task) : Bool :=
    let st := s.tcbNat t.vf t.idx 30 1
    partOf t.vf = part && (s.vf t.vf).running && (st = 2 || st = 3) && !s.gangShut t && !t.unplaced.isEmpty
  (s.tasks.filter ok).foldl (fun l t => s.insertTask t l) []

/-! ### Starting a group -/

/-- The tiles of a ring stream, all FREE (R224). -/
def newStream (l : Launch) (x : BitVec 256) : Stream :=
  { idx := [0, 0, 0, 0], r := 0, p := 0, a := 0
    tiles := if streamKind x = 2 && streamBound x l.argc l.scratch then List.replicate (sf x 80 16) (.free, false) else [] }

/-- A thread at its start (R30, R142); a lane without a thread is vacant. -/
def newThread (l : Launch) (clock i : Nat) : Thread :=
  { key := { t := i, gl := 0 }, place := if i < l.threads then .bin clock else .exited, pc := l.entry
    v := List.replicate l.nv 0, p := 128, flags := List.replicate 12 0, draws := 0, marks := [], seq := 0, tickets := []
    part := none, solo := none, entered := false }

/-- A group at its start on a cluster (R30, R142, R162, R163), with issue open, or closed while its gang resumes (R344). -/
def newGroup (t : Task) (uid gidx cl slot s0 : Nat) (ways : List Nat) (clock : Nat) (sets : List (Nat × Nat))
    (stop : Stop) : Group :=
  let l := t.launch
  let bar (n : Nat) : Bar :=
    { c := if n = 0 then l.threads else n, dflt := n = 0, arrivals := 0, phase := 0, pending := 0, sets := [], sent := false }
  { uid := uid, vf := t.vf, task := t.uid, gidx := gidx, cl := cl, slot := slot, s0 := s0, ways := ways, launch := l, lrec := t.lrec
    s := (l.args ++ List.replicate 512 0).take 512, marksS := [], handler := l.handler
    threads := (List.range (32 * l.rows)).map (newThread l clock), sheaves := [], outs := [], insts := []
    bars := (l.exps.take l.nbars).map bar, streams := l.streams.map (newStream l), scratch := [], fe := [], spoilt := []
    swapped := false, swaps := false, tiles := List.replicate l.ntiles (Tile.zero 0)
    weights := List.replicate l.nslots
      { sp24 := false, c := 8, p := 0, scratch := false, src := 0, data := [], mark := none, bad := false }
    gleans := [], fences := [], stx := [], arvs := [], stop := stop, dbg := false, started := clock, aged := [], sets := sets }

/-- The clocks at which the first members of the co-resident sets of a group started (R274). -/
def State.noteSets (s : State) (uid gidx : Nat) : State :=
  match s.taskOf uid with
  | none => s
  | some t =>
    let new := (s.coresOf t gidx).filter fun i =>
      (t.setStart.lookup i).isNone && !s.setStarted t i && !t.setFailed.contains i
    s.setTask uid fun t => { t with
      setStart := (t.setStart ++ new.map fun i => (i, s.clock)).filter fun x => !s.setStarted t x.1
      setFailed := t.setFailed.filter fun i => !s.setFull t i }

/-- The gang of a task resumes (R344). -/
def State.resuming (s : State) (t : Task) : Bool := (s.gangOf t).any fun e => e.state = 6

/-- A group of a task starts, or its saved state is restored, on a cluster (R142, R162, R266, R271, R273); what waited for it
to start goes on (R155). It waits while the recall of what stands in a way of its scratchpad lines waits for a pin (R161). -/
def State.placeAt (s : State) (t : Task) (gidx cl s0 : Nat) : State :=
  if !s.waysFree cl s0 t.launch.lines then s
  else
    let s := if s.tcbNat t.vf t.idx 30 1 = 2 then s.tcbPut t.vf t.idx 30 1 3 else s
    let s := s.tcbPut t.vf t.idx 29 1 (s.tcbNat t.vf t.idx 29 1 % 8)
    let s := match t.saved.findIdx? (fun x => x.group.gidx = gidx), s.tasks.findIdx? (fun x => x.uid = t.uid) with
      | some j, some i => s.restoreGroup i j cl s0
      | _, _ =>
        let k := (s.cluster cl).started
        let stop : Stop := if s.resuming t then .closed else .running
        let (s, ways) := s.takeWays cl s0 t.launch.lines
        let g := newGroup t (s.uids + 1) gidx cl (k % 4) s0 ways s.clock (s.setsOf t gidx) stop
        let count (c : Cluster) : Cluster := { c with started := c.started + 1 }
        let s := { s with uids := s.uids + 1, groups := s.groups ++ [g], clusters := modAt s.clusters cl count }
        let place (t : Task) : Task := { t with
          placed := t.placed ++ [gidx]
          agedAt := s.clock
          reserved := none
          promised := t.promised.filter fun p => p.1 != gidx }
        (s.setTask t.uid place).flushStx t.uid gidx
    s.noteSets t.uid gidx

/-! ### Decisions -/

/-- Groups on a cluster that a priority may displace, in the order of R273 rule 4; members of a co-resident set whose members
have all started are none (R155). -/
def State.displaceable (s : State) (cl prio : Nat) : List (Nat × Group × Nat) :=
  let ok (x : Group × Nat) : Option (Nat × Group × Nat) :=
    match s.taskOf x.1.task with
    | none => none
    | some t =>
      let p := s.rank t
      let bound : Bool := (s.coresOf t x.1.gidx).any (s.setStarted t)
      if x.1.cl = cl && x.1.stop = .running && p < prio && !bound then some (p, x.1, x.2) else none
  let xs := s.groups.zipIdx.filterMap ok
  sortBy (fun x => x.1) (sortBy (fun x => s.clock - x.2.1.started) xs)

/-- The fewest groups from the front of a list whose release makes room on a cluster (R273 rule 4). -/
def releaseFor (loads : List Load) (cl : Nat) (l : Launch) : List (Nat × Group × Nat) → List (Nat × Group × Nat) →
    Option (List (Nat × Group × Nat))
  | [], _ => none
  | x :: xs, done =>
    let done := done ++ [x]
    let rest := loads.filter fun y => !done.any fun z => z.2.1.uid = y.uid
    if (fits rest cl l).isSome then some done else releaseFor loads cl l xs done

/-- The least costly release among clusters: highest priority released, number of groups, cluster (R273 rule 4). -/
def State.cheapest (s : State) (loads : List Load) (cls : List Nat) (prio : Nat) (l : Launch) :
    Option (Nat × List (Nat × Group × Nat)) :=
  let cost (x : List (Nat × Group × Nat)) : Nat := 1024 * (x.foldl (fun a y => Nat.max a y.1) 0) + x.length
  let low (c : Nat) := (s.displaceable c prio).filter fun x => loads.any fun y => y.uid = x.2.1.uid
  let xs := cls.filterMap fun c => (releaseFor loads c l (low c) []).map fun r => (c, r)
  match xs with
  | [] => none
  | x :: xs => some (xs.foldl (fun a b => if cost b.2 < cost a.2 then b else a) x)

/-- A group on its way out of its cluster (R318). -/
def Group.leaving (g : Group) : Bool :=
  match g.stop with
  | .halting _ _ => true
  | _ => false

/-- The clusters that a task may use, less those that blocked tasks of higher priority keep (R273 rule 5). -/
def State.openClusters (s : State) (part : Nat) (t : Task) : List Nat :=
  let p := s.rank t
  (s.clustersOf part).filter fun c => !(s.tasks.any fun x => x.uid != t.uid && x.reserved = some c && p < s.rank x)

/-- The distributor needs the rows that helpers of a cluster keep of exited groups: they go under release (R257). -/
def State.freeStrays (s : State) (cl : Nat) : State :=
  (s.strays cl).foldl (fun s x => s.setGroup x.1 fun g => g.modify x.2.1 (Thread.underRelease s.clock)) s

/-- A task keeps a cluster until its group is placed (R273 rule 5). -/
def State.keep (s : State) (uid : Nat) (cl : Option Nat) : State := s.setTask uid fun t => { t with reserved := cl }

/-- Loads together with the groups for which room is being made, but for one group, of the tasks of a partition that rank no lower
than a number (R273 rule 4). -/
def State.withPromises (s : State) (part prio : Nat) (but : Nat × Nat) (loads : List Load) : List Load :=
  (s.tasks.filter fun x => partOf x.vf = part && prio ≤ s.rank x).foldl (fun loads x =>
    (x.promised.filter fun p => (x.uid, p.1) != but).foldl (fun loads p =>
      { uid := 0, cl := p.2, launch := x.launch, s0 := (fits loads p.2 x.launch).getD 0, place := true } :: loads) loads) loads

/-- The clusters on which a group has room now: free of what is there, and not needed for a group for which room is being made
(R273 rules 3 and 4). -/
def State.roomNow (s : State) (part : Nat) (t : Task) (gidx : Nat) (cls : List Nat) : Option (Nat × Nat) :=
  let later := s.withPromises part (s.rank t) (t.uid, gidx) (s.loads cls (fun g => !g.leaving) true)
  pickCluster (s.loads cls (fun _ => true) true) (cls.filter fun c => (fits later c t.launch).isSome) t.launch

/-- A promise of room that can still be kept: its cluster has room once what leaves it has left (R273 rule 4). -/
def State.keepsPromise (s : State) (part : Nat) (t : Task) (p : Nat × Nat) : Bool :=
  let loads := s.withPromises part (s.rank t) (t.uid, p.1) (s.loads [p.2] (fun g => !g.leaving) false)
  t.unplaced.contains p.1 && (fits loads p.2 t.launch).isSome

/-- Room on a cluster is being made for a group of a task (R273 rule 4). -/
def State.promise (s : State) (uid gidx cl : Nat) : State :=
  s.setTask uid fun t => { t with promised := t.promised ++ [(gidx, cl)], reserved := none }

/-- The choice of a cluster for a group of a task (R273 rules 3 to 5): the state, and whether it was placed or groups
pre-empted. -/
def State.decideGroup (s : State) (part : Nat) (t : Task) (gidx : Nat) : State × Bool :=
  let cls := s.openClusters part t
  match s.roomNow part t gidx cls with
  | some (c, s0) => if s.waysFree c s0 t.launch.lines then (s.placeAt t gidx c s0, true) else (s, false)
  | none =>
    let later (strays : Bool) : List Load :=
      s.withPromises part (s.rank t) (t.uid, gidx) (s.loads cls (fun g => !g.leaving) strays)
    match pickCluster (later true) cls t.launch with
    | some (c, _) => (s.promise t.uid gidx c, true)
    | none =>
      match pickCluster (later false) cls t.launch with
      | some (c, _) => ((s.freeStrays c).promise t.uid gidx c, true)
      | none =>
        match s.cheapest (later false) cls (s.rank t) t.launch with
        | some (c, xs) => (((xs.foldl (fun s x => s.haltGroup x.2.2) s).freeStrays c).promise t.uid gidx c, true)
        | none => (s.keep t.uid (s.clustersOf part).head?, false)

/-- One decision for a task (R273 rules 2 to 5): a group for which room has been made goes to its cluster once it is free; else its
lowest unplaced group is decided. Members of a set that has failed, and saved groups of a gang that resumes, are placed as one. -/
def State.decideFor (s : State) (part : Nat) (t : Task) : State × Bool :=
  let kept := t.promised.filter (s.keepsPromise part t)
  let s := if kept = t.promised then s else s.setTask t.uid fun t => { t with promised := kept }
  let t := { t with promised := kept }
  let cls := s.openClusters part t
  let ready := kept.findSome? fun p =>
    if cls.contains p.2 then (s.roomNow part t p.1 [p.2]).map fun x => (p.1, x.1, x.2) else none
  match ready with
  | some (i, c, s0) => if s.waysFree c s0 t.launch.lines then (s.placeAt t i c s0, true) else (s, false)
  | none =>
    let asOne (i : Nat) : Bool := s.withheld t i || (s.resuming t && t.saved.any fun x => x.group.gidx = i)
    match t.unplaced.find? fun i => !asOne i && !kept.any fun p => p.1 = i with
    | none => (s, false)
    | some i => s.decideGroup part t i

/-- Decisions down the list of tasks until one acts (R273). -/
def State.placeOne (part : Nat) : List Task → State → State
  | [], s => s
  | t :: ts, s =>
    let r := s.decideFor part t
    if r.2 then r.1 else State.placeOne part ts r.1

/-- Places for a list of groups of one launch among loads (R274): group index, cluster and start set of each, and the groups
that go first, taken for each in turn as rule 4 of R273 has it. -/
def State.planSet (s : State) (cls : List Nat) (prio : Nat) (l : Launch) :
    List Nat → List Load → Option (List (Nat × Nat × Nat) × List Nat)
  | [], _ => some ([], [])
  | i :: is, loads =>
    let next (c s0 : Nat) (loads : List Load) (go : List Nat) : Option (List (Nat × Nat × Nat) × List Nat) :=
      (State.planSet s cls prio l is ({ uid := 0, cl := c, launch := l, s0 := s0, place := true } :: loads)).map fun r =>
        ((i, c, s0) :: r.1, go ++ r.2)
    match pickCluster loads cls l with
    | some (c, s0) => next c s0 loads []
    | none =>
      match s.cheapest loads cls prio l with
      | none => none
      | some (c, xs) =>
        let loads := loads.filter fun y => !xs.any fun z => z.2.1.uid = y.uid
        match fits loads c l with
        | some s0 => next c s0 loads (xs.map fun x => x.2.2)
        | none => none

/-- The attempt to place groups of a task as one (R274): at a decision where there is room for all that are not placed; groups of
lower priority go first where that makes room. The result is none where it does not, or while a member that has started is still
being saved or its frame is not COMPLETE. -/
def State.tryTogether (s : State) (part : Nat) (t : Task) (members : List Nat) : Option State :=
  let cls := s.clustersOf part
  let prio := s.rank t
  let todo := members.filter t.unplaced.contains
  let place (s : State) (x : Nat × Nat × Nat) : State :=
    match s.taskOf t.uid with
    | some t => s.placeAt t x.1 x.2.1 x.2.2
    | none => s
  let others (loads : List Load) : List Load := s.withPromises part prio (0, 0) loads
  if todo.isEmpty || (s.groups.any fun g => g.task = t.uid && g.leaving && members.contains g.gidx)
      || t.saved.any fun x => members.contains x.group.gidx && !x.complete then none
  else
    match s.planSet cls 0 t.launch todo (others (s.loads cls (fun _ => true) true)) with
    | some (xs, _) => some (if xs.all fun x => s.waysFree x.2.1 x.2.2 t.launch.lines then xs.foldl place s else s)
    | none =>
      (s.planSet cls prio t.launch todo (others (s.loads cls (fun g => !g.leaving) false))).map fun r =>
        (r.1.map fun x => x.2.1).eraseDups.foldl State.freeStrays (r.2.foldl State.haltGroup s)

/-- The saved groups of a gang that resumes go ahead of every other group of the partition (R344). -/
def State.gangFirst (s : State) (part : Nat) (ts : List Task) : Option State :=
  (ts.filter s.resuming).findSome? fun t => s.tryTogether part t (t.saved.map fun x => x.group.gidx)

/-- The first attempt at a failed set that has room, of the tasks in their order (R274): while it waits for groups to be saved,
no other group of the partition is placed. -/
def State.failedSet (s : State) (part : Nat) (ts : List Task) : Option State :=
  ts.findSome? fun t => t.setFailed.findSome? fun i => s.tryTogether part t (s.setMembers t i)

/-- PLACEMENT (R273, R274, R344): one decision of the distributor for a partition. -/
def evPlacement (part : Nat) (s : State) : State :=
  let ts := s.candidates part
  match s.gangFirst part ts with
  | some s' => s'
  | none =>
    match s.failedSet part ts with
    | some s' => s'
    | none => State.placeOne part ts s

/-- RESTORE (R326): the distributor's decision, where it restores a saved group of the i-th task on a cluster: by the rules of
R273 like every placement. -/
def evRestore (i cl : Nat) (s : State) : State :=
  match s.tasks[i]? with
  | none => s
  | some t =>
    let s' := evPlacement (partOf t.vf) s
    let left : Nat := ((s'.taskOf t.uid).map fun x => x.saved.length).getD 0
    if left < t.saved.length && s'.groups.any fun g => g.task = t.uid && g.cl = cl && !s.groups.any fun h => h.uid = g.uid
    then s' else s

/-- AGING_TICK (R271, R328): a full millisecond in which none of the task's groups was placed. -/
def evAgingTick (uid : Nat) (s : State) : State :=
  match s.taskOf uid with
  | none => s
  | some t =>
    let st := s.tcbNat t.vf t.idx 30 1
    if (st = 2 || (st = 3 && t.waits)) && (s.vf t.vf).running && t.agedAt + 2400000 ≤ s.clock then
      let ip := s.tcbNat t.vf t.idx 29 1
      let age := Nat.min 7 (ip / 8 % 8 + 1)
      (s.tcbPut t.vf t.idx 29 1 (ip % 8 + 8 * age)).setTask uid fun t => { t with agedAt := t.agedAt + 2400000 }
    else s

/-- CORESIDENT_SET_TIMEOUT (R274): a set that has not fully started 1 ms after its first member has its started members
pre-empted, and is then placed as one. -/
def evCoresidentSetTimeout (uid set : Nat) (s : State) : State :=
  match s.taskOf uid with
  | none => s
  | some t =>
    match t.setStart.lookup set with
    | none => s
    | some c =>
      if c + 2400000 ≤ s.clock && !s.setStarted t set then
        let members := s.setMembers t set
        (s.haltAll fun g => g.task = uid && members.contains g.gidx).setTask uid fun t =>
          { t with setStart := t.setStart.filter fun x => x.1 != set, setFailed := t.setFailed ++ [set] }
      else s

/-! ### Exit and retirement -/

/-- C after the finished indices that follow it (R156). -/
def advanceCursor : Nat → Nat → List Nat → Nat
  | 0, c, _ => c
  | n + 1, c, fin => if fin.contains c then advanceCursor n (c + 1) fin else c

/-- The cursor of a task moves from one value to another: the TCB's CURSOR, and the successors linked with a count that
it reaches (R156, R264, R269). -/
def State.reportCursor (s : State) (t : Task) (old new : Nat) : State :=
  if old = new then s
  else
    let hit (e : Nat × Nat) : Bool :=
      let n := Nat.min e.1 t.count
      e.1 != 0 && old < n && n ≤ new && (s.vf t.vf).validTask e.2
    ((s.successors t.vf t.idx).filter hit).foldl (fun s e => s.decPred t.vf e.2) (s.tcbPut t.vf t.idx 212 4 new)

/-- A group has nothing left to do (R119). -/
def State.groupDone (s : State) (g : Group) : Bool :=
  g.threads.all (fun t => t.place = .exited || t.place = .lent)
    && !(s.copies.any fun k => k.group = some g.uid) && !((s.fill ++ s.compute).any fun k => k.group = g.uid)
    && !(s.fab.reqs.any fun r => r.group = g.uid) && g.stx.isEmpty && g.arvs.isEmpty

/-- The deferred marks that still stand on a group's slots and tiles (R243). -/
def Group.markCount (g : Group) : Nat :=
  (g.tiles.filter fun t => t.mark.isSome).length + (g.weights.filter fun w => w.mark.isSome).length

/-- GROUP_EXIT (R119, R156): its pins end, and once what they wrote home has performed, its resources are released, its marks
counted (R243), and the cursor moves; slots that it has lent stay with their gleans (R251). -/
def evGroupExit (gi : Nat) (s : State) : State :=
  match s.groups[gi]? with
  | none => s
  | some g =>
    let s := if s.groupDone g then (s.unpin g.uid).dropFills g.uid else s
    if !s.groupDone g then s
    else
      let s := (List.range g.markCount).foldl (fun s _ => s.note .mark) { s with groups := s.groups.eraseIdx gi }
      match s.taskOf g.task with
      | none => s
      | some t =>
        let fin := t.finished ++ [g.gidx]
        let c := advanceCursor fin.length t.cursor fin
        let s := s.setTask t.uid fun t => { t with
          cursor := c
          finished := fin.filter fun i => c ≤ i
          placed := t.placed.filter fun i => i != g.gidx }
        s.reportCursor t t.cursor c

/-- TASK_RETIRE (R275): STATE, the successors, the arena, the notice, and the gang entry of a timed task (R336). -/
def evTaskRetire (uid : Nat) (s : State) : State :=
  match s.taskOf uid with
  | none => s
  | some t =>
    if t.cursor != t.count || s.groups.any fun g => g.task = uid then s
    else
      let all := (s.successors t.vf t.idx).filter fun e => e.1 = 0 && (s.vf t.vf).validTask e.2
      let s := s.dropTask t.vf t.idx
      let s := s.tcbPut t.vf t.idx 29 1 0
      let s := s.tcbPut t.vf t.idx 30 1 4
      let s := all.foldl (fun s e => s.decPred t.vf e.2) s
      let s := if t.dropArena then s.dropArena t.vf t.arena else s
      let free (e : Gang) : Gang := if e.task = t.idx && e.state = 2 then { e with task := 0, state := 1 } else e
      let s := s.setVf t.vf fun v => { v with gangs := v.gangs.map free }
      s.completionNotice t.vf t.idx 4 0

/-- PLACEMENT (R273). -/
def execPlacement (part : Nat) (s : State) : Host.Outcome State Fault Refusal := .next (evPlacement part s)
/-- RESTORE (R326). -/
def execRestore (i cl : Nat) (s : State) : Host.Outcome State Fault Refusal := .next (evRestore i cl s)
/-- AGING_TICK (R271). -/
def execAgingTick (task : Nat) (s : State) : Host.Outcome State Fault Refusal := .next (evAgingTick task s)
/-- CORESIDENT_SET_TIMEOUT (R274). -/
def execCoresidentSetTimeout (task set : Nat) (s : State) : Host.Outcome State Fault Refusal :=
  .next (evCoresidentSetTimeout task set s)
/-- GROUP_EXIT (R119). -/
def execGroupExit (g : Nat) (s : State) : Host.Outcome State Fault Refusal := .next (evGroupExit g s)
/-- TASK_RETIRE (R275). -/
def execTaskRetire (task : Nat) (s : State) : Host.Outcome State Fault Refusal := .next (evTaskRetire task s)

end Sys2Proof.Machine
end

