-- ==== Sys2Proof/Machine/FabricOps.lean ====
section
/-! DEFINITION. The fabric (R378 to R388): requests that reach this chip's windows, responses, the link layer, node
loss, windows and imports with their revocation; notification targets (R391). -/

namespace Sys2Proof.Machine

/-! ### The exporter -/

/-- What the exporter's first three checks answer (R387, R388): a kind of refusal, or the window. -/
def State.windowFor (s : State) (f : Flit) (right : Window → Bool) : Except Nat Window :=
  match s.fab.windows[f.win]? with
  | none => .error 7
  | some w =>
    let open_ : Bool := w.state = 1 && w.gen = f.gen
    let late : Bool := w.state = 2 && (w.gen + 255) % 256 = f.gen && f.path / 2 % 2 = 1 && w.markers.contains f.node
    if !(open_ || late) then .error 7
    else if w.owner != f.owner then .error 7
    else if !right w || w.pages * 4096 < f.off + f.width then .error 8
    else .ok w

/-- Where a request leads at the exporter: a place in memory, a place in a scratchpad of a group, a refusal, an answer
that its arena gives, a line held by a pin, or a page that Furze has still to map or to deny (R367). -/
inductive Goal where
  | mem (vf pa arena : Nat)
  | bank (w : Window)
  | refuse (kind : Nat)
  | stale
  | sealed
  | pinned (line : Nat)
  | later

/-- The checks of R387 in their order for a request, a pin apart. -/
def State.place (s : State) (f : Flit) (right : Window → Bool) (write : Bool) : Goal :=
  match s.windowFor f right with
  | .error k => .refuse k
  | .ok w =>
    if w.kind then (if write then .bank w else .refuse 8)
    else
      match s.xlateNow w.vf (w.base + f.off) { r := !write, w := write } with
      | .ok pa arena =>
        if (s.vf w.vf).staleAt arena then .stale
        else if write && (s.vf w.vf).sealedAt arena then .sealed
        else .mem w.vf pa arena
      | .pmiss _ => .later
      | _ => .refuse 8

/-- Where a request that a pin can refuse leads (R186, R387). -/
def State.goal (s : State) (f : Flit) (right : Window → Bool) (write : Bool) : Goal :=
  match s.place f right write with
  | .mem vf pa arena => if s.ms.refuses none (pa / 128) then .pinned (pa / 128) else .mem vf pa arena
  | g => g

/-- A refused or failed request: it is answered, and counted only (R385). -/
def State.refuseFlit (s : State) (f : Flit) (kind : Nat) : State := (s.note .frame).respond f kind 0 []

/-- The key under which a refused request of another chip waits: its tag and its node. -/
def flitKey (f : Flit) : Key := { t := f.tag, gl := f.node }

/-- A request or a core's access that meets a pinned line waits (R186; log 95). -/
def State.pinWait (s : State) (line : Nat) (k : Key) : State := { s with ms := s.ms.noteRefused line 0 k }

/-- What a request or a core's access was refused is served (R186). -/
def State.pinServed (s : State) (k : Key) : State := { s with ms := s.ms.served 0 k }

/-- A read request at the exporter: a line with an uncorrectable error is answered ERROR (R378, R387). -/
def State.serveRead (f : Flit) (s : State) : State × Bool :=
  match s.goal f Window.r false with
  | .mem vf pa arena =>
    let s := s.pinServed (flitKey f)
    if s.errs pa then (s.refuseFlit f 8, true)
    else
      let (s, b) := s.load pa f.width
      ((s.engineLine none vf arena pa).respond f 5 0 b, true)
  | .stale => (s.respond f 5 1 (List.replicate f.width 0), true)
  | .sealed => (s.respond f 5 0 [], true)
  | .bank _ => (s.refuseFlit f 8, true)
  | .refuse k => (s.refuseFlit f k, true)
  | .pinned l => (s.pinWait l (flitKey f), false)
  | .later => (s, false)

/-- FOLAK_READ (R381, R387). -/
def evFolakRead (f : Flit) (s : State) : State := s.arrived (.read f) (State.serveRead f)

/-- A stamp of 48 bits as the nearer of the two 64-bit times to the local clock (R339). -/
def State.extend (s : State) (stamp : Nat) : Nat :=
  let hi := s.ns / 2 ^ 48 * 2 ^ 48 + stamp % 2 ^ 48
  let dist (x : Nat) : Nat := if x ≤ s.ns then s.ns - x else x - s.ns
  let other := if hi ≤ s.ns then hi + 2 ^ 48 else hi - 2 ^ 48
  if dist other < dist hi then other else hi

/-- A member's window for context-state frames closes (R341, R348): T + GUARD, or every member's FLUSH. -/
def Gang.windowShut (g : Gang) (ns : Nat) : Bool :=
  if g.byTime then g.time + g.guard * 1000 ≤ ns else (List.range g.gmemb).all g.flushed.contains

/-- A write for a gang group comes too late: its stamp does not lie before T, or it arrives once the window has closed (R341,
R348). -/
def State.bankLate (s : State) (t : Task) (f : Flit) : Bool :=
  match (s.vf t.vf).gangs.find? fun (e : Gang) => e.task = t.idx && t.idx != 0 with
  | some e =>
    let timed : Bool := (e.state = 3 && !e.mode) || (e.state = 4 && e.byTime)
    e.state = 5 || e.state = 6 || (e.state = 4 && e.windowShut (s.ns - 1))
      || (timed && (decide (e.time ≤ s.extend f.stamp) || decide (e.time + e.guard * 1000 < s.ns)))
  | none => false

/-- The gang of a task stops: its saved groups take writes in their frames (R341, R342). -/
def State.gangStops (s : State) (t : Task) : Bool :=
  (s.vf t.vf).gangs.any fun e => e.task = t.idx && t.idx != 0 && (e.state = 3 || e.state = 4)

/-- A group with bytes written at an offset into its shadow bank (R164, R386). -/
def Group.bankPut (off : Nat) (data : List Byte) (g : Group) : Group :=
  { g with scratch := Memory.writeN g.scratch (g.shadowOffset (g.launch.scratch + off)) data }

/-- A write into the exchange banks of a gang group (R341, R342, R386): it is applied to the shadow bank, of a group that is saved
in its frame, while its stamp lies before T and the window of T + GUARD is open; one that comes too late is answered REVOKED. A
group that has not started, or is saved while its gang does not stop, makes the write wait (R155): it came in time. -/
def State.bankWrite (s : State) (waited : Bool) (f : Flit) (w : Window) : State × Bool :=
  let gidx := w.base / 2 ^ 24
  match (s.taskAt w.vf (w.base % 2 ^ 24)).bind fun i => s.tasks[i]? with
  | none => (s.refuseFlit f 7, true)
  | some t =>
    if !waited && s.bankLate t f then (s.refuseFlit f 7, true)
    else if t.launch.exch < f.off + f.data.length then (s.refuseFlit f 8, true)
    else
      match s.groups.findIdx? fun g => g.task = t.uid && g.gidx = gidx with
      | some gi => ((s.setGroup gi (Group.bankPut f.off f.data)).respond f 6 0 [], true)
      | none =>
        match t.saved.findIdx? fun x => x.group.gidx = gidx with
        | some j =>
          if s.gangStops t then
            let x := t.saved.map fun x => { x with group := if x.group.gidx = gidx then x.group.bankPut f.off f.data else x.group }
            let s := s.setTask t.uid fun t => { t with saved := x }
            ((match x[j]? with
              | some y => s.writeFrame t y
              | none => s).respond f 6 0 [], true)
          else (s, false)
        | none => if t.cursor ≤ gidx && !t.finished.contains gidx then (s, false) else (s.refuseFlit f 8, true)

/-- A write request at the exporter (R387). -/
def State.serveWrite (waited : Bool) (f : Flit) (s : State) : State × Bool :=
  match s.goal f Window.w true with
  | .mem vf pa arena =>
    let s := s.pinServed (flitKey f)
    ((s.store none vf arena pa f.data).respond f 6 0 [], true)
  | .bank w => s.bankWrite waited f w
  | .stale => (s.respond f 6 1 [], true)
  | .sealed => ((s.note .store).respond f 6 2 [], true)
  | .refuse k => (s.refuseFlit f k, true)
  | .pinned l => (s.pinWait l (flitKey f), false)
  | .later => (s, false)

/-- FOLAK_WRITE (R381, R387). -/
def evFolakWrite (f : Flit) (s : State) : State :=
  let waited : Bool := s.fab.inbox.any fun d => d.waits && d.flit = .write f
  s.arrived (.write f) (State.serveWrite waited f)

/-- An atomic request at the exporter (R193, R387): the old value is answered; the operand stands first, and the new value of
`.cas` after it. -/
def State.serveAtomic (f : Flit) (s : State) : State × Bool :=
  let n := f.width
  let v := leNat (f.data.take n)
  let v2 := leNat ((f.data.drop n).take n)
  match s.goal f Window.a true with
  | .mem vf pa arena =>
    let s := s.pinServed (flitKey f)
    if s.errs pa then (s.refuseFlit f 8, true)
    else
      let (s, b) := s.load pa n
      ((s.store none vf arena pa (natBytes n (atomNew f.op.toNat f.ty.toNat (leNat b) v v2))).respond f 5 0 b, true)
  | .stale => (s.respond f 5 1 (List.replicate n 0), true)
  | .sealed =>
    (match s.goal f Window.a false with
      | .mem _ pa _ => (((s.load pa n).1.note .store).respond f 5 0 (s.load pa n).2, true)
      | .pinned l => (s.pinWait l (flitKey f), false)
      | _ => (s.refuseFlit f 8, true))
  | .bank _ => (s.refuseFlit f 8, true)
  | .refuse k => (s.refuseFlit f k, true)
  | .pinned l => (s.pinWait l (flitKey f), false)
  | .later => (s, false)

/-- FOLAK_ATOMIC (R193, R381). -/
def evFolakAtomic (f : Flit) (s : State) : State := s.arrived (.atomic f) (State.serveAtomic f)

/-- A reduction request at the exporter (R188, R196, R387): a contribution is staged as a partial at the home, where no pin
refuses it; only a partial of another operation or type there, whose recall a pin delays, holds it up. A contribution that
crosses a line is answered ERROR (log 99). -/
def State.serveReduction (f : Flit) (s : State) : State × Bool :=
  let op := f.op.toNat
  let ty := f.ty.toNat
  match s.place f Window.a true with
  | .mem vf pa arena =>
    let other : Bool := s.ms.partials.any fun p => p.differs Config.clusters pa op ty f.width
    if 128 < pa % 128 + f.width then (s.refuseFlit f 8, true)
    else if other && s.ms.refuses none (pa / 128) then (s.pinWait (pa / 128) (flitKey f), false)
    else
      let s := if other then s.recall (pa / 128) else s
      (((s.pinServed (flitKey f)).addPartial Config.clusters vf arena pa op ty f.width (leNat f.data)).respond f 6 0 [], true)
  | .stale => (s.respond f 6 1 [], true)
  | .sealed => ((s.note .store).respond f 6 2 [], true)
  | .bank _ => (s.refuseFlit f 8, true)
  | .refuse k => (s.refuseFlit f k, true)
  | .pinned l => (s.pinWait l (flitKey f), false)
  | .later => (s, false)

/-- FOLAK_REDUCTION (R188, R381). -/
def evFolakReduction (f : Flit) (s : State) : State := s.arrived (.reduction f) (State.serveReduction f)

/-! ### The initiator -/

/-- The request that a response answers (R381); a frame reaches only state of its own owner (R385). -/
def State.reqOf (s : State) (f : Flit) : Option Req :=
  s.fab.reqs.find? fun r => r.tag = f.tag && r.node = f.node && r.owner = f.owner

/-- A request that has been answered is gone. -/
def State.endReq (s : State) (r : Req) : State :=
  { s with fab := { s.fab with reqs := s.fab.reqs.filter fun x => x.tag != r.tag } }

/-- An outstanding result arrives with a mark (R25, R378); its value is not stated (log 7). -/
def State.markOut (s : State) (tag : Nat) (m : MarkKind) : State :=
  let x := (Config.freeWord (s.nonce * 65536 + 60000)).toNat + 2 ^ 32 * (Config.freeWord (s.nonce * 65536 + 60001)).toNat
  let fix (o : Out) : Out := if o.tag = tag && !o.ready then
      { o.arrive tag x with regs := (o.arrive tag x).regs.map fun r => (r.1, r.2.1, some m) } else o
  let grp (g : Group) : Group := { g with outs := g.outs.map fix }
  { s with
    nonce := s.nonce + 2
    groups := s.groups.map grp
    tasks := s.tasks.map fun t => { t with saved := t.saved.map fun y => { y with group := grp y.group } } }

/-- A refused write of a copy ends the part that sent it, which has not ended, and its unit does not count as written; the
request names the unit (R219, R388). -/
def State.failCopy (s : State) (r : Req) (status : Nat) : State :=
  let fail (p : CPart) : CPart :=
    if (p.status.isNone || p.status = some 0) && !p.ended && r.out - 2 < p.unit then
      { p with status := some status, unit := r.out - 2 }
    else if p.status.isSome && p.status != some 0 && !p.ended then { p with unit := Nat.min p.unit (r.out - 2) }
    else p
  (s.setCopy r.copy fun k => { k with parts := k.parts.map fail }).endParts r.copy

/-- A request of a matrix command of the package. -/
def State.isMx (s : State) (id : Nat) : Bool := (s.fill ++ s.compute).any fun k => k.id = id

/-- A line that a copy or matrix command has asked for arrives: its bytes; for a copy instead of them the status that its
unit takes, for a command the class of its mark (R219, R237, R378). -/
def State.lineCame (s : State) (r : Req) (data : List Byte) (status cls : Nat) : State :=
  if s.isMx r.copy then s.setMx r.copy fun k => { k with far := k.far ++ [(r.pa / 128, data, cls)] }
  else s.setCopy r.copy fun k =>
    { k with far := k.far ++ [(r.pa / 128, if status = 0 then data else [BitVec.ofNat 8 status])] }

/-- A line of another chip comes to the cluster of the group that asked for it, for the access of its sheaf: its bytes, none where
the exporter found an error, and none as they stand where it found an old generation (R185, R378); one whose arena has changed
meanwhile is dropped (R285). -/
def State.fillCame (s : State) (r : Req) (data old : List Byte) : State :=
  match (s.groupOf r.group).bind fun gi => s.groups[gi]? with
  | none => s
  | some g =>
    if (s.vf g.vf).staleAt r.arena || (s.farFill g.cl g.uid (r.pa / 128) r.key).isSome then s
    else
      let x : FarLine := { cl := g.cl, group := g.uid, key := r.key, line := r.pa / 128, vf := g.vf, arena := r.arena
                           data := data, old := old }
      { s with ms := { s.ms with far := s.ms.far ++ [x] } }

/-- What waited for answers goes on where it can: fences (R213) and arrivals (R206, R211). -/
def State.answered (s : State) : State := s.sweepFences.retryAll

/-- A data response: for a command or a cluster the line it waits for, for a thread its result, for a core its value; operation 1
says that the access met an old generation (log 15). A fill that has become void serves nobody (R180). -/
def State.dataCame (f : Flit) (s : State) : State :=
  match s.reqOf f with
  | none => s.note .frame
  | some r =>
    let s := s.endReq r
    let old : Bool := f.op = 1
    let s :=
      if r.copy != 0 then (if old then s.lineCame r [] 1 7 else s.lineCame r f.data 0 0)
      else if r.cls = 64 then (if old then s.fillCame r [] f.data else s.fillCame r f.data f.data)
      else match r.core with
        | some (vf, core) =>
          { s with msgs := s.msgs ++ [if old then .accessFault vf core (BitVec.ofNat 64 r.pa) false else .value vf core f.data] }
        | none => if r.out = 0 then s else if old then s.markOut r.out .stale else s.answerOut r.out (leNat f.data)
    s.answered

/-- FOLAK_DATA_RESPONSE (R381). -/
def evFolakDataResponse (f : Flit) (s : State) : State := s.arrived (.data f) fun s => (s.dataCame f, true)

/-- A drain's write met a sealed arena at its exporter: its tile takes the mark (R243, R296). -/
def State.drainSealed (s : State) (r : Req) : State :=
  match (s.fill ++ s.compute).find? fun k => k.id = r.copy with
  | none => s
  | some k => match s.groupOf k.group with
    | some gi => s.setGroup gi fun g => { g with tiles := modAt g.tiles k.e.op0.index (Tile.marked 8 k.site) }
    | none => s

/-- An acknowledgement: an old generation or a sealed arena at the exporter ends a copy, loses the token of an aperture copy, which
is counted, and a seal marks a drain's tile (R229, R292, R296). -/
def State.ackCame (f : Flit) (s : State) : State :=
  match s.reqOf f with
  | none => s.note .frame
  | some r =>
    let s := s.endReq r
    let s := if r.cls = 256 then (if f.op = 1 ∨ f.op = 2 then s.note .status else s)
      else if r.copy = 0 then s
      else if s.isMx r.copy then (if f.op = 2 then s.drainSealed r else s)
      else if f.op = 1 then s.failCopy r 1
      else if f.op = 2 then s.failCopy r 5 else s
    s.answered

/-- FOLAK_ACKNOWLEDGEMENT (R381). -/
def evFolakAcknowledgement (f : Flit) (s : State) : State := s.arrived (.ack f) fun s => (s.ackCame f, true)

/-- A request fails with a copy status, and with an ECC mark on a thread's result or a command's operand (R378); a core's load
takes its exception, and a token that is lost is counted (R229). -/
def State.failReq (s : State) (r : Req) (status : Nat) : State :=
  let s := s.endReq r
  if r.cls = 256 then s.note .status
  else if r.copy != 0 then
    (if r.out = 1 then s.lineCame r [] status 16 else if s.isMx r.copy then s else s.failCopy r status)
  else if r.cls = 64 then s.fillCame r [] []
  else match r.core with
    | some (vf, core) => { s with msgs := s.msgs ++ [.accessFault vf core (BitVec.ofNat 64 r.pa) false] }
    | none => if r.out = 0 then s else s.markOut r.out .ecc

/-- A request is answered REVOKED or ERROR (R219, R378). -/
def State.refusalCame (status : Nat) (f : Flit) (s : State) : State :=
  match s.reqOf f with
  | none => s.note .frame
  | some r => (s.failReq r status).answered

/-- FOLAK_REVOKED (R381, R388): a copy ends with status 2. -/
def evFolakRevoked (f : Flit) (s : State) : State := s.arrived (.revoked f) fun s => (s.refusalCame 2 f, true)

/-- FOLAK_ERROR (R378): a copy ends with FAULT status. -/
def evFolakError (f : Flit) (s : State) : State := s.arrived (.error f) fun s => (s.refusalCame 4 f, true)

/-! ### The link layer -/

/-- Flits that wait for a port are sent where one carries them now (R379, R382). -/
def State.sendWaiting (s : State) : State :=
  let xs := s.fab.waiting
  xs.foldl (fun s x => s.transmit x.1 x.2) { s with fab := { s.fab with waiting := [] } }

/-- A frame of LSEQ l is acknowledged by LACK a (R380, R382). -/
def acked (a l : Nat) : Bool := (a + 4096 - l) % 4096 < 2048

/-- The owner that an SCI names: its port identifier less 0x0100 (R383). -/
def Frame.owner (f : Frame) : Option Nat :=
  let id := f.sci % 2 ^ 16
  if 0x100 ≤ id ∧ id < 0x200 then some (id - 0x100) else none

/-- The flits of 64 bytes of a received frame (R380, R381). -/
def Frame.cells (f : Frame) : Nat := (f.flits.map fun x => 1 + dataFlits (flitSize x)).sum

/-- A frame that is dropped is counted by the owner that its SCI names (R384). -/
def State.dropFrame (s : State) (owner : Nat) : State :=
  let d := s.fab.drops
  let up (x : Nat × Nat) : Nat × Nat := if x.1 = owner then (x.1, x.2 + 1) else x
  let d := if d.any fun x => x.1 = owner then d.map up else d ++ [(owner, 1)]
  { s with fab := { s.fab with drops := d } }

/-- FOLAK_FRAME (R380 to R385): a frame with an unknown SCI, a failed check, a replayed packet number or no proper count of flits is
dropped and counted by owner; otherwise its LACK frees what it acknowledges, and one whose LSEQ is the next in order is received:
its flits, under its owner, are delivered once and in order. -/
def evFolakFrame (f : Frame) (s : State) : State :=
  match s.fab.ports[f.port]?, Frame.owner f with
  | some p, some owner =>
    let top := (p.rpn.lookup owner).getD 0
    if !p.carries owner || !f.secured || f.pn ≤ top || Frame.cells f < 1 || 8 < Frame.cells f then s.dropFrame owner
    else
      let inOrder : Bool := f.lseq = (p.lack + 1) % 4096
      let next (p : Port) : Port := { p with
        rpn := (owner, f.pn) :: p.rpn.filter fun x => x.1 != owner
        unacked := p.unacked.filter fun x => !acked f.lack x.lseq
        lack := if inOrder then f.lseq else p.lack }
      let new : List Delivery := if inOrder then f.flits.map fun x => { port := f.port, waits := false, flit := flitUnder owner x } else []
      { s with fab := { s.fab with ports := modAt s.fab.ports f.port next, inbox := s.fab.inbox ++ new } }
  | some _, none => s.dropFrame 256
  | none, _ => s.note .frame

/-- Nodes that have no route from now on (R382). -/
def State.noteLost (s : State) : State :=
  let gone := (s.fab.routes.map Prod.fst).filter fun n =>
    !s.fab.hasRoute n && !s.fab.lost.contains n && !(s.fab.lostSince.any fun x => x.1 = n)
  { s with fab := { s.fab with lostSince := gone.map (fun n => (n, s.clock)) ++ s.fab.lostSince } }

/-- LINK_RETRANSMIT (R382): frames unacknowledged for 2 µs are sent again under fresh packet numbers; after 16 sendings
the link goes DOWN and its flits take the next port of their route. -/
def evLinkRetransmit (port : Nat) (s : State) : State :=
  match s.fab.ports[port]? with
  | none => s
  | some p =>
    let due (x : SentFrame) : Bool := x.last + 4800 ≤ s.clock
    if !p.up || !p.unacked.any due then s
    else if p.unacked.any fun x => due x && 16 ≤ x.sends then
      let flits := p.unacked.flatMap fun x => x.flits.map fun y => (x.owner, y)
      let down (p : Port) : Port := { p with up := false, unacked := [] }
      let s := { s with fab := { s.fab with ports := modAt s.fab.ports port down } }
      flits.foldl (fun s x => s.transmit x.1 x.2) s.noteLost
    else
      let again (p : Port) (x : SentFrame) : Port :=
        if due x && p.live x.owner then
          { p with
            pn := p.pn + 1
            unacked := p.unacked ++ [{ x with sends := x.sends + 1, last := s.clock, lack := p.lack, pn := p.pn + 1 }] }
        else { p with unacked := p.unacked ++ [x] }
      { s with fab := { s.fab with ports := modAt s.fab.ports port fun p => p.unacked.foldl again { p with unacked := [] } } }

/-- LINK_UP (R382): a trained port's link comes up again, and its routes may use it. -/
def evLinkUp (port : Nat) (s : State) : State :=
  match s.fab.ports[port]? with
  | none => s
  | some p =>
    if !p.trained || p.up then s
    else
      let s := { s with fab := { s.fab with ports := modAt s.fab.ports port fun p => { p with up := true } } }
      let has (n : Nat) : Bool := s.fab.hasRoute n
      { s with fab := { s.fab with
        lostSince := s.fab.lostSince.filter fun x => !has x.1
        lost := s.fab.lost.filter fun n => !has n } }.sendWaiting

/-- MKA_SAK_INSTALL (R384): for a port and an owner that the applied record lists; the packet numbers and the replay check start
afresh under the new key. -/
def evMkaSakInstall (port owner sak : Nat) (s : State) : State :=
  let listed : Bool := match s.chip.applied with
    | some r => r.owners.contains (port, owner)
    | none => false
  match s.fab.ports[port]? with
  | none => s
  | some p =>
    if !p.trained || !listed then s
    else
      let next (p : Port) : Port := { p with
        saks := (owner, sak, p.pn) :: p.saks.filter fun x => x.1 != owner
        rpn := p.rpn.filter fun x => x.1 != owner }
      { s with fab := { s.fab with ports := modAt s.fab.ports port next } }.sendWaiting

/-! ### Windows and imports -/

/-- The window of an index. -/
def State.window (s : State) (w : Nat) : Window := s.fab.windows.getD w Window.reset

/-- A window with a change. -/
def State.setWindow (s : State) (w : Nat) (f : Window → Window) : State :=
  { s with fab := { s.fab with windows := modAt s.fab.windows w f } }

/-- A REVOKING window whose markers have all arrived becomes FREE, and the exporter's OS takes a notice of kind 6 with
the window index (R388); the notice goes to the pager's target (log 16). -/
def State.settleWindow (s : State) (w : Nat) : State :=
  let x := s.window w
  if x.state = 2 && x.markers.isEmpty then
    (s.setWindow w fun x => { x with state := 0, importers := [] }).post x.vf (s.vf x.vf).pager w 6 0 0 0
  else s

/-- WINDOW_EXPORT (R383, R386): a FREE entry opens under the owner of its VF; a request that the map does not allow, or under another
owner, is refused. -/
def evWindowExport (w : Nat) (r : WindowReq) (s : State) : State :=
  let x := s.window w
  let ok : Bool := w < 256 && r.vf < 128 && x.state = 0 && r.owner < 256 && r.owner = (s.vf r.vf).owner && 1 ≤ r.pages && r.pages < 2 ^ 24
    && (if r.banks then r.w && !r.r && !r.a && r.base < 2 ^ 56 else r.base % 4096 = 0 && r.base < 2 ^ 56)
  if ok then
    s.setWindow w fun x =>
      { x with base := r.base, pages := r.pages, owner := r.owner, vf := r.vf, a := r.a, w := r.w, r := r.r, kind := r.banks
               state := 1, importers := r.importers, markers := [] }
  else s.note .command

/-- A 4 KiB physical page lies in import j. -/
def inImportOf (j page : Nat) : Bool := inImport (page * 4096) && field (page * 4096) 36 8 = j

/-- WINDOW_IMPORT (R387): Furze installs an import once the exporter has confirmed OWNER; no cluster keeps a line, and no table or
TLB a translation, of the import that it replaces. -/
def evWindowImport (j : Nat) (r : ImportReq) (s : State) : State :=
  match s.fab.imports[j]? with
  | none => s.note .command
  | some x =>
    if !r.confirmed || (x.used && !x.revoked) then s.note .command
    else
      let new : Import := { used := true, vf := r.vf, node := r.node, win := r.win, gen := r.gen, pages := r.pages, r := r.r
                            w := r.w, a := r.a, revoked := false }
      let stays (t : Tlb) : Bool := !inImportOf j t.pa
      let unmap (v : VF) : VF := { v with pmap := v.pmap.filter fun m => !inImportOf j m.pa }
      { s with
        ms := { s.ms with
          far := s.ms.far.filter fun x => !inImportOf j (x.line / 32)
          tlb := s.ms.tlb.filter stays
          tlb2 := s.ms.tlb2.filter stays }
        vfs := s.vfs.map unmap
        fab := { s.fab with imports := s.fab.imports.set j new } }

/-- A control flit for a node (R381, R388): operation 1 is a revoke, 2 a drain marker (log 15). -/
def control (s : State) (node win op : Nat) (data : List Byte) : SentFlit :=
  { kind := 9, node := node, path := 0, stamp := s.stamp, tag := 0, win := win, gen := 0, off := 0, init := ownNode, op := op, width := 0
    data := data }

/-- WINDOW_REVOKE (R388): the revoke point, and a control flit to each importer; no marker is awaited of a lost node. -/
def evWindowRevoke (w : Nat) (s : State) : State :=
  let x := s.window w
  if x.state != 1 then s.note .command
  else
    let s := s.setWindow w fun x =>
      { x with state := 2, gen := (x.gen + 1) % 256, markers := x.importers.filter fun n => !s.fab.lost.contains n }
    (x.importers.foldl (fun s n => s.transmit x.owner (control s n w 1 [])) s).settleWindow w

/-- A revoke control flit under an owner reaches the importer (R369, R385, R388): the imports of that owner's VFs are marked revoked
for every cluster, so that copies stop at their next unit; earlier V-path requests have been sent, and a drain marker returns, also
where no import is left. -/
def State.revokeCame (owner node w : Nat) (s : State) : State :=
  let hit (x : Import) : Bool := x.used && x.node = node && x.win = w && (s.vf x.vf).owner = owner
  let mark (x : Import) : Import := if hit x then { x with revoked := true } else x
  let s := { s with fab := { s.fab with imports := s.fab.imports.map mark } }
  s.transmit owner (control s node w 2 [])

/-- REVOKE_FLIT (R369, R388). -/
def evRevokeFlit (node w : Nat) (s : State) : State :=
  let under (d : Delivery) : Option Nat := match d.flit with
    | .revoke owner n i => if n = node ∧ i = w then some owner else none
    | _ => none
  match s.fab.inbox.findSome? under with
  | some owner => s.arrived (.revoke owner node w) fun s => (s.revokeCame owner node w, true)
  | none => s

/-- A drain marker of an importer reaches the exporter: one under another owner is dropped and counted (R385, R388). -/
def State.drainCame (owner node w : Nat) (s : State) : State :=
  if (s.window w).owner = owner then
    (s.setWindow w fun x => { x with markers := x.markers.filter fun n => n != node }).settleWindow w
  else s.note .frame

/-- DRAIN_MARKER (R388). -/
def evDrainMarker (w node : Nat) (s : State) : State :=
  let under (d : Delivery) : Option Nat := match d.flit with
    | .drain owner n i => if n = node ∧ i = w then some owner else none
    | _ => none
  match s.fab.inbox.findSome? under with
  | some owner => s.arrived (.drain owner node w) fun s => (s.drainCame owner node w, true)
  | none => s

/-- NODE_LOSS (R382): 1 ms without a route. Its imports count as revoked, its outstanding requests end as R378 states,
and windows that wait for its markers settle (R388). -/
def evNodeLoss (node : Nat) (s : State) : State :=
  match s.fab.lostSince.lookup node with
  | none => s
  | some c =>
    if s.clock < c + 2400000 then s
    else
      let mark (x : Import) : Import := if x.used && x.node = node then { x with revoked := true } else x
      let s := { s with fab := { s.fab with
        imports := s.fab.imports.map mark
        lostSince := s.fab.lostSince.filter fun x => x.1 != node
        lost := node :: s.fab.lost
        waiting := s.fab.waiting.filter fun x => x.2.node != node } }
      let s := (s.fab.reqs.filter fun r => r.node = node).foldl (fun s r => s.failReq r 4) s
      let s := (List.range 256).foldl (fun s w =>
        if (s.window w).state = 2 then
          (s.setWindow w fun x => { x with markers := x.markers.filter fun n => n != node }).settleWindow w
        else s) s
      s.answered

/-! ### Targets -/

/-- TREG (R391): a notification target is registered with the ring at RING, or unregistered; a store that breaks the map
is discarded and counted. -/
def evTreg (vf : Nat) (data : BitVec 64) (s : State) : State :=
  let x := data.toNat
  let hart := field x 48 16
  let tgt := field x 32 16
  let logn := field x 0 4
  if tgt = 0 || field x 4 28 != 0 || (logn != 0 && (logn < 4 || (s.vf vf).ring.toNat % 64 != 0)) then s.note .store
  else
    s.setVf vf fun v =>
      let rest := v.targets.filter fun t => t.tgt != tgt
      { v with targets := if logn = 0 then rest
                          else rest ++ [{ tgt := tgt, hart := hart, ring := v.ring.toNat, logn := logn, pend := false }] }

/-- FOLAK_READ (R381). -/
def execFolakRead (f : Flit) (s : State) : Host.Outcome State Fault Refusal := .next (evFolakRead f s)
/-- FOLAK_WRITE (R381). -/
def execFolakWrite (f : Flit) (s : State) : Host.Outcome State Fault Refusal := .next (evFolakWrite f s)
/-- FOLAK_ATOMIC (R381). -/
def execFolakAtomic (f : Flit) (s : State) : Host.Outcome State Fault Refusal := .next (evFolakAtomic f s)
/-- FOLAK_REDUCTION (R381). -/
def execFolakReduction (f : Flit) (s : State) : Host.Outcome State Fault Refusal := .next (evFolakReduction f s)
/-- FOLAK_DATA_RESPONSE (R381). -/
def execFolakDataResponse (f : Flit) (s : State) : Host.Outcome State Fault Refusal := .next (evFolakDataResponse f s)
/-- FOLAK_ACKNOWLEDGEMENT (R381). -/
def execFolakAcknowledgement (f : Flit) (s : State) : Host.Outcome State Fault Refusal := .next (evFolakAcknowledgement f s)
/-- FOLAK_REVOKED (R381). -/
def execFolakRevoked (f : Flit) (s : State) : Host.Outcome State Fault Refusal := .next (evFolakRevoked f s)
/-- FOLAK_ERROR (R378). -/
def execFolakError (f : Flit) (s : State) : Host.Outcome State Fault Refusal := .next (evFolakError f s)
/-- FOLAK_FRAME (R382). -/
def execFolakFrame (f : Frame) (s : State) : Host.Outcome State Fault Refusal := .next (evFolakFrame f s)
/-- LINK_RETRANSMIT (R382). -/
def execLinkRetransmit (port : Nat) (s : State) : Host.Outcome State Fault Refusal := .next (evLinkRetransmit port s)
/-- LINK_UP (R382). -/
def execLinkUp (port : Nat) (s : State) : Host.Outcome State Fault Refusal := .next (evLinkUp port s)
/-- NODE_LOSS (R382). -/
def execNodeLoss (node : Nat) (s : State) : Host.Outcome State Fault Refusal := .next (evNodeLoss node s)
/-- MKA_SAK_INSTALL (R384). -/
def execMkaSakInstall (port owner : Nat) (sak : Nat) (s : State) : Host.Outcome State Fault Refusal :=
  .next (evMkaSakInstall port owner sak s)
/-- WINDOW_EXPORT (R386). -/
def execWindowExport (w : Nat) (r : WindowReq) (s : State) : Host.Outcome State Fault Refusal := .next (evWindowExport w r s)
/-- WINDOW_IMPORT (R387). -/
def execWindowImport (j : Nat) (r : ImportReq) (s : State) : Host.Outcome State Fault Refusal := .next (evWindowImport j r s)
/-- WINDOW_REVOKE (R388). -/
def execWindowRevoke (w : Nat) (s : State) : Host.Outcome State Fault Refusal := .next (evWindowRevoke w s)
/-- REVOKE_FLIT (R388). -/
def execRevokeFlit (node w : Nat) (s : State) : Host.Outcome State Fault Refusal := .next (evRevokeFlit node w s)
/-- DRAIN_MARKER (R388). -/
def execDrainMarker (w node : Nat) (s : State) : Host.Outcome State Fault Refusal := .next (evDrainMarker w node s)
/-- TREG (R391). -/
def execTreg (vf : Nat) (data : BitVec 64) (s : State) : Host.Outcome State Fault Refusal := .next (evTreg vf data s)
end Sys2Proof.Machine
end

