-- ==== Sys2Proof/Machine/Stats.lean ====
section
/-! DEFINITION. Tensor statistics (R303 to R315): STATRD, STATFL, STATRST, QSCL, QNT with its `.stat` form, and the
pushes of windrow entries. -/

namespace Sys2Proof.Machine

/-- The checks of a record access of a thread: R300 with a record, then R134, 1 to 5, on the record's address (R313). -/
def State.checkRecord (s : State) (c : Cx) (h : Nat) : Chk :=
  match s.tensor c.g h true with
  | .error f => .bad f
  | .ok d => s.checkVa c d.record 1 { r := true }

/-- The record's address that a handle names. -/
def State.recordOf (s : State) (c : Cx) (h : Nat) : Nat := (Desc.of (s.descBits c.g.vf h)).record

/-- Writes ordered before a fresh read or a reset are still under way (R307 step 1). -/
def State.recordWaits (s : State) (c : Cx) (ts : List Thread) : Bool :=
  ts.any fun t => (s.fenceIds c.g t.key 15).any s.underWay.contains

/-- The two lines of a record, read at its home (R301, R307, R308). -/
def State.readRecord (s : State) (vf arena pa : Nat) : State × List Byte :=
  let (s, a) := s.load pa 128
  let (s, b) := s.load (pa + 128) 128
  ((s.atHome vf arena pa false).atHome vf arena (pa + 128) false, a ++ b)

/-- The line of a record that is group-held, so that merges into it are refused (R186, R305). -/
def State.pinnedLine (s : State) (pa : Nat) : Nat := if s.ms.refuses none (pa / 128) then pa / 128 else pa / 128 + 1

/-- The second line of a record. -/
def Hit.second (h : Hit) : Hit := { h with pa := h.pa + 128 }

/-- A line of a record at another chip that has not come yet, for the reads of a sheaf (R177, R313). -/
def State.missingRecord (s : State) (c : Cx) (hs : List Hit) : Option Hit := s.missingFar c (hs ++ hs.map Hit.second)

/-- Record accesses of threads by handle, for the instructions of R313 and QSCL: waits, pages, pinned lines, the lines of records
at another chip, and then the effect on each distinct handle (once, R313) and the effect per thread. -/
def recordGate (c : Cx) (s : State) (ts : List Thread) (h : Thread → Nat) (waits merges : Bool)
    (k : List Hit → State → Act) : Act :=
  gate c s ts (fun t => s.checkRecord c (h t)) false fun hs s =>
    if waits && s.recordWaits c ts then .stay (s.stalled c)
    else
      match hs.find? fun x => c.refused s x.second.pa with
      | some x => .stay (s.refuse c (x.second.pa / 128))
      | none =>
        match (if merges then hs.find? fun x => !(s.vf c.g.vf).staleAt x.arena
            && s.recordPinned c.g.vf (s.recordOf c (h x.t)) else none) with
        | some x => .stay (s.refuse c (s.pinnedLine x.pa))
        | none =>
          match s.missingRecord c hs with
          | some x => .stay (s.askFar c x)
          | none => k hs s

/-- The two lines of a record as a sheaf reads them: its bytes, or a mark (R177, R309, R313, R375); a line of another chip is the one
that has come for it. -/
def State.recordLines (s : State) (c : Cx) (h : Hit) : State × Except MarkKind (List Byte) :=
  if (s.vf c.g.vf).staleAt h.arena then (s, .error .stale)
  else if inImport h.pa then
    match c.near s h.pa, c.near s h.second.pa with
    | some x, some y =>
      if x.data.isEmpty || y.data.isEmpty then (s, .error (if x.old.isEmpty && y.old.isEmpty then .ecc else .stale))
      else (s, .ok (x.data ++ y.data))
    | _, _ => (s, .error .ecc)
  else if s.errs h.pa || s.errs h.second.pa then (s, .error .ecc)
  else
    let r := s.readRecord c.g.vf h.arena h.pa
    (r.1, .ok r.2)

/-- The fills of records at another chip have served (R185). -/
def State.recordsRead (s : State) (c : Cx) (hs : List Hit) : State := (hs ++ hs.map Hit.second).foldl (fun s h => s.settleFar c h) s

/-- The distinct handles of threads whose record is not of an old generation (R309, R313). -/
def freshHandles (c : Cx) (s : State) (h : Thread → Nat) (hs : List Hit) : List Nat :=
  ((hs.filter fun x => !(s.vf c.g.vf).staleAt x.arena).map fun x => h x.t).eraseDups

/-- The result of a record read of a thread (R308, R309, R313): a value, a stale mark, or an ECC mark. -/
def recordOut (c : Cx) (n : Nat) (f : Thread → List Byte → Nat) (x : State × List Out) (h : Hit × Nat) : State × List Out :=
  let t := h.1.t
  let r := x.1.recordLines c h.1
  let o (v : Nat) (m : Option MarkKind) : Out := c.out t.key ((c.dstN n v).map fun w => (w.1, w.2, m)) true 0
  match r.2 with
  | .error m => (r.1, x.2 ++ [o (r.1.freeNat h.2 n) (some m)])
  | .ok b => (r.1, x.2 ++ [o (f t b) none])

/-- The handle of a thread in OP1 (R312, R314). -/
def Cx.tensorHandle (c : Cx) (t : Thread) : Nat := c.g.src t 1 c.e.op1

/-- STATRD and QSCL (R307, R308, R313, R314): under `.fresh` every push first, then one read for each thread. -/
def recordRead (fresh : Bool) (n : Nat) (f : Thread → List Byte → Nat) (c : Cx) (s : State) : Act :=
  recordGate c s c.actS c.tensorHandle fresh fresh fun hs s =>
    let hl := freshHandles c s c.tensorHandle hs
    let s := if fresh then hl.foldl (fun s h => s.pushAll c.g.vf (s.recordOf c h)) s else s
    let r := hs.zipIdx.foldl (recordOut c n f) (s, [])
    .done ((r.1.recordsRead c hs).setGroup c.gi fun g => g.addOuts r.2)

/-- The bytes of the field that a STATRD selects (R312): registers, offset of the field, and its size. -/
def statField (field b : Nat) : Nat × Nat × Nat :=
  match field with
  | 0 => (1, 0, 4)
  | 1 => (1, 4, 4)
  | 2 => (1, 8, 4)
  | 3 => (1, 12, 4)
  | 4 => (2, 16, 8)
  | 5 => (1, 24, 4)
  | 6 => (1, 28, 4)
  | _ => (4, 32 + 4 * b, 16)

/-- STATRD (R313): with `.bins`, a first bin above 52 raises PROTECTION. -/
def statrdBody (c : Cx) (s : State) : Act :=
  let field := c.e.lo.toNat
  let bin (t : Thread) : Nat := if field = 7 then c.g.src t 1 c.e.op2 else 0
  let bad (t : Thread) : Option Flt :=
    match s.checkRecord c (c.tensorHandle t) with
    | .bad f => some f
    | .page _ => none
    | .ok _ _ => if 52 < bin t then some { cls := 6 } else none
  let bads := Cx.bads c.actS bad
  if !bads.isEmpty then .fault bads
  else
    recordRead (c.e.sc.toNat % 2 = 1) (statField field 0).1 (fun t b =>
      let x := statField field (bin t)
      leNat ((b.drop x.2.1).take x.2.2)) c s

/-- QSCL (R311, R314). -/
def qsclBody (c : Cx) (s : State) : Act :=
  recordRead (c.e.lo == 4) 1 (fun _ b => wrap 32 (deriveExp c.slot (Stat.ofBytes b).amax)) c s

/-- STATFL and STATRST (R310, R313): once for each distinct handle; no effect where the arena is of an old generation
(R309). -/
def recordAct (f : State → Nat → State) (c : Cx) (s : State) : Act :=
  recordGate c s c.act c.tensorHandle true true fun hs s =>
    .done ((freshHandles c s c.tensorHandle hs).foldl (fun s h => f s (s.recordOf c h)) s)

/-- The `.stat` form of QNT (R315): the first active thread reads the record and the scale comes from it; overflowing
elements contribute to it, and then RESCALE follows. -/
def qntStat (c : Cx) (s : State) : Act :=
  match c.act.head? with
  | none => .done s
  | some t =>
    let fresh := 4 ≤ c.e.lo.toNat
    let h := c.g.src t 1 c.e.op2
    recordGate c s [t] (fun _ => h) fresh fresh fun hs s =>
      match hs with
      | [] => .done s
      | hit :: _ =>
        let rec_ := s.recordOf c h
        let s := if fresh && !(s.vf c.g.vf).staleAt hit.arena then s.pushAll c.g.vf rec_ else s
        match s.recordLines c hit with
        | (_, .error m) => .fault [(t.key, { cls := m.cls })]
        | (s, .ok b) =>
          let sig : Thread → Option Int := fun _ => some (deriveExp c.slot (Stat.ofBytes b).amax)
          let s := c.act.foldl (fun s u =>
            let n := ((c.quantise u (sig u)).filter fun q => q.2.1).length
            s.contribute c.g.cl c.g.vf (c.g.uid, u.key) rec_ n (Stat.overflow n)) (s.recordsRead c hs)
          qntFinish h sig c s

/-- QNT (R107, R315). -/
def qntBody (c : Cx) (s : State) : Act :=
  if c.e.src = 3 then qntStat c s else qntFinish 0 c.sigma c s

/-! ### Pushes -/

/-- WINDROW_PUSH_TIMER (R305): the push timer of the i-th windrow entry has expired, P microseconds after its first
contribution; the entry leaves its slice. -/
def evWindrowPushTimer (i : Nat) (s : State) : State :=
  match s.ms.windrows[i]? with
  | none => s
  | some w =>
    if w.first + Config.clocksPerUs * s.chip.push.getD (w.vf / 16) 8 ≤ s.clock then
      { s with ms := { s.ms with windrows := s.ms.windrows.eraseIdx i, pushes := s.ms.pushes ++ [w.leave s.clock] } }
    else s

/-- The key under which a refused merge waits (R186, R305). -/
def Windrow.key (w : Windrow) : Key := { t := w.id, gl := 2 ^ 48 }

/-- WINDROW_MERGE (R305): the i-th pushed entry merges into the record at its home, unless a record line is
group-held: then it is refused until the pin ends (R186). -/
def evWindrowMerge (i : Nat) (s : State) : State :=
  match s.ms.pushes[i]? with
  | none => s
  | some w =>
    if s.recordPinned w.vf w.recVa then
      (match s.recordPlace w.vf w.recVa with
        | some (pa, _) => { s with ms := s.ms.noteRefused (s.pinnedLine pa) 0 w.key }
        | none => s)
    else { s with ms := { s.ms.served 0 w.key with pushes := s.ms.pushes.eraseIdx i } }.mergeHome w

/-- STATRD (R313). -/
def execStatrd (e : Ext) (s : State) : Host.Outcome State Fault Refusal := issueE .statrd e s statrdBody
/-- STATFL (R313). -/
def execStatfl (e : Ext) (s : State) : Host.Outcome State Fault Refusal :=
  issueE .statfl e s fun c s => recordAct (fun s a => s.pushAll c.g.vf a) c s
/-- STATRST (R310, R313). -/
def execStatrst (e : Ext) (s : State) : Host.Outcome State Fault Refusal :=
  issueE .statrst e s fun c s => recordAct (fun s a => s.resetRecord c.g.cl c.g.vf a) c s
/-- QSCL (R314). -/
def execQscl (e : Ext) (s : State) : Host.Outcome State Fault Refusal := issueE .qscl e s qsclBody
/-- QNT (R107, R315). -/
def execQnt (e : Ext) (s : State) : Host.Outcome State Fault Refusal := issueE .qnt e s qntBody
/-- WINDROW_PUSH_TIMER (R305). -/
def execWindrowPushTimer (i : Nat) (s : State) : Host.Outcome State Fault Refusal := .next (evWindrowPushTimer i s)
/-- WINDROW_MERGE (R305). -/
def execWindrowMerge (i : Nat) (s : State) : Host.Outcome State Fault Refusal := .next (evWindrowMerge i s)

end Sys2Proof.Machine
end

