-- ==== Sys2Proof/Machine/Bringup.lean ====
section
/-! DEFINITION. Bring-up (R403 to R411), partitions and VFs (R390 to R393), and plain register writes (R391, R394, R395,
R400). -/

namespace Sys2Proof.Machine

/-! ### Stages A and B -/

/-- POWER_GOOD (R403, R405, R406): everything is as at reset but the stored record and the memory, which nothing
clears. -/
def evPowerGood (s : State) : State :=
  { State.reset with
    schedule := s.schedule
    nonce := s.nonce
    ms := { MemSide.reset with mem := s.ms.mem }
    chip := { State.reset.chip with stage := 1, stored := s.chip.stored, fw := s.chip.fw } }

/-- Two lists share no element. -/
def disjoint (xs ys : List Nat) : Bool := !(xs.any ys.contains)

/-- The lists of a list share no element with one another. -/
def apart : List (List Nat) → Bool
  | [] => true
  | x :: xs => xs.all (disjoint x) && apart xs

/-- A list of resources: some, all below a number, none twice (R390). -/
def unitsOk (xs : List Nat) (bound : Nat) : Bool := !xs.isEmpty && xs.all (· < bound) && apart (xs.map fun x => [x])

/-- The interleave groups of a partition: each of quarter stacks of one die that the partition holds, every one of them in one
group, with a granule that the rule names, or none, in a range below the imports (R174, R387). -/
def ileavesOk (p : PartRec) : Bool :=
  let qs := p.ileaves.flatMap Ileave.quarters
  qs.all p.quarters.contains && p.quarters.all qs.contains && apart (qs.map fun q => [q])
    && p.ileaves.all fun x => !x.quarters.isEmpty && x.quarters.all (fun q => q / 12 = x.quarters.headD 0 / 12)
      && x.granule.all [128, 1024, 4096].contains && x.base + ileaveBytes x ≤ 0xFF * 2 ^ 44

/-- Ranges of interleave groups that do not overlap. -/
def rangesApart : List Ileave → Bool
  | [] => true
  | x :: xs => xs.all (fun y => x.base + ileaveBytes x ≤ y.base || y.base + ileaveBytes y ≤ x.base) && rangesApart xs

/-- One VF of a partition in a record (R263, R268), with a slice from 100 µs to 100 ms (R328). -/
def vfRecOk (part : Nat) (v : VfRec) : Bool :=
  v.vf / 16 = part && v.owner < 256 && 2 ≤ v.poolN && v.poolN ≤ 2 ^ 24 && v.caps.length = 64 && v.caps.all (· ≤ 7)
    && 100 ≤ v.slice && v.slice ≤ 100000

/-- One partition of a record (R174, R390, R392, R305): the crossbar groups, cores, quarter stacks and logical port exist and
are available, and its share is not empty. -/
def Chip.partOk (c : Chip) (r : ProvRecord) (p : PartRec) : Bool :=
  p.part < 8 && unitsOk p.cores (Config.cores / 8) && unitsOk p.groups (Config.clusters / 8)
    && unitsOk p.quarters Config.quarters && disjoint p.quarters c.badQuarters && ileavesOk p
    && p.port < 8 && (p.port % 4 = 0 || r.split.getD (p.port / 4) false)
    && 1 ≤ p.vfs.length && p.vfs.length ≤ 16 && p.vfs.all (vfRecOk p.part) && apart (p.vfs.map fun v => [v.vf])
    && (p.share.all fun x => unitsOk x Config.slices) && 1 ≤ p.weight && p.weight ≤ 64 && 1 ≤ p.push && p.push ≤ 1000

/-- A record names only resources that are there, none twice, no empty share, and a range table that can be installed
(R171, R379, R390, R392, R404). -/
def Chip.allows (c : Chip) (r : ProvRecord) : Bool :=
  !r.parts.isEmpty && r.parts.all (c.partOk r) && rangesOk r.ranges
    && r.owners.all (fun x => x.1 < 24 && x.2 < 256) && disjoint (r.owners.map Prod.fst) c.badPorts
    && r.routes.all (fun x => x.1 < 2 ^ 48 && x.2.length ≤ 4 && x.2.all (· < 24))
    && apart (r.parts.map PartRec.groups) && apart (r.parts.map PartRec.quarters) && apart (r.parts.map PartRec.cores)
    && apart (r.parts.map fun p => [p.port]) && apart (r.parts.map fun p => [p.part])
    && apart (r.parts.map fun p => p.storage.toList.map fun x => leNat (x.nqn ++ x.addr ++ natBytes 2 x.port))
    && rangesApart (r.parts.flatMap PartRec.ileaves)

/-! ### VFs -/

/-- A VF at its setup by Furze (R263, R268, R281, R298, R328, R335, R383, R391). -/
def VF.setup (r : VfRec) (running : Bool) : VF :=
  { VF.reset with
    owner := r.owner, wins := r.wins, poolBase := r.poolBase, poolN := r.poolN, descBase := r.descBase, caps := r.caps, slice := r.slice
    running := running
    saved := if running then none else some []
    arenas := [(0, { Arena.reset with state := 1, cstate := 1, base := r.rootBase, bump := r.rootBase, quota := r.rootQuota })] }

/-- Every task of a VF is aborted with ERR 8 (R267). -/
def State.abortVf (s : State) (vf : Nat) : State :=
  (s.tasks.filter fun t => t.vf = vf).foldl (fun s t => s.abort vf t.idx 8) s

/-- The record of a VF in the applied provisioning record. -/
def Chip.vfRec (c : Chip) (vf : Nat) : Option VfRec :=
  (c.applied.map fun r => r.parts.flatMap PartRec.vfs).bind fun xs => xs.find? fun v => v.vf = vf

/-- What the memory side and the fabric hold for a VF is gone, ERRORED lines of its frames included, which are counted (R170, R376,
R386). -/
def State.dropVf (s : State) (vf : Nat) : State :=
  let frames := (s.vf vf).frames
  let dead := s.hier.slices.filter fun x => s.ms.errored.contains x.line && frames.contains (x.line / 32)
  let s := dead.foldl (fun s x => s.noteError .sliceDirty (x.slice / 48) x.line true none) s
  let win (w : Window) : Window := if w.state != 0 && w.vf = vf then Window.reset else w
  let imp (x : Import) : Import := if x.used && x.vf = vf then Import.reset else x
  let m := s.ms
  { s with
    ms := { m with
      tlb := m.tlb.filter fun t => t.vf != vf
      tlb2 := m.tlb2.filter fun t => t.vf != vf
      walks := m.walks.filter fun w => w.vf != vf
      pins := m.pins.filter fun p => p.vf != vf
      late := m.late.filter fun x => x.vf != vf
      far := m.far.filter fun x => x.vf != vf
      partials := m.partials.filter fun p => p.vf != vf
      dirty := m.dirty.filter fun d => d.vf != vf
      windrows := m.windrows.filter fun w => w.vf != vf
      pushes := m.pushes.filter fun w => w.vf != vf
      errored := m.errored.filter fun l => !frames.contains (l / 32) }
    hier := { s.hier with
      lines := s.hier.lines.filter fun x => x.vf != vf
      slices := s.hier.slices.filter fun x => x.vf != vf
      dir := s.hier.dir.filter fun e => m.partials.any fun p => p.vf != vf && p.pa / 128 = e.line }
    icache := s.icache.filter fun x => x.vf != vf
    copies := s.copies.filter fun k => k.group.isSome || k.vf != vf
    fab := { s.fab with windows := s.fab.windows.map win, imports := s.fab.imports.map imp } }

/-- A VF is reset by Furze (R283, R390): its tasks are aborted, its tables take their values at setup, and the clusters'
counters that are its own are cleared (R14, R329). -/
def State.resetVf (s : State) (vf : Nat) : State :=
  let s := (s.abortVf vf).dropVf vf
  let running := (s.vf vf).running
  let clear (c : Cluster) : Cluster :=
    if c.part = some (partOf vf) && (s.vf vf).saved.isNone then { c with cnt := Counters.reset } else c
  let s := { s with clusters := s.clusters.map clear }
  match s.chip.vfRec vf with
  | some r => s.setVf vf fun v => { VF.setup r running with began := v.began }
  | none => s.setVf vf fun _ => VF.reset

/-- VF_RESET (R390). -/
def evVfReset (vf : Nat) (s : State) : State := if vf < 128 then s.resetVf vf else s

/-! ### Records -/

/-- A partition's physical front-end port runs as four logical ports under a record (R390). -/
def ProvRecord.splits (r : ProvRecord) (p : PartRec) : Bool := r.split.getD (p.port / 4) false

/-- The hard resources of a partition are the same in two records (R390, R407). -/
def samePart (ra rb : ProvRecord) (a b : PartRec) : Bool :=
  a.part = b.part && ProvRecord.splits ra a = ProvRecord.splits rb b && a.cores = b.cores && a.groups = b.groups && a.quarters = b.quarters && a.ileaves = b.ileaves && a.port = b.port
    && a.storage = b.storage && a.vfs = b.vfs

/-- A partition goes back to before stage C: its VFs are reset and its clusters taken back (R390, R407). -/
def State.closePart (s : State) (part : Nat) : State :=
  let s := (List.range 16).foldl (fun s i => s.resetVf (16 * part + i)) s
  let back (c : Cluster) : Cluster := if c.part = some part then { c with part := none } else c
  { s with
    clusters := s.clusters.map back
    chip := { s.chip with parts := s.chip.parts.set part 0, meas := s.chip.meas.set part 0 } }

/-- A partition of a new record whose hard resources changed takes its VFs' setup, the first of them running (R328). -/
def State.openPart (s : State) (p : PartRec) : State :=
  p.vfs.zipIdx.foldl (fun s v => s.setVf v.1.vf fun _ => { VF.setup v.1 (v.2 = 0) with began := s.clock }) s

/-- A port with the keys of the owners that a record lists for it only (R14, R384). -/
def Port.keyed (owners : List (Nat × Nat)) (i : Nat) (p : Port) : Port :=
  { p with
    saks := p.saks.filter fun x => owners.contains (i, x.1)
    rpn := p.rpn.filter fun x => owners.contains (i, x.1) }

/-- A set of slices in ascending package slice number (R171, R173). -/
def sliceList (xs : List Nat) : List Nat := (List.range Config.slices).filter xs.contains

/-- A slice quiesces (R393): its windrow entries are pushed, its DIRTY lines written to memory, and its lines are INVALID;
ERRORED lines stay. -/
def State.quiesce (s : State) (slice : Nat) : State :=
  let mine (w : Windrow) : Bool := 48 * w.die + w.slice = slice
  let s := { s with ms := { s.ms with
    pushes := s.ms.pushes ++ (s.ms.windrows.filter mine).map (Windrow.leave s.clock)
    windrows := s.ms.windrows.filter fun w => !mine w } }
  (s.hier.slices.filter fun x => x.slice = slice && !s.ms.errored.contains x.line).foldl (fun s x => s.spillLine x.vf x) s

/-- The slices that quiesce for a reshaping: of the old and the new share, or all where the range table changes (R393). -/
def State.quiescing (s : State) (r : ReshapeReq) : List Nat :=
  if rangeTable r.ranges = s.chip.ranges then
    (let old := s.share r.part
     if old = sliceList r.share then [] else (List.range Config.slices).filter fun x => old.contains x || r.share.contains x)
  else List.range Config.slices

/-- Partials of some slices are combined, and once none is left, which a pin can delay (R186), the slices quiesce (R393); the
Bool says whether they have. -/
def State.settleSlices (s : State) (slices : List Nat) : State × Bool :=
  let mine (p : Partial) : Bool := slices.contains (s.homeOf (p.vf / 16) p.pa)
  let s := (s.ms.partials.filter mine).foldl (fun s p => s.recall (p.pa / 128)) s
  if s.ms.partials.any mine then (s, false) else (slices.foldl State.quiesce s, true)

/-- The record keeps a partition of the applied one as it is but for its share, weight and push period (R390, R407). -/
def Chip.keeps (c : Chip) (r : ProvRecord) (p : PartRec) : Bool := c.applied.any fun a => a.parts.any fun q => samePart a r q p

/-- The partitions of the applied record that a record changes or takes away (R390, R407). -/
def Chip.closes (c : Chip) (r : ProvRecord) : List Nat :=
  match c.applied with
  | some a => (a.parts.filter fun q => !(r.parts.any fun p => samePart a r q p)).map PartRec.part
  | none => []

/-- The slices that quiesce for the partitions that a record keeps (R393, R407). -/
def State.recordSlices (s : State) (r : ProvRecord) : List Nat :=
  ((r.parts.filter (s.chip.keeps r)).flatMap fun p => s.quiescing
    { part := p.part, share := p.share.getD (List.range Config.slices), weight := p.weight, ranges := r.ranges }).eraseDups

/-- An accepted record is applied (R404, R407): partitions whose hard resources change are reset, and shares, weights,
push periods, the address-range table, routes and keyed owners take their new values. -/
def State.applyRecord (s : State) (r : ProvRecord) : State :=
  let kept : PartRec → Bool := s.chip.keeps r
  let s := (s.chip.closes r).foldl State.closePart s
  let c := s.chip
  let set {α : Type} (l : List α) (f : PartRec → α) : List α := r.parts.foldl (fun l p => l.set p.part (f p)) l
  let s := { s with
    chip := { c with
      stage := 3
      applied := some r
      ranges := rangeTable r.ranges
      shares := set c.shares fun p => sliceList (p.share.getD (List.range Config.slices))
      weights := set c.weights PartRec.weight
      push := set c.push PartRec.push }
    fab := { s.fab with routes := r.routes, ports := s.fab.ports.zipIdx.map fun x => x.1.keyed r.owners x.2 } }
  (r.parts.filter fun p => !kept p).foldl State.openPart s

/-- A record that is held is applied once stage B has ended, where it names available resources (R403, R404), by way of a
reshaping of the slices that it moves (R393, R407). A pin on a line of theirs delays it until the record is offered again. -/
def State.takeRecord (s : State) : State :=
  match s.chip.stored with
  | some r =>
    if 2 ≤ s.chip.stage && s.chip.allows r then
      (let x := s.settleSlices (s.recordSlices r)
       if x.2 then x.1.applyRecord r else x.1)
    else s
  | none => s

/-- PROVISIONING_RECORD (R406, R407): verified, and with a sequence not below the stored one, it becomes the stored
copy and is applied. -/
def evProvisioningRecord (r : ProvRecord) (s : State) : State :=
  let least := (s.chip.stored.map ProvRecord.seq).getD 0
  if s.chip.stage = 0 || !r.verified || r.seq < least then s.note .record
  else { s with chip := { s.chip with stored := some r } }.takeRecord

/-- STAGE_B_COMPLETE (R403, R404): the ports that trained are up, the others and the listed quarter stacks unavailable;
the Lammas unit is LOCKING; a stored record is applied. -/
def evStageBComplete (quarters ports : List Nat) (s : State) : State :=
  if s.chip.stage != 1 then s
  else
    let train (x : Port × Nat) : Port := if ports.contains x.2 then x.1 else { x.1 with trained := true, up := true }
    State.takeRecord { s with
      chip := { s.chip with stage := 2, badQuarters := quarters, badPorts := ports }
      fab := { s.fab with ports := s.fab.ports.zipIdx.map train }
      lam := { s.lam with lock := 1 } }

/-- PARTITION_START (R403, R408): the partition's cores leave reset, and its image's measurement is taken. -/
def evPartitionStart (part : Nat) (meas : BitVec 256) (s : State) : State :=
  if (s.chip.partRec part).isSome && s.chip.parts.getD part 0 = 0 then
    { s with chip := { s.chip with parts := s.chip.parts.set part 1, meas := s.chip.meas.set part meas } }
  else s

/-- CLUSTER_RELEASE (R26, R142, R403): the partition's clusters are released, and CYCLE starts at 0. -/
def evClusterRelease (part : Nat) (s : State) : State :=
  match s.chip.partRec part with
  | none => s
  | some p =>
    if s.chip.parts.getD part 0 != 1 then s
    else
      let free (x : Cluster × Nat) : Cluster :=
        if p.groups.contains (x.2 / 8) then { Cluster.reset with part := some part, released := s.clock } else x.1
      let ids := (List.range s.clusters.length).filter fun c => p.groups.contains (c / 8)
      let idle (v : VF) : VF := if v.running then v else { v with saved := ids.map fun c => (c, Counters.reset) }
      let s := p.vfs.foldl (fun s v => s.setVf v.vf idle) s
      { s with
        clusters := s.clusters.zipIdx.map free
        chip := { s.chip with parts := s.chip.parts.set part 2 } }

/-- RESHAPE (R393): once every partial of the quiescing slices is combined, which a pin can delay (R186), they quiesce, and
then the shares, the weight and the address-range table change at one point; what Furze may not install is refused (R171,
R392). -/
def evReshape (r : ReshapeReq) (s : State) : State :=
  if s.chip.stage != 3 || 8 ≤ r.part || !unitsOk r.share Config.slices || r.weight = 0 || 64 < r.weight || !rangesOk r.ranges then
    s.note .command
  else
    let x := s.settleSlices (s.quiescing r)
    let s := x.1
    if !x.2 then s
    else
      { s with chip := { s.chip with
          ranges := rangeTable r.ranges
          shares := s.chip.shares.set r.part (sliceList r.share)
          weights := s.chip.weights.set r.part r.weight } }

/-- ATTESTATION_QUOTE (R408): over the nonce, the firmware's measurement, the applied record's digest and the images'
measurements; a measurement not yet taken is zero. -/
def evAttestationQuote (nonce : BitVec 256) (s : State) : State :=
  if s.chip.stage = 0 then s
  else
    let digest := (s.chip.applied.map ProvRecord.digest).getD 0
    { s with msgs := s.msgs ++ [.quote ([nonce, s.chip.fw, digest] ++ s.chip.meas)] }

/-- THERMAL_THROTTLE (R13, R411): Furze withholds issue cycles, or no longer does. -/
def evThermalThrottle (on : Bool) (s : State) : State := { s with chip := { s.chip with throttled := on } }

/-- THERMAL_SHUTDOWN (R411): every partition stops as for an abort with ERR 8, and power is removed. -/
def evThermalShutdown (s : State) : State :=
  let s := (List.range 128).foldl State.abortVf s
  { s with chip := { s.chip with dead := true } }

/-! ### Register writes -/

/-- A change of the counter block of a cluster through the window of a VF (R394): of the cluster's counters, or of the
VF's saved copy; one of a cluster outside the partition is discarded. -/
def State.setCnt (s : State) (vf cl : Nat) (f : Counters → Counters) : State :=
  if (s.cluster cl).part != some (partOf vf) then s
  else match (s.vf vf).saved with
    | none => { s with clusters := modAt s.clusters cl fun c => { c with cnt := f c.cnt } }
    | some ks => s.setVf vf fun v =>
        { v with saved := some ((cl, f ((ks.lookup cl).getD Counters.reset)) :: ks.filter fun k => k.1 != cl) }

/-- The RW bits of a counter control register (R395). -/
def controlBits (v : BitVec 64) : BitVec 64 := v &&& 0x800FFFFF

/-- REGISTER_WRITE (R4, R391, R394, R395, R400): the RW fields take the written bits, and RO bits keep their value; RING
takes a multiple of 64 only. -/
def evRegisterWrite (r : RegName) (v : BitVec 64) (s : State) : State :=
  match r with
  | .groot vf => s.setVf vf fun x => { x with groot := v.toNat % 2 ^ 52 / 4096, gen := v.getLsbD 0 }
  | .pager vf => s.setVf vf fun x => { x with pager := v.toNat % 2 ^ 16 }
  | .ring vf => if v.toNat % 64 = 0 then s.setVf vf fun x => { x with ring := v } else s.note .store
  | .counter vf cl i => s.setCnt vf cl fun k => { k with c := k.c.set i v.toNat }
  | .control vf cl i => s.setCnt vf cl fun k => { k with ctl := k.ctl.set i (controlBits v) }
  | .rbase vf cl i => s.setCnt vf cl fun k => { k with ranges := modAt k.ranges i fun x => (v, x.2) }
  | .rlimit vf cl i => s.setCnt vf cl fun k => { k with ranges := modAt k.ranges i fun x => (x.1, v) }
  | .lctl vf cl => s.setCnt vf cl fun k => { k with lctl := v.getLsbD 0 }
  | .bkpt vf cl i => s.setCnt vf cl fun k => { k with bkpt := k.bkpt.set i (v &&& ~~~2#64) }
  | .shared vf i => s.setVf vf fun x => { x with shared := x.shared.set i v.toNat }
  | .sharedControl vf i => s.setVf vf fun x => { x with sharedCtl := x.sharedCtl.set i (controlBits v) }
  | .tbase vf => s.setVf vf fun x => { x with tbase := v }
  | .tctl vf => s.setVf vf fun x => { x with tctl := v &&& 0x1FF }
  | .tcons vf => s.setVf vf fun x => { x with tcons := v.toNat }
  | .reserved => s

/-- POWER_GOOD (R403). -/
def execPowerGood (s : State) : Host.Outcome State Fault Refusal := .next (evPowerGood s)
/-- STAGE_B_COMPLETE (R404). -/
def execStageBComplete (quarters ports : List Nat) (s : State) : Host.Outcome State Fault Refusal :=
  .next (evStageBComplete quarters ports s)
/-- PROVISIONING_RECORD (R406). -/
def execProvisioningRecord (r : ProvRecord) (s : State) : Host.Outcome State Fault Refusal :=
  .next (evProvisioningRecord r s)
/-- PARTITION_START (R403). -/
def execPartitionStart (part : Nat) (meas : BitVec 256) (s : State) : Host.Outcome State Fault Refusal :=
  .next (evPartitionStart part meas s)
/-- CLUSTER_RELEASE (R403). -/
def execClusterRelease (part : Nat) (s : State) : Host.Outcome State Fault Refusal := .next (evClusterRelease part s)
/-- VF_RESET (R390). -/
def execVfReset (vf : Nat) (s : State) : Host.Outcome State Fault Refusal := .next (evVfReset vf s)
/-- ATTESTATION_QUOTE (R408). -/
def execAttestationQuote (nonce : BitVec 256) (s : State) : Host.Outcome State Fault Refusal :=
  .next (evAttestationQuote nonce s)
/-- THERMAL_THROTTLE (R411). -/
def execThermalThrottle (on : Bool) (s : State) : Host.Outcome State Fault Refusal := .next (evThermalThrottle on s)
/-- THERMAL_SHUTDOWN (R411). -/
def execThermalShutdown (s : State) : Host.Outcome State Fault Refusal := .next (evThermalShutdown s)
/-- REGISTER_WRITE (R4). -/
def execRegisterWrite (r : RegName) (v : BitVec 64) (s : State) : Host.Outcome State Fault Refusal :=
  .next (evRegisterWrite r v s)
/-- RESHAPE (R393). -/
def execReshape (r : ReshapeReq) (s : State) : Host.Outcome State Fault Refusal := .next (evReshape r s)

end Sys2Proof.Machine
end

