-- ==== Sys2Proof/Machine/GangOps.lean ====
section
/-! DEFINITION. Gangs and the shared timebase (R331 to R348). -/

namespace Sys2Proof.Machine

/-! ### Entries, notices and control flits -/

/-- The entry of an index in the gang table of a VF (R335). -/
def State.gang (s : State) (vf e : Nat) : Gang := (s.vf vf).gangs.getD e Gang.reset

/-- A change of one gang entry. -/
def State.setGang (s : State) (vf e : Nat) (f : Gang → Gang) : State :=
  s.setVf vf fun v => { v with gangs := modAt v.gangs e f }

/-- A gang notice (R338): event, and the member concerned or none. -/
def State.gangNotice (s : State) (vf e event : Nat) (member : Option Nat) : State :=
  let g := s.gang vf e
  s.post vf g.target s.ns 4 event g.gang (member.getD (2 ^ 32 - 1))

/-- The kinds of gang control flits (R336, R337, R347, R348), numbered as this model sends them (log 15). -/
inductive GangKind where
  | stop | resume | abort | halted | saved | resumed | mode | arrive | release | ready | go | flush
  deriving DecidableEq, Repr

/-- The number of a control flit's kind in the operation field (log 15). -/
def GangKind.code : GangKind → Nat
  | .stop => 32
  | .resume => 33
  | .abort => 34
  | .halted => 35
  | .saved => 36
  | .resumed => 37
  | .mode => 38
  | .arrive => 39
  | .release => 40
  | .ready => 41
  | .go => 42
  | .flush => 43

/-- A control flit of an entry for a node (R337, R381; log 15). -/
def State.gangFlit (s : State) (vf e : Nat) (k : GangKind) (time node : Nat) : SentFlit :=
  let g := s.gang vf e
  { kind := 9, node := node, path := 0, stamp := s.stamp, tag := 0, win := 0, gen := 0, off := 0, init := ownNode, op := k.code
    width := 0, data := natBytes 2 g.gang ++ natBytes 2 g.member ++ natBytes 2 g.guard ++ natBytes 8 time }

/-- A control flit to one node, tagged with the owner of the gang's VF (R337, R385). -/
def State.gangSend (s : State) (vf e : Nat) (k : GangKind) (time node : Nat) : State :=
  s.transmit (s.vf vf).owner (s.gangFlit vf e k time node)

/-- A control flit to every other member. -/
def State.gangTell (s : State) (vf e : Nat) (k : GangKind) (time : Nat) : State :=
  let g := s.gang vf e
  (g.members.zipIdx.filter fun x => x.2 != g.member).foldl (fun s x => s.gangSend vf e k time x.1) s

/-- FLUSH to every other member on every link of its route that carries the owner's traffic, after the last frame of the gang there
(R348). -/
def State.gangFlush (s : State) (vf e : Nat) : State :=
  let g := s.gang vf e
  let owner := (s.vf vf).owner
  let one (s : State) (node : Nat) : State :=
    let x := s.gangFlit vf e .flush 0 node
    match ((s.fab.routes.lookup node).getD []).filter fun p => (s.fab.ports.getD p Port.reset).carries owner with
    | [] => s.transmit owner x
    | ps => { s with fab := { s.fab with ports := ps.foldl (fun l p => modAt l p (Port.sendFrame s.clock owner [x])) s.fab.ports } }
  ((g.members.zipIdx.filter fun x => x.2 != g.member).foldl (fun s x => one s x.1) s).setGang vf e fun g =>
    { g with flushed := if g.flushed.contains g.member then g.flushed else g.member :: g.flushed }

/-- A report to the coordinator, which is member 0 of the list (log 15). -/
def State.gangReport (s : State) (vf e : Nat) (k : GangKind) (time : Nat) : State :=
  match (s.gang vf e).members.head? with
  | some n => s.gangSend vf e k time n
  | none => s

/-- The members whose report of a step the coordinator has heard. -/
def Gang.heardOf (g : Gang) (k : GangKind) : List Nat :=
  (g.reports.filter fun r => r / 65536 = k.code).map fun r => r % 65536

/-- Every member has reported a step. -/
def Gang.allHeard (g : Gang) (k : GangKind) : Bool := (List.range g.gmemb).all (g.heardOf k).contains

/-- The step whose reports HEARD counts (R335, R336). -/
def Gang.step (g : Gang) : GangKind :=
  match g.state with
  | 1 => .arrive
  | 2 => .resumed
  | 5 => .saved
  | 6 => .ready
  | _ => .halted

/-- HEARD counts the members whose report for the current step has arrived (R335). -/
def Gang.recount (g : Gang) : Gang := { g with heard := (g.heardOf g.step).length }

/-- The coordinator hears a report (R335, R345). -/
def State.hear (s : State) (vf e : Nat) (k : GangKind) (member : Nat) : State :=
  s.setGang vf e fun g =>
    let r := if (g.heardOf k).contains member then g.reports else (65536 * k.code + member) :: g.reports
    { g with reports := r }.recount

/-- The bound task of an entry. -/
def State.gangTask (s : State) (vf e : Nat) : Option Task :=
  let g := s.gang vf e
  if g.task = 0 then none else s.tasks.find? fun t => t.vf = vf && t.idx = g.task

/-- The gang is aborted on this chip (R346): the entry, the bound task with ERR 7, and the notice. -/
def State.gangDie (s : State) (vf e : Nat) : State :=
  let i := (s.gang vf e).task
  let s := s.setGang vf e fun g => { g with state := 7 }
  let s := if i = 0 then s else s.abort vf i 7
  s.gangNotice vf e 6 none

/-- The coordinator aborts the gang (R346). -/
def State.gangKill (s : State) (vf e : Nat) : State := (s.gangTell vf e .abort 0).gangDie vf e

/-- The bound task becomes READY (R336). -/
def State.gangLaunch (s : State) (vf e : Nat) : State :=
  let i := (s.gang vf e).task
  let s := s.setGang vf e fun g =>
    { g with state := 2, sent := false, released := false, reports := [], heard := 0, late := [], flushed := [] }
  if s.tcbNat vf i 30 1 = 1 then s.makeReady vf i else s

/-- A coordinator whose members have all arrived sends RELEASE and launches its own task (R348). -/
def State.gangRelease (s : State) (vf e : Nat) : State :=
  let g := s.gang vf e
  if g.coord && g.mode && g.state = 1 && g.task != 0 && g.allHeard .arrive then (s.gangTell vf e .release 0).gangLaunch vf e
  else s

/-- The gang's groups halt on this member (R340); `byTime` says whether the stop is a timed one (R347). -/
def State.gangHalt (s : State) (vf e : Nat) (byTime : Bool) : State :=
  let s' := s.setGang vf e fun g => { g with state := 4, sent := false, byTime := byTime, released := false }
  match s.gangTask vf e with
  | some t => s'.haltAll fun g => g.task = t.uid
  | none => s'

/-- STOP takes effect as an order for T, or at once in message mode (R336, R348). -/
def State.gangStopping (s : State) (vf e time guard : Nat) : State :=
  let s := s.setGang vf e fun g =>
    { g with state := 3, time := time, guard := guard, reports := [], heard := 0, late := [], sent := false, since := s.ns }
  if (s.gang vf e).mode then s.gangHalt vf e false else s

/-- The coordinator has heard that a member resumed, and its delay: a member that opened late is a straggler, which aborts
the gang under POLICY 0; once all have resumed it says so (R344 to R346). -/
def State.gangResumed (s : State) (vf e member delay : Nat) : State :=
  let s := if delay = 0 then s
    else (s.gangNotice vf e 2 (some member)).setGang vf e fun g => { g with late := g.late ++ [member], since := s.ns }
  if delay != 0 && !(s.gang vf e).policy then s.gangKill vf e
  else if (s.gang vf e).allHeard .resumed then s.gangNotice vf e 5 none
  else s

/-- Issue opens for the restored groups, and RESUMED is reported with the delay (R344). -/
def State.gangOpen (s : State) (vf e : Nat) : State :=
  let g := s.gang vf e
  let delay := if !g.mode && g.late.contains g.member then s.ns - g.time else 0
  let uid := ((s.gangTask vf e).map Task.uid).getD 0
  let run (x : Group) : Group := if x.task = uid && x.stop = .closed then { x with stop := .running } else x
  let s := { s with groups := s.groups.map run }
  let s := s.setGang vf e fun g =>
    { g with state := 2, sent := false, released := false, flushed := [], late := g.late.filter fun m => m != g.member }.recount
  if g.coord then (s.hear vf e .resumed g.member).gangResumed vf e g.member delay
  else s.gangReport vf e .resumed delay

/-- A coordinator whose members are all ready sends GO (R348). -/
def State.gangGo (s : State) (vf e : Nat) : State :=
  let g := s.gang vf e
  if g.coord && g.mode && g.state = 6 && !g.released && g.allHeard .ready then
    ((s.gangTell vf e .go 0).setGang vf e fun g => { g with released := true }).gangOpen vf e
  else s

/-- MODE := 1 in an entry; a stop whose T has passed by then completes by time, and a member that has come to rest under it sends
FLUSH as every member does in message mode (R347, R348). -/
def State.gangSetMode (s : State) (vf e : Nat) : State :=
  let g := s.gang vf e
  let s := if g.state = 3 && !g.mode && g.time ≤ s.ns then s.gangHalt vf e true else s
  let s := if g.state = 4 && !g.mode && g.sent then s.gangFlush vf e else s
  s.setGang vf e fun g => { g with mode := true }

/-- An entry goes into message mode, or a clock is lost again while it is; its coordinator tells every member, and a stop that is
pending, here or at a member that has not reported, is ordered by message (R347, R348). -/
def State.gangMode (s : State) (vf e : Nat) : State :=
  let s := (s.gangSetMode vf e).setGang vf e fun g => { g with locks := [] }
  let g := s.gang vf e
  if !g.coord then s.gangReport vf e .mode 0
  else
    let s := (s.gangTell vf e .mode 0).gangNotice vf e 7 none
    let stop (s : State) : State := (s.gangTell vf e .stop g.time).setGang vf e fun g => { g with since := s.ns }
    if g.state = 3 then (stop s).gangHalt vf e false
    else if g.state = 4 && !g.allHeard .halted then stop s
    else s

/-- The entries of a VF that a test picks, changed in order. -/
def State.forGangs (s : State) (p : Gang → Bool) (f : State → Nat → Nat → State) : State :=
  (List.range 128).foldl (fun s vf => (List.range 64).foldl (fun s e => if p (s.gang vf e) then f s vf e else s) s) s

/-! ### Commands -/

/-- A refused command posts REJECTED (R337). -/
def State.gangReject (s : State) (vf e : Nat) : State := s.gangNotice vf e 1 none

/-- The entry that holds a gang identity. -/
def State.gangIndex (s : State) (vf gang : Nat) : Option Nat :=
  (s.vf vf).gangs.findIdx? fun g => g.state != 0 && g.gang = gang

/-- GANG_REGISTER (R336, R337): a FREE entry becomes ARMED with the command's fields. -/
def evGangRegister (vf : Nat) (c : GangCmd) (s : State) : State :=
  match s.gangIndex vf c.gang with
  | some e => s.gangReject vf e
  | none =>
    match (s.vf vf).gangs.findIdx? fun g => g.state = 0 with
    | none => s.post vf c.target s.ns 4 1 c.gang (2 ^ 32 - 1)
    | some e =>
      if c.gmemb = 0 || 4096 < c.gmemb then s.post vf c.target s.ns 4 1 c.gang (2 ^ 32 - 1)
      else
        let members := (List.range c.gmemb).map fun i => s.devNat vf (c.list + 8 * i) 8
        s.setGang vf e fun _ => { Gang.reset with
          gang := c.gang, gmemb := c.gmemb, target := c.target, member := c.member, coord := c.coord, policy := c.policy
          state := 1, members := members, heardAt := s.ns, mode := s.lam.loss }

/-- A command of a gang that has no entry, or that finds its entry in no state of R336 for it, is refused (R336, R337): the notice goes
to the entry's target, or to the one that the command names (log 123). -/
def State.gangRefuse (s : State) (vf : Nat) (c : GangCmd) : State :=
  match s.gangIndex vf c.gang with
  | some e => s.gangReject vf e
  | none => s.post vf c.target s.ns 4 1 c.gang (2 ^ 32 - 1)

/-- GANG_STOP (R337): on the coordinator of a RUNNING gang, for T at least 20 µs ahead. -/
def evGangStop (vf : Nat) (c : GangCmd) (s : State) : State :=
  match s.gangIndex vf c.gang with
  | none => s.gangRefuse vf c
  | some e =>
    let g := s.gang vf e
    let guard := if c.guard = 0 then 30 else c.guard
    if !g.coord || g.state != 2 || guard < 10 || 10000 < guard || c.time < s.ns + 20000 then s.gangRefuse vf c
    else
      let s := s.setGang vf e fun g => { g with guard := guard }
      (s.gangTell vf e .stop c.time).gangStopping vf e c.time guard

/-- GANG_RESUME (R337): on the coordinator, once every member has reported SAVED, for T′ at least 100 µs ahead. -/
def evGangResume (vf : Nat) (c : GangCmd) (s : State) : State :=
  match s.gangIndex vf c.gang with
  | none => s.gangRefuse vf c
  | some e =>
    let g := s.gang vf e
    if !g.coord || g.state != 5 || !g.allHeard .saved || c.time < s.ns + 100000 then s.gangRefuse vf c
    else
      (s.gangTell vf e .resume c.time).setGang vf e fun g =>
        { g with state := 6, time := c.time, reports := [], heard := 0, sent := false, released := false, late := [] }

/-- GANG_ABORT (R336, R337). -/
def evGangAbort (vf : Nat) (c : GangCmd) (s : State) : State :=
  match s.gangIndex vf c.gang with
  | none => s.gangRefuse vf c
  | some e => if (s.gang vf e).coord then s.gangKill vf e else s.gangRefuse vf c

/-- GANG_UNREGISTER (R336): an ARMED or ABORTED entry becomes FREE. -/
def evGangUnregister (vf : Nat) (c : GangCmd) (s : State) : State :=
  match s.gangIndex vf c.gang with
  | none => s.gangRefuse vf c
  | some e =>
    let g := s.gang vf e
    if g.state = 1 || g.state = 7 then s.setGang vf e fun _ => Gang.reset else s.gangRefuse vf c

/-- The number of bytes from an offset of a command record (R337). -/
def cmdNum (b : List Byte) (o n : Nat) : Nat := leNat ((b.drop o).take n)

/-- A whole command record of 64 bytes (R337): one of no listed KIND, or whose zero bits and bytes are not zero, is discarded and
counted. -/
def State.gangRecord (s : State) (vf : Nat) (b : List Byte) : State :=
  let num := cmdNum b
  let c : GangCmd :=
    { coord := bitAt (num 1 1) 0, policy := bitAt (num 1 1) 1, gang := num 2 2, gmemb := num 4 2, guard := num 6 2
      time := num 8 8, list := num 16 8, target := num 24 2, member := num 26 2 }
  if 4 ≤ num 1 1 || num 28 36 != 0 then s.note .store
  else match num 0 1 with
    | 1 => evGangRegister vf c s
    | 2 => evGangStop vf c s
    | 3 => evGangResume vf c s
    | 4 => evGangAbort vf c s
    | 5 => evGangUnregister vf c s
    | _ => s.note .store

/-- Bytes stored into the command record of a VF from an offset in it; its final byte, written last, makes it a command (R337). -/
def State.gangBytes (s : State) (vf off : Nat) (data : List Byte) : State :=
  let b := (putBytes (s.vf vf).cmd off data).take 64
  let s := s.setVf vf fun v => { v with cmd := b }
  if off + data.length = 64 then s.gangRecord vf b else s

/-! ### Times -/

/-- GANG_START_TIME (R336, R347, R348): local time has reached START with PRED 0; in message mode ARRIVE is sent
instead, once. A gang whose members have all reported LOCKED returns to timed mode. -/
def evGangStartTime (vf e : Nat) (s : State) : State :=
  let g := s.gang vf e
  if g.state != 1 || g.task = 0 || s.ns < g.start || s.tcbNat vf g.task 30 1 != 1 || s.tcbNat vf g.task 32 4 != 0 then s
  else if g.mode && !(g.coord && (List.range g.gmemb).all g.locks.contains) then
    (if g.sent then s
     else
      let s := s.setGang vf e fun g => { g with sent := true }
      if g.coord then (s.hear vf e .arrive g.member).gangRelease vf e else s.gangReport vf e .arrive 0)
  else if g.mode then
    ((s.setGang vf e fun g => { g with mode := false }).gangTell vf e .mode 2).gangLaunch vf e
  else s.gangLaunch vf e

/-- The gang's groups on this member have halted and their engine work is at rest (R319). -/
def State.gangRests (s : State) (vf e : Nat) : Bool :=
  match s.gangTask vf e with
  | none => true
  | some t => s.groups.all fun g => g.task != t.uid || (s.engineRest g && (match g.stop with
      | .halting _ (some _) => true
      | _ => false))

/-- GANG_STOP_TIME (R340): local time has reached T and the groups halt; once R319 is complete HALTED is reported, and
in message mode FLUSH is sent to every member (R348). -/
def evGangStopTime (vf e : Nat) (s : State) : State :=
  let g := s.gang vf e
  if g.state = 3 && !g.mode then (if g.time ≤ s.ns then s.gangHalt vf e true else s)
  else if g.state = 4 && !g.sent && s.gangRests vf e then
    let s := s.setGang vf e fun g => { g with sent := true }
    let s := if g.mode then s.gangFlush vf e else s
    if g.coord then s.hear vf e .halted g.member else s.gangReport vf e .halted 0
  else s

/-- The members that have not reported HALTED (R345). -/
def Gang.missing (g : Gang) : List Nat := (List.range g.gmemb).filter fun m => !(g.heardOf .halted).contains m

/-- T + n × GUARD has passed: from T, or where the stop is one by message from the sending of STOP (R345, R347, R348). -/
def Gang.guardPast (g : Gang) (ns n : Nat) : Bool := (if g.mode && !(g.state = 4 && g.byTime) then g.since else g.time) + n * g.guard * 1000 ≤ ns

/-- Requests of the gang's groups are still unanswered (R341). -/
def State.gangAsks (s : State) (vf e : Nat) : Bool :=
  match s.gangTask vf e with
  | none => false
  | some t => s.fab.reqs.any fun r =>
      s.groups.any (fun g => g.uid = r.group && g.task = t.uid) || t.saved.any fun x => x.group.uid = r.group

/-- Every group of the gang's task is saved with COMPLETE set (R336). -/
def State.gangSaved (s : State) (vf e : Nat) : Bool :=
  match s.gangTask vf e with
  | none => true
  | some t => !(s.groups.any fun g => g.task = t.uid) && t.saved.all Saved.complete

/-- GANG_GUARD_EXPIRY (R336, R341, R345, R346): the coordinator's stragglers; the closing of this member's window; and
the report SAVED once every frame is COMPLETE. -/
def evGangGuardExpiry (vf e : Nat) (s : State) : State :=
  let g := s.gang vf e
  if g.coord && (g.state = 3 || g.state = 4) && g.late.isEmpty && g.guardPast s.ns 1 && !g.missing.isEmpty then
    let s := g.missing.foldl (fun s m => s.gangNotice vf e 2 (some m)) s
    let s := s.setGang vf e fun x => { x with late := g.missing }
    if g.policy then s else s.gangKill vf e
  else if g.state = 4 && g.sent && g.windowShut s.ns && !s.gangAsks vf e then
    s.setGang vf e fun g => { g with state := 5, sent := false }.recount
  else if g.state = 5 && !g.sent && s.gangSaved vf e then
    let s := s.setGang vf e fun g => { g with sent := true }
    if g.coord then
      let s := s.hear vf e .saved g.member
      if (s.gang vf e).allHeard .saved then s.gangNotice vf e 4 none else s
    else s.gangReport vf e .saved 0
  else s

/-- STRAGGLER_POLICY_EXPIRY (R346): under POLICY 1 the further GUARD has passed, at a stop or at a resume. -/
def evStragglerPolicyExpiry (vf e : Nat) (s : State) : State :=
  let g := s.gang vf e
  if g.coord && g.policy && (g.state = 3 || g.state = 4 || g.state = 5) && !g.late.isEmpty && g.guardPast s.ns 2 then
    (if g.missing.isEmpty then s.setGang vf e fun g => { g with late := [] } else s.gangKill vf e)
  else if g.coord && g.policy && g.state = 2 && !g.late.isEmpty && g.since + g.guard * 1000 ≤ s.ns then
    (if g.allHeard .resumed then s.setGang vf e fun g => { g with late := [] } else s.gangKill vf e)
  else s

/-- GANG_RESUME_TIME (R344, R348): with every group restored, issue opens at T′; a member that is not ready by then is
late. In message mode READY-TO-GO is sent once, and GO opens issue. -/
def evGangResumeTime (vf e : Nat) (s : State) : State :=
  let g := s.gang vf e
  if g.state != 6 then s
  else
    let ready : Bool := match s.gangTask vf e with
      | none => true
      | some t => t.saved.isEmpty
    if g.mode then
      (if !ready then s
       else if g.released then s.gangOpen vf e
       else if g.sent then s
       else
        let s := s.setGang vf e fun g => { g with sent := true }
        if g.coord then (s.hear vf e .ready g.member).gangGo vf e else s.gangReport vf e .ready 0)
    else if s.ns < g.time then s
    else if ready then s.gangOpen vf e
    else s.setGang vf e fun g => { g with late := [g.member] }

/-- GANG_SILENCE_TIMEOUT (R346): 1 s without word from the coordinator. -/
def evGangSilenceTimeout (vf e : Nat) (s : State) : State :=
  let g := s.gang vf e
  if !g.coord && 3 ≤ g.state && g.state ≤ 6 && g.heardAt + 1000000000 ≤ s.ns then s.gangDie vf e else s

/-! ### Control flits -/

/-- A control flit of a kind that an accepted frame has brought reaches an entry of its gang under the owner of its VF (R382); otherwise
it is dropped and counted (R385). One of member 0 is a word from the coordinator (R346; log 15). -/
def State.onGang (s : State) (k : GangKind) (vf : Nat) (m : GangMsg) (f : State → Nat → State) : State :=
  s.arrived (.gang k.code vf m) fun s => (match s.gangIndex vf m.gang with
    | none => s.note .frame
    | some e => if m.owner = (s.vf vf).owner then
        f (if m.member = 0 then s.setGang vf e fun g => { g with heardAt := s.ns } else s) e else s.note .frame, true)

/-- STOP at a member (R336, R348). -/
def evGangMsgStop (vf : Nat) (m : GangMsg) (s : State) : State :=
  s.onGang .stop vf m fun s e =>
    let g := s.gang vf e
    if g.state = 2 then s.gangStopping vf e m.time m.guard
    else if g.state = 3 && g.mode then s.gangHalt vf e false
    else s

/-- RESUME at a member (R344). -/
def evGangMsgResume (vf : Nat) (m : GangMsg) (s : State) : State :=
  s.onGang .resume vf m fun s e =>
    if (s.gang vf e).state = 5 then
      s.setGang vf e fun g => { g with state := 6, time := m.time, sent := false, released := false, late := [] }
    else s

/-- ABORT at a member (R346). -/
def evGangMsgAbort (vf : Nat) (m : GangMsg) (s : State) : State :=
  s.onGang .abort vf m fun s e => if (s.gang vf e).state = 7 then s else s.gangDie vf e

/-- HALTED at the coordinator (R345). -/
def evGangMsgHalted (vf : Nat) (m : GangMsg) (s : State) : State :=
  s.onGang .halted vf m fun s e => if (s.gang vf e).coord then s.hear vf e .halted m.member else s

/-- SAVED at the coordinator (R336, R338). -/
def evGangMsgSaved (vf : Nat) (m : GangMsg) (s : State) : State :=
  s.onGang .saved vf m fun s e =>
    if (s.gang vf e).coord then
      let s := s.hear vf e .saved m.member
      if (s.gang vf e).allHeard .saved then s.gangNotice vf e 4 none else s
    else s

/-- RESUMED at the coordinator, with a delay of a member that opened late (R344 to R346). -/
def evGangMsgResumed (vf : Nat) (m : GangMsg) (s : State) : State :=
  s.onGang .resumed vf m fun s e =>
    let g := s.gang vf e
    if !g.coord then s
    else (s.hear vf e .resumed m.member).gangResumed vf e m.member m.time

/-- MODE (R347): a member or a coordinator goes into message mode; with TIME 1 it is a member's report that it is
LOCKED, and with TIME 2 the coordinator's return to timed mode (log 15). -/
def evGangMsgMode (vf : Nat) (m : GangMsg) (s : State) : State :=
  s.onGang .mode vf m fun s e =>
    if m.time = 1 then s.setGang vf e fun g =>
      { g with locks := if g.locks.contains m.member then g.locks else m.member :: g.locks }
    else if m.time = 2 then s.setGang vf e fun g => { g with mode := false }
    else
      let g := s.gang vf e
      if g.coord then s.gangMode vf e else s.gangSetMode vf e

/-- A message to one member of an entry. -/
def State.gangAnswer (s : State) (vf e : Nat) (k : GangKind) (member : Nat) : State :=
  match (s.gang vf e).members[member]? with
  | some n => s.gangSend vf e k 0 n
  | none => s

/-- ARRIVE at the coordinator (R348): one that has launched its own task by time already releases the member (R347). -/
def evGangMsgArrive (vf : Nat) (m : GangMsg) (s : State) : State :=
  s.onGang .arrive vf m fun s e =>
    let g := s.gang vf e
    if !g.coord then s
    else if g.state = 1 then (s.hear vf e .arrive m.member).gangRelease vf e
    else if g.state = 7 then s
    else s.gangAnswer vf e .release m.member

/-- RELEASE at a member (R348). -/
def evGangMsgRelease (vf : Nat) (m : GangMsg) (s : State) : State :=
  s.onGang .release vf m fun s e => if (s.gang vf e).state = 1 && (s.gang vf e).task != 0 then s.gangLaunch vf e else s

/-- READY-TO-GO at the coordinator (R348): one that has opened issue by time already answers GO (R347). -/
def evGangMsgReadyToGo (vf : Nat) (m : GangMsg) (s : State) : State :=
  s.onGang .ready vf m fun s e =>
    let g := s.gang vf e
    if !g.coord then s
    else if g.state = 2 then s.gangAnswer vf e .go m.member
    else (s.hear vf e .ready m.member).gangGo vf e

/-- GO at a member (R348). -/
def evGangMsgGo (vf : Nat) (m : GangMsg) (s : State) : State :=
  s.onGang .go vf m fun s e => evGangResumeTime vf e (s.setGang vf e fun g => { g with released := true })

/-- FLUSH at a member (R348). -/
def evGangMsgFlush (vf : Nat) (m : GangMsg) (s : State) : State :=
  s.onGang .flush vf m fun s e => s.setGang vf e fun g =>
    { g with flushed := if g.flushed.contains m.member then g.flushed else m.member :: g.flushed }

/-! ### The Lammas unit -/

/-- A PTP message uses the options of R331 only: every transport that its port has, its delay mechanism, its domain. One-step and
two-step messages are both among them. -/
def PtpMsg.supported (m : PtpMsg) : Bool :=
  (match m.transport with
    | .ethernet => true
    | .ipv4 | .ipv6 => 24 ≤ m.port
    | .other => false)
    && m.delay != .other && !m.unlisted && m.domain < 128

/-- The hardware timestamp of a message at its port (R331). -/
def Lammas.stampAt (l : Lammas) (port domain : Nat) : Lammas :=
  { l with stamps := (port, domain, l.tai) :: l.stamps.filter fun x => x.1 != port || x.2.1 != domain }

/-- The Lammas unit after a message of the domain that disciplines it (R332, R333): at the first lock the clock may step forward;
every other correction is slewed. -/
def Lammas.disciplined (l : Lammas) (m : PtpMsg) : Lammas :=
  let first : Bool := m.locked && !l.locked
  { l with
    tai := if first then l.tai + m.corr.toNat else l.tai
    slew := if first then min m.corr 0 else m.corr
    lock := if m.locked then 2 else Nat.max l.lock 1
    loss := l.loss && !m.locked
    bound := if l.lock = 3 && !m.locked then l.bound else Nat.min m.bound 65535
    locked := l.locked || m.locked }

/-- PTP_MESSAGE (R331 to R333, R347): a message with an unsupported option is discarded and counted; every other is timestamped, and
one of the disciplining domain, number 0 here (log 17), corrects the clock. -/
def evPtpMessage (m : PtpMsg) (s : State) : State :=
  if !PtpMsg.supported m then s.note .ptp
  else
    let s := { s with lam := s.lam.stampAt m.port m.domain }
    if m.domain != 0 then s
    else
      let s := { s with lam := s.lam.disciplined m }
      if m.locked then
        s.forGangs (fun g => g.state != 0 && g.mode) fun s vf e =>
          let g := s.gang vf e
          if g.coord then s.setGang vf e fun g => { g with locks := if g.locks.contains g.member then g.locks else g.member :: g.locks }
          else s.gangReport vf e .mode 1
      else s

/-- LOSS_OF_LOCK (R333): the unit goes into HOLDOVER. -/
def evLossOfLock (s : State) : State :=
  if s.lam.lock = 2 then { s with lam := { s.lam with lock := 3, lostAt := s.ns } } else s

/-- BOUND may exceed 1,000 ns now: it does, or in HOLDOVER it has had the time to grow by 100 ns a second (R333). -/
def Lammas.exceeds (l : Lammas) (ns : Nat) : Bool :=
  1000 < l.bound || (l.lock = 3 && 10000000 * (1001 - l.bound) ≤ ns - l.lostAt)

/-- CLOCK_LOSS (R347): LOSS, the notices, and message mode in every entry that is not FREE. -/
def evClockLoss (s : State) : State :=
  if s.lam.loss || !s.lam.locked || !s.lam.exceeds s.ns then s
  else
    let s := { s with lam := { s.lam with loss := true, bound := Nat.max s.lam.bound 1001, lostAt := s.ns } }
    s.forGangs (fun g => g.state != 0) fun s vf e => (s.gangNotice vf e 3 none).gangMode vf e

/-- GANG_REGISTER (R337). -/
def execGangRegister (vf : Nat) (c : GangCmd) (s : State) : Host.Outcome State Fault Refusal := .next (evGangRegister vf c s)
/-- GANG_STOP (R337). -/
def execGangStop (vf : Nat) (c : GangCmd) (s : State) : Host.Outcome State Fault Refusal := .next (evGangStop vf c s)
/-- GANG_RESUME (R337). -/
def execGangResume (vf : Nat) (c : GangCmd) (s : State) : Host.Outcome State Fault Refusal := .next (evGangResume vf c s)
/-- GANG_ABORT (R337). -/
def execGangAbort (vf : Nat) (c : GangCmd) (s : State) : Host.Outcome State Fault Refusal := .next (evGangAbort vf c s)
/-- GANG_UNREGISTER (R337). -/
def execGangUnregister (vf : Nat) (c : GangCmd) (s : State) : Host.Outcome State Fault Refusal :=
  .next (evGangUnregister vf c s)
/-- GANG_START_TIME (R336). -/
def execGangStartTime (vf e : Nat) (s : State) : Host.Outcome State Fault Refusal := .next (evGangStartTime vf e s)
/-- GANG_STOP_TIME (R340). -/
def execGangStopTime (vf e : Nat) (s : State) : Host.Outcome State Fault Refusal := .next (evGangStopTime vf e s)
/-- GANG_GUARD_EXPIRY (R341). -/
def execGangGuardExpiry (vf e : Nat) (s : State) : Host.Outcome State Fault Refusal := .next (evGangGuardExpiry vf e s)
/-- STRAGGLER_POLICY_EXPIRY (R346). -/
def execStragglerPolicyExpiry (vf e : Nat) (s : State) : Host.Outcome State Fault Refusal :=
  .next (evStragglerPolicyExpiry vf e s)
/-- GANG_RESUME_TIME (R344). -/
def execGangResumeTime (vf e : Nat) (s : State) : Host.Outcome State Fault Refusal := .next (evGangResumeTime vf e s)
/-- GANG_SILENCE_TIMEOUT (R346). -/
def execGangSilenceTimeout (vf e : Nat) (s : State) : Host.Outcome State Fault Refusal :=
  .next (evGangSilenceTimeout vf e s)
/-- GANG_MSG_STOP (R337). -/
def execGangMsgStop (vf : Nat) (m : GangMsg) (s : State) : Host.Outcome State Fault Refusal := .next (evGangMsgStop vf m s)
/-- GANG_MSG_RESUME (R344). -/
def execGangMsgResume (vf : Nat) (m : GangMsg) (s : State) : Host.Outcome State Fault Refusal :=
  .next (evGangMsgResume vf m s)
/-- GANG_MSG_ABORT (R346). -/
def execGangMsgAbort (vf : Nat) (m : GangMsg) (s : State) : Host.Outcome State Fault Refusal := .next (evGangMsgAbort vf m s)
/-- GANG_MSG_HALTED (R345). -/
def execGangMsgHalted (vf : Nat) (m : GangMsg) (s : State) : Host.Outcome State Fault Refusal :=
  .next (evGangMsgHalted vf m s)
/-- GANG_MSG_SAVED (R336). -/
def execGangMsgSaved (vf : Nat) (m : GangMsg) (s : State) : Host.Outcome State Fault Refusal := .next (evGangMsgSaved vf m s)
/-- GANG_MSG_RESUMED (R344). -/
def execGangMsgResumed (vf : Nat) (m : GangMsg) (s : State) : Host.Outcome State Fault Refusal :=
  .next (evGangMsgResumed vf m s)
/-- GANG_MSG_MODE (R347). -/
def execGangMsgMode (vf : Nat) (m : GangMsg) (s : State) : Host.Outcome State Fault Refusal := .next (evGangMsgMode vf m s)
/-- GANG_MSG_ARRIVE (R348). -/
def execGangMsgArrive (vf : Nat) (m : GangMsg) (s : State) : Host.Outcome State Fault Refusal :=
  .next (evGangMsgArrive vf m s)
/-- GANG_MSG_RELEASE (R348). -/
def execGangMsgRelease (vf : Nat) (m : GangMsg) (s : State) : Host.Outcome State Fault Refusal :=
  .next (evGangMsgRelease vf m s)
/-- GANG_MSG_READY_TO_GO (R348). -/
def execGangMsgReadyToGo (vf : Nat) (m : GangMsg) (s : State) : Host.Outcome State Fault Refusal :=
  .next (evGangMsgReadyToGo vf m s)
/-- GANG_MSG_GO (R348). -/
def execGangMsgGo (vf : Nat) (m : GangMsg) (s : State) : Host.Outcome State Fault Refusal := .next (evGangMsgGo vf m s)
/-- GANG_MSG_FLUSH (R348). -/
def execGangMsgFlush (vf : Nat) (m : GangMsg) (s : State) : Host.Outcome State Fault Refusal := .next (evGangMsgFlush vf m s)
/-- PTP_MESSAGE (R331). -/
def execPtpMessage (m : PtpMsg) (s : State) : Host.Outcome State Fault Refusal := .next (evPtpMessage m s)
/-- CLOCK_LOSS (R347). -/
def execClockLoss (s : State) : Host.Outcome State Fault Refusal := .next (evClockLoss s)
/-- LOSS_OF_LOCK (R333). -/
def execLossOfLock (s : State) : Host.Outcome State Fault Refusal := .next (evLossOfLock s)

end Sys2Proof.Machine
end

