-- ==== Sys2Proof/Machine/Access.lean ====
section
/-! DEFINITION. What application cores and the host reach (R366, R389): device virtual memory (R292, R296, R375), the capability
list (R409, R410), and the registers of the windows as they are read and written (R4, R391, R394, R400, R337, R365, R268,
R228). -/

namespace Sys2Proof.Machine

/-! ### Who reaches what -/

/-- The number under which the host accesses the device (R389). -/
def hostCore : Nat := 64

/-- A core belongs to the partition of a VF, and has left reset (R390, R403). -/
def State.coreIn (s : State) (vf core : Nat) : Bool :=
  core < Config.cores && 1 ≤ s.chip.parts.getD (vf / 16) 0 && (match s.chip.partRec (vf / 16) with
    | some p => p.cores.contains (core / 8) && p.vfs.any fun v => v.vf = vf
    | none => false)

/-- A page is mapped for a party: every page of a VF for its cores, a channel's only for the VF that it is bound to; for the
host the capability list, the queue pages and the control window (R228, R389, R391, R409). -/
def State.pageIn (s : State) (vf core : Nat) (p : Page) : Bool :=
  let mapped : Bool := match p with
    | .queue q => q < 64
    | .channel die chan => die < 4 && chan < 64 && Config.channelVf (die * 64 + chan) % 128 = vf
    | _ => true
  let forHost : Bool := match p with
    | .capability | .control | .queue _ => true
    | _ => false
  mapped && (s.coreIn vf core || (core = hostCore && forHost))

/-! ### The capability list -/

/-- The address of a window of a VF, 0 where it has no mapping (R410). -/
def VF.win (v : VF) (i : Nat) : Nat := v.wins.getD i 0

/-- A set of numbers as a bit map. -/
def bitMap (xs : List Nat) : Nat := (xs.eraseDups.map fun i => 2 ^ i).sum

/-- The identities and bodies of the capabilities of a VF, each body in 64-bit words (R410; log 97). -/
def State.capabilities (s : State) (vf : Nat) : List (Nat × List Nat) :=
  let v := s.vf vf
  let have_ (n : Nat) (bad : List Nat) : Nat := bitMap ((List.range n).filter fun i => !bad.contains i)
  [ (1, [0x0958, Config.revision % 2 ^ 64, 4, Config.clusters, have_ Config.quarters s.chip.badQuarters, have_ 24 s.chip.badPorts])
  , (2, [])
  , (3, [])
  , (4, [v.win 0, 64])
  , (5, [256, 256])
  , (6, [Config.slices, (s.share (vf / 16)).length])
  , (7, [v.win 1, v.win 2])
  , (8, [v.win 3])
  , (9, [v.win 4])
  , (10, [v.win 5])
  , (11, [Config.etherType % 2 ^ 16])
  , (12, [v.poolBase, v.poolN, v.descBase]) ]

/-- A chain of entries from an offset on: header with NEXT, LEN, VER 0 and ID, then the body (R409). -/
def capabilityChain : Nat → List (Nat × List Nat) → List Byte
  | _, [] => []
  | off, (id, body) :: rest =>
    let next := off + 8 + 8 * body.length
    let hdr := id + 2 ^ 32 * (8 * body.length) + 2 ^ 48 * (if rest.isEmpty then 0 else next)
    natBytes 8 hdr ++ body.flatMap (natBytes 8) ++ capabilityChain next rest

/-- The capability page of a VF (R409). -/
def State.capabilityPage (s : State) (vf : Nat) : List Byte :=
  let b := capabilityChain 0 (s.capabilities vf)
  b ++ List.replicate (4096 - b.length) 0

/-! ### Registers as they are read -/

/-- A gang entry as 256 bits (R335). -/
def Gang.bits (g : Gang) : Nat :=
  let bit (b : Bool) : Nat := if b then 1 else 0
  g.state % 16 + 2 ^ 5 * bit g.mode + 2 ^ 6 * bit g.policy + 2 ^ 7 * bit g.coord + 2 ^ 8 * (g.member % 2 ^ 16)
    + 2 ^ 24 * (g.target % 2 ^ 16) + 2 ^ 40 * (g.task % 2 ^ 24) + 2 ^ 64 * (g.guard % 2 ^ 16) + 2 ^ 80 * (g.heard % 2 ^ 16)
    + 2 ^ 96 * (g.gmemb % 2 ^ 16) + 2 ^ 112 * (g.gang % 2 ^ 16) + 2 ^ 128 * (g.start % 2 ^ 64) + 2 ^ 192 * (g.time % 2 ^ 64)

/-- The word of the control window at an offset: GROOT with GEN, PAGER, RING; TREG and WCMD read zero (R4, R391). -/
def State.controlWord (s : State) (vf off : Nat) : Option Nat :=
  let v := s.vf vf
  match off with
  | 0x00 => some (v.groot % 2 ^ 40 * 4096 + (if v.gen then 1 else 0))
  | 0x08 => some v.pager
  | 0x10 => some v.ring.toNat
  | 0x18 | 0x20 => some 0
  | _ => none

/-- The word of a cluster's counter block at an offset (R394). -/
def Counters.word (k : Counters) (off : Nat) : Option Nat :=
  let i := off / 8
  if off < 0x080 then some (k.c.getD i 0)
  else if off < 0x100 then some (k.ctl.getD (i - 16) 0).toNat
  else if off < 0x200 then
    (let r := k.ranges.getD ((i - 32) / 2) (0, 0)
     some (if i % 2 = 0 then r.1.toNat else r.2.toNat))
  else if off < 0x420 then some (k.lanes.getD (i - 64) 0)
  else if off = 0x420 then some k.idle
  else if off = 0x428 then some (if k.lctl then 1 else 0)
  else if off < 0x450 then some (k.bkpt.getD (i - 134) 0).toNat
  else none

/-- The word of the counter window at an offset: a cluster's block, which reads 0 outside the partition; the shared-unit
counters with their controls; the trace registers (R394, R400; log 98). -/
def State.counterWord (s : State) (vf off : Nat) : Option Nat :=
  let v := s.vf vf
  let cl := off / 2048
  if off < 2048 * Config.clusters then
    match s.windowCounters vf cl with
    | some k => k.word (off % 2048)
    | none => some 0
  else if off < 0xA0400 then
    (let i := (off - 0xA0000) / 16
     some (if off % 16 = 0 then v.shared.getD i 0 else (v.sharedCtl.getD i 0).toNat))
  else match off - 0xA0400 with
    | 0 => some v.tbase.toNat
    | 8 => some v.tctl.toNat
    | 16 => some v.tprod
    | 24 => some v.tcons
    | _ => none

/-- The word of the Lammas command window at an offset: the status word, TAI nanoseconds, the gang table (R333, R335, R337). -/
def State.lammasWord (s : State) (vf off : Nat) : Option Nat :=
  if off = 0 then some (s.lam.word s.ns)
  else if off = 8 then some s.ns
  else if 0x100 ≤ off ∧ off < 0x900 then
    some (field (s.gang vf ((off - 0x100) / 32)).bits (64 * (off / 8 % 4)) 64)
  else none

/-- The 64-bit word of a page at an offset that is a multiple of 8; none where no map gives one. A write-only register reads
zero (R4). -/
def State.pageWord (s : State) (vf : Nat) (p : Page) (off : Nat) : Option Nat :=
  match p with
  | .memory => none
  | .capability => some (leNat (((s.capabilityPage vf).drop off).take 8))
  | .control => s.controlWord vf off
  | .counters => s.counterWord vf off
  | .lammas => s.lammasWord vf off
  | .pager => if off ≤ 8 then some 0 else none
  | .queue _ | .channel _ _ => if off = 0 then some 0 else none

/-- The counter that an offset of the counter window names: its cluster, or the number after the last for the shared units
(R330). -/
def counterAt (off : Nat) : Option (Nat × Nat) :=
  if off < 2048 * Config.clusters then (if off % 2048 < 0x80 then some (off / 2048, off % 2048 / 8) else none)
  else if off < 0xA0400 ∧ off % 16 < 8 then some (Config.clusters, (off - 0xA0000) / 16)
  else none

/-- A read of a page by a core: the bytes of its words, free where no map gives one (log 7); of a counter, its halves by way of
the latch (R330). -/
def State.readPage (s : State) (a : CoreAccess) : State :=
  let off := a.va.toNat
  let half : Option (Nat × Nat) := match a.page with
    | .counters => if a.width = 4 ∧ off % 4 = 0 then counterAt off else none
    | _ => none
  match half with
  | some (cl, i) => if off % 8 = 0 then evCounterLowRead a.core a.vf cl i s else evCounterHighRead a.core a.vf cl i s
  | none =>
    let word := match s.pageWord a.vf a.page (off / 8 * 8) with
      | some x => x
      | none => (Config.freeWord (s.nonce * 65536)).toNat + 2 ^ 32 * (Config.freeWord (s.nonce * 65536 + 1)).toNat
    { s with
      nonce := s.nonce + 1
      msgs := s.msgs ++ [.value a.vf a.core (natBytes a.width (word / 2 ^ (8 * (off % 8))))] }

/-! ### Registers as they are written -/

/-- The register of the counter window that a store of 64 bits at an offset sets (R394, R400). -/
def counterReg (vf off : Nat) : Option RegName :=
  let cl := off / 2048
  let o := off % 2048
  if off < 2048 * Config.clusters then
    (if o < 0x080 then some (.counter vf cl (o / 8))
     else if o < 0x100 then some (.control vf cl (o / 8 - 16))
     else if o < 0x200 then some (if o / 8 % 2 = 0 then .rbase vf cl ((o / 8 - 32) / 2) else .rlimit vf cl ((o / 8 - 32) / 2))
     else if o = 0x428 then some (.lctl vf cl)
     else if 0x430 ≤ o ∧ o < 0x450 then some (.bkpt vf cl (o / 8 - 134))
     else none)
  else if off < 0xA0400 then
    some (if off % 16 = 0 then .shared vf ((off - 0xA0000) / 16) else .sharedControl vf ((off - 0xA0000) / 16))
  else match off - 0xA0400 with
    | 0 => some (.tbase vf)
    | 8 => some (.tctl vf)
    | 24 => some (.tcons vf)
    | _ => none

/-- A 64-bit store at an aligned offset of a page (R228, R268, R337, R365, R367, R391, R394, R400). A window request (WCMD)
reaches Furze as an event of its own; a gang command goes when the last byte of its record is stored. -/
def State.storeWord (s : State) (vf : Nat) (p : Page) (off : Nat) (v : BitVec 64) : State :=
  match p with
  | .memory | .capability => s
  | .control =>
    (match off with
      | 0x00 => evRegisterWrite (.groot vf) v s
      | 0x08 => evRegisterWrite (.pager vf) v s
      | 0x10 => evRegisterWrite (.ring vf) v s
      | 0x18 => evTreg vf v s
      | 0x20 => s
      | _ => s.note .store)
  | .counters => match counterReg vf off with
    | some r => evRegisterWrite r v s
    | none => s
  | .lammas => if 0x40 ≤ off ∧ off < 0x80 then s.gangBytes vf (off - 0x40) (natBytes 8 v.toNat) else s.note .store
  | .pager =>
    if off = 8 then evPagerInval vf v s
    else if off != 0 then s.note .store
    else if v.getLsbD 63 then evPagerReplayFail vf v s
    else evPagerReplay vf v s
  | .queue q => if off = 0 then evQueueSubmit vf q v s else s.note .store
  | .channel die chan => if off = 0 then evCopyApertureStart die chan v s else s.note .store

/-- A store to a page by a core: one that is not of 64 bits at an aligned offset is discarded and counted, but for the bytes of
a gang command record (R228, R268, R337, R365, R391). A store of fewer than 64 bits to an RW register of the counter window is one of
those that are discarded: R330 and R394 give no width for stores there, and this is the model's choice (log 98). -/
def State.storePage (s : State) (a : CoreAccess) : State :=
  let off := a.va.toNat
  if a.width = 8 && off % 8 = 0 then s.storeWord a.vf a.page off (BitVec.ofNat 64 (leNat (a.data.take 8)))
  else match a.page with
    | .capability => s
    | .lammas =>
      if 0x40 ≤ off ∧ off + a.width ≤ 0x80 then s.gangBytes a.vf (off - 0x40) (a.data.take a.width) else s.note .store
    | _ => s.note .store

/-! ### Device virtual memory -/

/-- A core's store of bytes at their home: into a damaged line it writes its own bytes, and the line keeps its error (R375);
into an ERRORED line of a slice it is refused and counted (R376). -/
def State.coreStore (s : State) (vf arena pa : Nat) (bytes : List Byte) : State :=
  if s.errs pa && !s.hier.slices.any fun x => x.line = pa / 128 && x.kind = .dirty then
    { s with ms := { s.ms with mem := Memory.writeN s.ms.mem pa bytes } }.wakeLine (pa / 128)
  else s.store none vf arena pa bytes

/-- The rights that a core's access needs (R363, R366). -/
def CoreAccess.need (a : CoreAccess) : Need := { r := !a.store && !a.fetch, w := a.store, x := a.fetch }

/-- The core's access-fault exception, of an instruction, a load or a store (R292, R296, R375). -/
def CoreAccess.fault (a : CoreAccess) : CoreMsg :=
  if a.fetch then .fetchAccessFault a.vf a.core a.va else .accessFault a.vf a.core a.va a.store

/-- An access of a core to device virtual memory, a load, a store or an instruction fetch (R292, R296, R366, R375): the two stages,
the generation and seal checks at the core, and the access; a line held by a pin makes it wait (R186; log 95). -/
def State.coreMemory (s : State) (a : CoreAccess) : State :=
  let k : Key := { t := a.core, gl := 2 ^ 64 + a.vf }
  let va := a.va.toNat
  let say (m : CoreMsg) : State := { s with msgs := s.msgs ++ [m] }
  match s.xlateNow a.vf va (CoreAccess.need a) with
  | .missing => say (if a.fetch then .fetchPageFault a.vf a.core a.va else .pageFault a.vf a.core a.va a.store)
  | .pmiss _ => say (.guestPageFault a.vf a.core a.va)
  | .denied => say (CoreAccess.fault a)
  | .ok pa arena =>
    if (s.vf a.vf).staleAt arena then (if a.store then s.note .store else say (CoreAccess.fault a))
    else if a.store && (s.vf a.vf).sealedAt arena then say (CoreAccess.fault a)
    else if inImport pa then
      (if (s.importOf pa).revoked then say (CoreAccess.fault a)
       else if a.store then s.ask a.vf 2 2 pa 0 a.width (a.data.take a.width) {}
       else
        let s := s.ask a.vf 1 2 pa 0 a.width [] {}
        let own (r : Req) : Req := if r.tag = s.uids then { r with core := some (a.vf, a.core) } else r
        { s with fab := { s.fab with reqs := s.fab.reqs.map own } })
    else if s.ms.refuses none (pa / 128) then s.pinWait (pa / 128) k
    else
      let s := s.pinServed k
      if a.store then s.coreStore a.vf arena pa (a.data.take a.width)
      else if s.errs pa then { s with msgs := s.msgs ++ [CoreAccess.fault a] }
      else
        let (s, b) := s.load pa a.width
        let s := s.engineLine none a.vf arena pa
        { s with msgs := s.msgs ++ [.value a.vf a.core b] }

/-- APPLICATION_CORE_ACCESS (R4, R292, R366, R389, R409): to a page that is not mapped for the core or the host, the access
meets Furze's partition stage (log 96). -/
def evCoreAccess (a : CoreAccess) (s : State) : State :=
  if !s.pageIn a.vf a.core a.page then { s with msgs := s.msgs ++ [.guestPageFault a.vf a.core a.va] }
  else if a.page = .memory then s.coreMemory a
  else if a.store then s.storePage a
  else s.readPage a

/-- APPLICATION_CORE_ACCESS (R292, R366). -/
def execApplicationCoreAccess (a : CoreAccess) (s : State) : Host.Outcome State Fault Refusal := .next (evCoreAccess a s)

end Sys2Proof.Machine
end

