-- ==== Sys2Proof/Machine/Stream.lean ====
section
/-! DEFINITION. Streams (R224 to R226): QPOP, QPEEK, QPUSH, QADV, QRST and what completes them. -/

namespace Sys2Proof.Machine

/-- The stream that the instruction names. -/
def Cx.stream (c : Cx) : Nat := c.e.op1.index
/-- Its table entry (R224). -/
def Cx.entry (c : Cx) : BitVec 256 := c.g.launch.streams.getD c.stream 0
/-- Its state. -/
def Cx.streamState (c : Cx) : Stream := c.g.streams.getD c.stream { idx := [0, 0, 0, 0], r := 0, p := 0, a := 0, tiles := [] }
/-- The group with the named stream changed. -/
def Group.setStream (g : Group) (q : Nat) (f : Stream → Stream) : Group := { g with streams := modAt g.streams q f }

/-- The stream is a ring (R224). -/
def Cx.isRing (c : Cx) : Bool := streamKind c.entry = 2

/-- The sheaf is held at its stream instruction, a QPOP keeping its first order (R225); the order of others is 0. -/
def State.holdStream (s : State) (c : Cx) (rst : Bool) : State :=
  match c.sh.hold with
  | .stream _ _ _ _ => s
  | _ =>
    let n := s.uids + 1
    { s with uids := n }.setSheaf c.gi c.si fun sh =>
      { sh with hold := .stream c.stream (if c.o = Op.qpop then n else 0) rst c.site }

/-- Another sheaf has waited longer at a QPOP of the ring (R225). -/
def Cx.behind (c : Cx) : Bool :=
  let mine : Option Nat := match c.sh.hold with
    | .stream _ n _ _ => some n
    | _ => none
  c.g.sheaves.any fun sh => match sh.hold with
    | .stream q n false _ => q = c.stream && n != 0 && (match mine with
      | some m => n < m
      | none => true)
    | _ => false

/-- QPOP (R224, R225). -/
def qpopBody (c : Cx) (s : State) : Act :=
  match c.act with
  | [] => .done s
  | t :: _ =>
    let x := c.streamState
    match x.tiles[x.p]? with
    | some (.filled, err) =>
      if c.behind then .stay (s.holdStream c false)
      else
        let off := sf c.entry 32 32 + x.p * sf c.entry 64 16 + (if err then 2 ^ 31 else 0)
        .done (s.setGroup c.gi fun g => (g.putAll t.key (c.dstN 1 off)).setStream c.stream fun x =>
          { x with tiles := modAt x.tiles x.p fun y => (.popped, y.2), p := (x.p + 1) % x.tiles.length })
    | _ => .stay (s.holdStream c false)

/-- The current address of an affine stream (R224). -/
def Cx.affine (c : Cx) : Nat :=
  let x := c.entry
  let base := sf x 32 32
  let st := (List.range 4).map fun k => (c.streamState.idx.getD k 0 : Int) * sext 32 (sf x (128 + 32 * k) 32)
  if sf x 2 1 = 1 then wrap 32 ((base : Int) + st.sum)
  else
    let arg : Nat := (c.g.launch.args.getD base 0).toNat + 2 ^ 32 * (c.g.launch.args.getD (base + 1) 0).toNat
    wrap 64 ((arg : Int) + st.sum)

/-- QPEEK (R225). -/
def qpeekBody (c : Cx) (s : State) : Act :=
  match c.act with
  | [] => .done s
  | t :: _ =>
    let x := c.streamState
    let val := if c.isRing then
        sf c.entry 32 32 + x.r * sf c.entry 64 16
          + (if ((x.tiles[x.r]?).map Prod.fst) = some .free then 0 else 2 ^ 31)
      else c.affine
    .done (s.setGroup c.gi fun g => g.putAll t.key (c.dstN 2 val))

/-- QPUSH (R224, R226): the tile is reserved at once and becomes FILLED by QPUSH_TILE_FILLED, once the thread's V and X accesses
have performed. -/
def qpushBody (c : Cx) (s : State) : Act :=
  match c.act with
  | [] => .done s
  | t :: _ =>
    let x := c.streamState
    let ids := s.fenceIds c.g t.key 9
    if ((x.tiles[x.r]?).map Prod.fst) = some .free then
      .done (s.setGroup c.gi fun g => g.setStream c.stream fun x =>
        { x with tiles := modAt x.tiles x.r fun y => (.pushed ids, y.2), r := (x.r + 1) % x.tiles.length })
    else .stay (s.holdStream c false)

/-- The indices of an affine stream one step on (R225): carries run from i0 to i3. -/
def stepIdx (counts : List Nat) : List Nat → List Nat
  | [] => []
  | i :: is => match counts with
    | [] => i :: is
    | n :: ns => if i + 1 < n then (i + 1) :: is else 0 :: stepIdx ns is

/-- Two ranges of bytes share one. -/
def overlap (a m b n : Nat) : Bool := a < b + n && b < a + m

/-- The scratchpad bytes that one side of a copy reaches, from a base, in whole lines, which a swizzle does not leave. -/
def Copy.reaches (k : Copy) (base lo row a n : Nat) : Bool :=
  let r := tmplSpan k.tmpl lo row
  let first := ((base : Int) + r.1).toNat / 128 * 128
  overlap first (((base : Int) + r.2 + 127).toNat / 128 * 128 - first) a n

/-- A copy reads or writes a range of its own group's scratchpad. -/
def Copy.uses (k : Copy) (a n : Nat) : Bool :=
  (k.ssp = 1 && k.reaches (k.src % 2 ^ 32) 256 (k.cnt 0 * k.sbits / 8) a n)
    || (k.dsp = 1 && !k.ring && k.reaches (k.dst % 2 ^ 32) 352 (k.cnt 0 * k.dbits / 8) a n)

/-- A matrix command reads or writes a range of its group's scratchpad (R235, R236, R240, R241). -/
def MxCmd.uses (k : MxCmd) (g : Group) (a n : Nat) : Bool :=
  match k.o with
  | .mma =>
    let ca := mxContainer k.e.ty.toNat (g.launch.ks.getD k.e.sc.toNat 0)
    let cb := mxContainer k.e.ty.toNat (g.launch.ks.getD (k.e.lo.toNat % 8) 0)
    overlap k.base (4 * pairK (Nat.max ca cb) * ca) a n
  | .wbld => k.e.lo.toNat / 4 % 2 = 1 && overlap k.base k.y a n
  | .aadd => k.e.lo.toNat / 2 = 2 && overlap k.base 16384 a n
  | .adrain => k.toScratch && (List.range 1024).any fun i => match k.place g none i with
      | some (b, _) => a ≤ b && b < a + n
      | none => false
  | _ => false

/-- The accesses of a thread to a range of its scratchpad that have not performed: those of its copies and matrix commands
(R226). -/
def State.tileUsers (s : State) (g : Group) (k : Key) (a n : Nat) : List Nat :=
  ((s.copies.filter fun x => x.group = some g.uid && x.key = k && x.uses a n).map Copy.id)
    ++ (((s.fill ++ s.compute).filter fun x => x.group = g.uid && x.key = k && x.uses g a n).map MxCmd.id)

/-- QADV (R224 to R226). -/
def qadvBody (c : Cx) (s : State) : Act :=
  match c.act with
  | [] => .done s
  | t :: _ =>
    if c.isRing then
      let x := c.streamState
      if ((x.tiles[x.a]?).map Prod.fst) = some .popped then
        let ids := s.tileUsers c.g t.key (sf c.entry 32 32 + x.a * sf c.entry 64 16) (sf c.entry 64 16)
        .done (s.setGroup c.gi fun g => g.setStream c.stream fun x =>
          { x with tiles := modAt x.tiles x.a fun y => (.advanced ids, y.2), a := (x.a + 1) % x.tiles.length })
      else .done s
    else
      let counts := (List.range 4).map fun k => sf c.entry (64 + 16 * k) 16
      .done (s.setGroup c.gi fun g => g.setStream c.stream fun x => { x with idx := stepIdx counts x.idx })

/-- A stream after QRST (R224, R225). -/
def Stream.rewind (x : Stream) : Stream :=
  { idx := [0, 0, 0, 0], r := 0, p := 0, a := 0, tiles := x.tiles.map fun _ => (.free, false) }

/-- No tile of the stream is RESERVED. -/
def Stream.settled (x : Stream) : Bool := x.tiles.all fun y => !y.1.isReserved

/-- QRST (R224, R225). -/
def qrstBody (c : Cx) (s : State) : Act :=
  match c.act with
  | [] => .done s
  | _ :: _ =>
    if c.streamState.settled then .done (s.setGroup c.gi fun g => g.setStream c.stream Stream.rewind)
    else .stay (s.holdStream c true)

/-- QPUSH_TILE_FILLED (R224, R226): the release of the QPUSH has performed. -/
def evQpushTileFilled (gi q tile : Nat) (s : State) : State :=
  match (s.groups[gi]?).bind fun g => (g.streams[q]?).bind fun x => x.tiles[tile]? with
  | some (.pushed ids, _) =>
    if ids.any s.underWay.contains then s
    else s.setGroup gi fun g => g.setStream q fun x =>
      { x with tiles := modAt x.tiles tile fun _ => (.filled, false) }
  | _ => s

/-- QADV_TILE_FREE (R226): the accesses that the QADV waits for have performed. -/
def evQadvTileFree (gi q tile : Nat) (s : State) : State :=
  match (s.groups[gi]?).bind fun g => (g.streams[q]?).bind fun x => x.tiles[tile]? with
  | some (.advanced ids, _) =>
    if ids.any s.underWay.contains then s
    else s.setGroup gi fun g => g.setStream q fun x =>
      { x with tiles := modAt x.tiles tile fun _ => (.free, false) }
  | _ => s

/-- QRST_RESET (R224): the ring resets once no tile is RESERVED, and the sheaf held at its QRST
goes on, in the first context that is free (R147, R225). -/
def evQrstReset (gi q : Nat) (s : State) : State :=
  match s.groups[gi]? with
  | none => s
  | some g =>
    let held := g.sheaves.zipIdx.findSome? fun (sh, si) => match sh.hold with
      | .stream n _ true site => if n = q then some (si, site) else none
      | _ => none
    match held, g.streams[q]? with
    | some (si, site), some x =>
      if x.settled && g.stop = .running then
        let s := s.setGroup gi fun g => g.setStream q Stream.rewind
        match s.cxAt gi si site.word 3 .qrst {} with
        | some c =>
          let s := s.advance c
          if s.contexts g.cl g.slot ≤ 32 then s
          else s.setSheaf gi si fun sh => { sh with hold := .back s.clock true none }
        | none => s
      else s
    | _, _ => s

/-- QPOP (R225). -/
def execQpop (e : Ext) (s : State) : Host.Outcome State Fault Refusal := issueE .qpop e s qpopBody
/-- QPEEK (R225). -/
def execQpeek (e : Ext) (s : State) : Host.Outcome State Fault Refusal := issueE .qpeek e s qpeekBody
/-- QPUSH (R225). -/
def execQpush (e : Ext) (s : State) : Host.Outcome State Fault Refusal := issueE .qpush e s qpushBody
/-- QADV (R225). -/
def execQadv (e : Ext) (s : State) : Host.Outcome State Fault Refusal := issueE .qadv e s qadvBody
/-- QRST (R225). -/
def execQrst (e : Ext) (s : State) : Host.Outcome State Fault Refusal := issueE .qrst e s qrstBody
/-- QPUSH_TILE_FILLED (R224). -/
def execQpushTileFilled (g q tile : Nat) (s : State) : Host.Outcome State Fault Refusal :=
  .next (evQpushTileFilled g q tile s)
/-- QADV_TILE_FREE (R226). -/
def execQadvTileFree (g q tile : Nat) (s : State) : Host.Outcome State Fault Refusal := .next (evQadvTileFree g q tile s)
/-- QRST_RESET (R224). -/
def execQrstReset (g q : Nat) (s : State) : Host.Outcome State Fault Refusal := .next (evQrstReset g q s)

end Sys2Proof.Machine
end

