-- ==== Sys2Proof/Machine/Dispatch.lean ====
section
/-! DEFINITION. The one match over the instructions and events: one arm, one meaning each (R68, and the rule of each
meaning). -/

namespace Sys2Proof.Machine

/-- The outcome of an instruction of the current sheaf, or of an event. -/
def exec (i : Instr) (s : State) : Host.Outcome State Fault Refusal :=
  match i with
  | .runClause h => Sys2Proof.Machine.execRunClause h s
  | .addBase b => Sys2Proof.Machine.execAddBase b s
  | .subBase b => Sys2Proof.Machine.execSubBase b s
  | .mulBase b => Sys2Proof.Machine.execMulBase b s
  | .andBase b => Sys2Proof.Machine.execAndBase b s
  | .orBase b => Sys2Proof.Machine.execOrBase b s
  | .xorBase b => Sys2Proof.Machine.execXorBase b s
  | .andnBase b => Sys2Proof.Machine.execAndnBase b s
  | .shlBase b => Sys2Proof.Machine.execShlBase b s
  | .shrlBase b => Sys2Proof.Machine.execShrlBase b s
  | .shraBase b => Sys2Proof.Machine.execShraBase b s
  | .minI32Base b => Sys2Proof.Machine.execMinI32Base b s
  | .maxI32Base b => Sys2Proof.Machine.execMaxI32Base b s
  | .minN32Base b => Sys2Proof.Machine.execMinN32Base b s
  | .maxN32Base b => Sys2Proof.Machine.execMaxN32Base b s
  | .faddBase b => Sys2Proof.Machine.execFaddBase b s
  | .fsubBase b => Sys2Proof.Machine.execFsubBase b s
  | .fmulBase b => Sys2Proof.Machine.execFmulBase b s
  | .fminBase b => Sys2Proof.Machine.execFminBase b s
  | .fmaxBase b => Sys2Proof.Machine.execFmaxBase b s
  | .ffmaBase b => Sys2Proof.Machine.execFfmaBase b s
  | .pfmaBf16x2Base b => Sys2Proof.Machine.execPfmaBf16x2Base b s
  | .pfmaF16x2Base b => Sys2Proof.Machine.execPfmaF16x2Base b s
  | .madBase b => Sys2Proof.Machine.execMadBase b s
  | .rotBase b => Sys2Proof.Machine.execRotBase b s
  | .add e => Sys2Proof.Machine.execAdd e s
  | .sub e => Sys2Proof.Machine.execSub e s
  | .mul e => Sys2Proof.Machine.execMul e s
  | .mulh e => Sys2Proof.Machine.execMulh e s
  | .mad e => Sys2Proof.Machine.execMad e s
  | .div e => Sys2Proof.Machine.execDiv e s
  | .min e => Sys2Proof.Machine.execMin e s
  | .max e => Sys2Proof.Machine.execMax e s
  | .abs e => Sys2Proof.Machine.execAbs e s
  | .neg e => Sys2Proof.Machine.execNeg e s
  | .lea e => Sys2Proof.Machine.execLea e s
  | .cmp e => Sys2Proof.Machine.execCmp e s
  | .sel e => Sys2Proof.Machine.execSel e s
  | .mov e => Sys2Proof.Machine.execMov e s
  | .movi e => Sys2Proof.Machine.execMovi e s
  | .cvti e => Sys2Proof.Machine.execCvti e s
  | .and e => Sys2Proof.Machine.execAnd e s
  | .or e => Sys2Proof.Machine.execOr e s
  | .xor e => Sys2Proof.Machine.execXor e s
  | .andn e => Sys2Proof.Machine.execAndn e s
  | .not e => Sys2Proof.Machine.execNot e s
  | .shl e => Sys2Proof.Machine.execShl e s
  | .shrl e => Sys2Proof.Machine.execShrl e s
  | .shra e => Sys2Proof.Machine.execShra e s
  | .rot e => Sys2Proof.Machine.execRot e s
  | .bfe e => Sys2Proof.Machine.execBfe e s
  | .bfi e => Sys2Proof.Machine.execBfi e s
  | .popc e => Sys2Proof.Machine.execPopc e s
  | .clz e => Sys2Proof.Machine.execClz e s
  | .ctz e => Sys2Proof.Machine.execCtz e s
  | .brev e => Sys2Proof.Machine.execBrev e s
  | .permb e => Sys2Proof.Machine.execPermb e s
  | .plop e => Sys2Proof.Machine.execPlop e s
  | .pmov e => Sys2Proof.Machine.execPmov e s
  | .fadd e => Sys2Proof.Machine.execFadd e s
  | .fsub e => Sys2Proof.Machine.execFsub e s
  | .fmul e => Sys2Proof.Machine.execFmul e s
  | .ffma e => Sys2Proof.Machine.execFfma e s
  | .fmin e => Sys2Proof.Machine.execFmin e s
  | .fmax e => Sys2Proof.Machine.execFmax e s
  | .fcmp e => Sys2Proof.Machine.execFcmp e s
  | .fclass e => Sys2Proof.Machine.execFclass e s
  | .fround e => Sys2Proof.Machine.execFround e s
  | .fldexp e => Sys2Proof.Machine.execFldexp e s
  | .ffrexp e => Sys2Proof.Machine.execFfrexp e s
  | .pfma e => Sys2Proof.Machine.execPfma e s
  | .fdot2 e => Sys2Proof.Machine.execFdot2 e s
  | .frcp e => Sys2Proof.Machine.execFrcp e s
  | .frsq e => Sys2Proof.Machine.execFrsq e s
  | .fsqrt e => Sys2Proof.Machine.execFsqrt e s
  | .fdiv e => Sys2Proof.Machine.execFdiv e s
  | .fexp2 e => Sys2Proof.Machine.execFexp2 e s
  | .flog2 e => Sys2Proof.Machine.execFlog2 e s
  | .fsinp e => Sys2Proof.Machine.execFsinp e s
  | .fcosp e => Sys2Proof.Machine.execFcosp e s
  | .cvt e => Sys2Proof.Machine.execCvt e s
  | .cvtf e => Sys2Proof.Machine.execCvtf e s
  | .cvtn e => Sys2Proof.Machine.execCvtn e s
  | .qnt e => Sys2Proof.Machine.execQnt e s
  | .dqn e => Sys2Proof.Machine.execDqn e s
  | .qblk e => Sys2Proof.Machine.execQblk e s
  | .qscl e => Sys2Proof.Machine.execQscl e s
  | .pack e => Sys2Proof.Machine.execPack e s
  | .unpk e => Sys2Proof.Machine.execUnpk e s
  | .rnd e => Sys2Proof.Machine.execRnd e s
  | .rowMatch e => Sys2Proof.Machine.execRowMatch e s
  | .bfly e => Sys2Proof.Machine.execBfly e s
  | .shfl e => Sys2Proof.Machine.execShfl e s
  | .vote e => Sys2Proof.Machine.execVote e s
  | .rowred e => Sys2Proof.Machine.execRowred e s
  | .elect e => Sys2Proof.Machine.execElect e s
  | .braU e => Sys2Proof.Machine.execBraU e s
  | .braS e => Sys2Proof.Machine.execBraS e s
  | .braM e => Sys2Proof.Machine.execBraM e s
  | .brx e => Sys2Proof.Machine.execBrx e s
  | .call e => Sys2Proof.Machine.execCall e s
  | .ret e => Sys2Proof.Machine.execRet e s
  | .reform e => Sys2Proof.Machine.execReform e s
  | .exit e => Sys2Proof.Machine.execExit e s
  | .yield e => Sys2Proof.Machine.execYield e s
  | .nop e => Sys2Proof.Machine.execNop e s
  | .trap e => Sys2Proof.Machine.execTrap e s
  | .brk e => Sys2Proof.Machine.execBrk e s
  | .sreg e => Sys2Proof.Machine.execSreg e s
  | .swreg e => Sys2Proof.Machine.execSwreg e s
  | .icinv e => Sys2Proof.Machine.execIcinv e s
  | .ld e => Sys2Proof.Machine.execLd e s
  | .st e => Sys2Proof.Machine.execSt e s
  | .lds e => Sys2Proof.Machine.execLds e s
  | .sts e => Sys2Proof.Machine.execSts e s
  | .ldt e => Sys2Proof.Machine.execLdt e s
  | .stt e => Sys2Proof.Machine.execStt e s
  | .ldc e => Sys2Proof.Machine.execLdc e s
  | .pref e => Sys2Proof.Machine.execPref e s
  | .stx e => Sys2Proof.Machine.execStx e s
  | .ldf e => Sys2Proof.Machine.execLdf e s
  | .ste e => Sys2Proof.Machine.execSte e s
  | .feinit e => Sys2Proof.Machine.execFeinit e s
  | .waita e => Sys2Proof.Machine.execWaita e s
  | .atom e => Sys2Proof.Machine.execAtom e s
  | .red e => Sys2Proof.Machine.execRed e s
  | .atoms e => Sys2Proof.Machine.execAtoms e s
  | .barArv e => Sys2Proof.Machine.execBarArv e s
  | .barWait e => Sys2Proof.Machine.execBarWait e s
  | .barSync e => Sys2Proof.Machine.execBarSync e s
  | .barSet e => Sys2Proof.Machine.execBarSet e s
  | .barSwap e => Sys2Proof.Machine.execBarSwap e s
  | .barexp e => Sys2Proof.Machine.execBarexp e s
  | .fence e => Sys2Proof.Machine.execFence e s
  | .cpy e => Sys2Proof.Machine.execCpy e s
  | .cpym e => Sys2Proof.Machine.execCpym e s
  | .qpop e => Sys2Proof.Machine.execQpop e s
  | .qpeek e => Sys2Proof.Machine.execQpeek e s
  | .qpush e => Sys2Proof.Machine.execQpush e s
  | .qadv e => Sys2Proof.Machine.execQadv e s
  | .qrst e => Sys2Proof.Machine.execQrst e s
  | .wbld e => Sys2Proof.Machine.execWbld e s
  | .mma e => Sys2Proof.Machine.execMma e s
  | .azero e => Sys2Proof.Machine.execAzero e s
  | .adrain e => Sys2Proof.Machine.execAdrain e s
  | .aread e => Sys2Proof.Machine.execAread e s
  | .aadd e => Sys2Proof.Machine.execAadd e s
  | .glean e => Sys2Proof.Machine.execGlean e s
  | .nextit e => Sys2Proof.Machine.execNextit e s
  | .glend e => Sys2Proof.Machine.execGlend e s
  | .gadd e => Sys2Proof.Machine.execGadd e s
  | .glstat e => Sys2Proof.Machine.execGlstat e s
  | .arnew e => Sys2Proof.Machine.execArnew e s
  | .ardrop e => Sys2Proof.Machine.execArdrop e s
  | .arseal e => Sys2Proof.Machine.execArseal e s
  | .arqry e => Sys2Proof.Machine.execArqry e s
  | .aalloc e => Sys2Proof.Machine.execAalloc e s
  | .statrd e => Sys2Proof.Machine.execStatrd e s
  | .statfl e => Sys2Proof.Machine.execStatfl e s
  | .statrst e => Sys2Proof.Machine.execStatrst e s
  | .task e => Sys2Proof.Machine.execTask e s
  | .tdep e => Sys2Proof.Machine.execTdep e s
  | .tsig e => Sys2Proof.Machine.execTsig e s
  | .uint e => Sys2Proof.Machine.execUint e s
  | .pmrd e => Sys2Proof.Machine.execPmrd e s
  | .mark e => Sys2Proof.Machine.execMark e s
  | .clk e => Sys2Proof.Machine.execClk e s
  | .rowCollectiveAct g row => Sys2Proof.Machine.execRowCollectiveAct g row s
  | .rowStall g row => Sys2Proof.Machine.execRowStall g row s
  | .flagCompletion g k => Sys2Proof.Machine.execFlagCompletion g k s
  | .scoreboardResult g k => Sys2Proof.Machine.execScoreboardResult g k s
  | .feTimeout g t => Sys2Proof.Machine.execFeTimeout g t s
  | .waitaPoll g t => Sys2Proof.Machine.execWaitaPoll g t s
  | .setPhaseComplete task set => Sys2Proof.Machine.execSetPhaseComplete task set s
  | .copyUnitService cl => Sys2Proof.Machine.execCopyUnitService cl s
  | .copyComplete cl k => Sys2Proof.Machine.execCopyComplete cl k s
  | .qpushTileFilled g q tile => Sys2Proof.Machine.execQpushTileFilled g q tile s
  | .qadvTileFree g q tile => Sys2Proof.Machine.execQadvTileFree g q tile s
  | .qrstReset g q => Sys2Proof.Machine.execQrstReset g q s
  | .copyApertureStart die chan data => Sys2Proof.Machine.execCopyApertureStart die chan data s
  | .matrixCommandComplete cl fill => Sys2Proof.Machine.execMatrixCommandComplete cl fill s
  | .helperAbandon g gl part => Sys2Proof.Machine.execHelperAbandon g gl part s
  | .arenaChangePoint vf k => Sys2Proof.Machine.execArenaChangePoint vf k s
  | .sealPoint vf idx => Sys2Proof.Machine.execSealPoint vf idx s
  | .sweepEnd vf idx => Sys2Proof.Machine.execSweepEnd vf idx s
  | .windrowPushTimer k => Sys2Proof.Machine.execWindrowPushTimer k s
  | .windrowMerge k => Sys2Proof.Machine.execWindrowMerge k s
  | .queueSubmit vf q data => Sys2Proof.Machine.execQueueSubmit vf q data s
  | .placement part => Sys2Proof.Machine.execPlacement part s
  | .agingTick task => Sys2Proof.Machine.execAgingTick task s
  | .coresidentSetTimeout task set => Sys2Proof.Machine.execCoresidentSetTimeout task set s
  | .groupExit g => Sys2Proof.Machine.execGroupExit g s
  | .taskRetire task => Sys2Proof.Machine.execTaskRetire task s
  | .sheafDraw cl slot => Sys2Proof.Machine.execSheafDraw cl slot s
  | .binAgeExpiry g pc => Sys2Proof.Machine.execBinAgeExpiry g pc s
  | .yieldDelayExpiry g pc => Sys2Proof.Machine.execYieldDelayExpiry g pc s
  | .pinTimeout line => Sys2Proof.Machine.execPinTimeout line s
  | .saveFrame g => Sys2Proof.Machine.execSaveFrame g s
  | .resultDelivery k j => Sys2Proof.Machine.execResultDelivery k j s
  | .restore k cl => Sys2Proof.Machine.execRestore k cl s
  | .worldSwitch part vf => Sys2Proof.Machine.execWorldSwitch part vf s
  | .counterLowRead hart vf cl k => Sys2Proof.Machine.execCounterLowRead hart vf cl k s
  | .counterHighRead hart vf cl k => Sys2Proof.Machine.execCounterHighRead hart vf cl k s
  | .debugHalt g => Sys2Proof.Machine.execDebugHalt g s
  | .pageWalk k => Sys2Proof.Machine.execPageWalk k s
  | .pagerInval vf data => Sys2Proof.Machine.execPagerInval vf data s
  | .pagerReplay vf data => Sys2Proof.Machine.execPagerReplay vf data s
  | .pagerReplayFail vf data => Sys2Proof.Machine.execPagerReplayFail vf data s
  | .folakRead f => Sys2Proof.Machine.execFolakRead f s
  | .folakWrite f => Sys2Proof.Machine.execFolakWrite f s
  | .folakAtomic f => Sys2Proof.Machine.execFolakAtomic f s
  | .folakReduction f => Sys2Proof.Machine.execFolakReduction f s
  | .folakDataResponse f => Sys2Proof.Machine.execFolakDataResponse f s
  | .folakAcknowledgement f => Sys2Proof.Machine.execFolakAcknowledgement f s
  | .folakRevoked f => Sys2Proof.Machine.execFolakRevoked f s
  | .folakError f => Sys2Proof.Machine.execFolakError f s
  | .linkRetransmit port => Sys2Proof.Machine.execLinkRetransmit port s
  | .nodeLoss node => Sys2Proof.Machine.execNodeLoss node s
  | .mkaSakInstall port owner sak => Sys2Proof.Machine.execMkaSakInstall port owner sak s
  | .windowExport w r => Sys2Proof.Machine.execWindowExport w r s
  | .windowImport j r => Sys2Proof.Machine.execWindowImport j r s
  | .windowRevoke w => Sys2Proof.Machine.execWindowRevoke w s
  | .revokeFlit node w => Sys2Proof.Machine.execRevokeFlit node w s
  | .drainMarker w node => Sys2Proof.Machine.execDrainMarker w node s
  | .treg vf data => Sys2Proof.Machine.execTreg vf data s
  | .reshape r => Sys2Proof.Machine.execReshape r s
  | .ptpMessage m => Sys2Proof.Machine.execPtpMessage m s
  | .clockLoss => Sys2Proof.Machine.execClockLoss s
  | .gangRegister vf c => Sys2Proof.Machine.execGangRegister vf c s
  | .gangStop vf c => Sys2Proof.Machine.execGangStop vf c s
  | .gangResume vf c => Sys2Proof.Machine.execGangResume vf c s
  | .gangAbort vf c => Sys2Proof.Machine.execGangAbort vf c s
  | .gangUnregister vf c => Sys2Proof.Machine.execGangUnregister vf c s
  | .gangStartTime vf e => Sys2Proof.Machine.execGangStartTime vf e s
  | .gangStopTime vf e => Sys2Proof.Machine.execGangStopTime vf e s
  | .gangGuardExpiry vf e => Sys2Proof.Machine.execGangGuardExpiry vf e s
  | .stragglerPolicyExpiry vf e => Sys2Proof.Machine.execStragglerPolicyExpiry vf e s
  | .gangResumeTime vf e => Sys2Proof.Machine.execGangResumeTime vf e s
  | .gangSilenceTimeout vf e => Sys2Proof.Machine.execGangSilenceTimeout vf e s
  | .gangMsgStop vf m => Sys2Proof.Machine.execGangMsgStop vf m s
  | .gangMsgResume vf m => Sys2Proof.Machine.execGangMsgResume vf m s
  | .gangMsgAbort vf m => Sys2Proof.Machine.execGangMsgAbort vf m s
  | .gangMsgHalted vf m => Sys2Proof.Machine.execGangMsgHalted vf m s
  | .gangMsgSaved vf m => Sys2Proof.Machine.execGangMsgSaved vf m s
  | .gangMsgResumed vf m => Sys2Proof.Machine.execGangMsgResumed vf m s
  | .gangMsgMode vf m => Sys2Proof.Machine.execGangMsgMode vf m s
  | .gangMsgArrive vf m => Sys2Proof.Machine.execGangMsgArrive vf m s
  | .gangMsgRelease vf m => Sys2Proof.Machine.execGangMsgRelease vf m s
  | .gangMsgReadyToGo vf m => Sys2Proof.Machine.execGangMsgReadyToGo vf m s
  | .gangMsgGo vf m => Sys2Proof.Machine.execGangMsgGo vf m s
  | .gangMsgFlush vf m => Sys2Proof.Machine.execGangMsgFlush vf m s
  | .powerGood => Sys2Proof.Machine.execPowerGood s
  | .stageBComplete quarters ports => Sys2Proof.Machine.execStageBComplete quarters ports s
  | .provisioningRecord r => Sys2Proof.Machine.execProvisioningRecord r s
  | .partitionStart part meas => Sys2Proof.Machine.execPartitionStart part meas s
  | .clusterRelease part => Sys2Proof.Machine.execClusterRelease part s
  | .vfReset vf => Sys2Proof.Machine.execVfReset vf s
  | .attestationQuote nonce => Sys2Proof.Machine.execAttestationQuote nonce s
  | .thermalThrottle on => Sys2Proof.Machine.execThermalThrottle on s
  | .thermalShutdown => Sys2Proof.Machine.execThermalShutdown s
  | .registerWrite r v => Sys2Proof.Machine.execRegisterWrite r v s
  | .lossOfLock => Sys2Proof.Machine.execLossOfLock s
  | .linkUp port => Sys2Proof.Machine.execLinkUp port s
  | .folakFrame f => Sys2Proof.Machine.execFolakFrame f s
  | .applicationCoreAccess a => Sys2Proof.Machine.execApplicationCoreAccess a s
  | .partitionStageMiss vf gpa ans => Sys2Proof.Machine.execPartitionStageMiss vf gpa ans s
  | .debuggerHold g on => Sys2Proof.Machine.execDebuggerHold g on s

end Sys2Proof.Machine
end

