-- ==== Sys2Proof/Machine/Issue.lean ====
section
/-! DEFINITION. The issue step of a sheaf: its fetch, the decoding, and the instruction's meaning (R54, R64, R68 to
R70, R148). -/

namespace Sys2Proof.Machine

/-- The instruction is an event of the device, not a word of a program. -/
def isEvent (i : Instr) : Bool := (encode i).isEmpty

/-- The words at a sheaf decode, and the sheaf issues what they say (R68 to R70, R401): at a header place only a valid
header, inside a clause anything but a header. -/
def State.runWords (s : State) (gi si : Nat) (g : Group) (sh : Sheaf) (ws : List Word) : Host.Outcome State Fault Refusal :=
  let w := ws.headD 0
  if sh.inClause && majorOf w = 0 then .next (s.wordFault gi si w { cls := 2 })
  else
    match decodeWords ws with
    | .ok (i, _) =>
      if !sh.inClause && majorOf w != 0 then .next (s.wordFault gi si w { cls := 2 })
      else if s.breaks g sh.pc then .next (s.stopAt gi si w)
      else exec i s
    | .error _ => .next (s.wordFault gi si w { cls := if sh.inClause then 1 else 2 })

/-- The fetch at a sheaf: one word at a header place and for a word that begins no instruction, else the whole
instruction (R54, R64). -/
def State.fetchAt (s : State) (g : Group) (sh : Sheaf) : Fetch :=
  match s.fetchN g sh 0 1 sh.pc [] with
  | .words [w] => if sh.inClause && majorOf w != 0 then s.fetch g sh sh.pc else .words [w]
  | x => x

/-- The words of a fetch pass the cluster's cache: their lines, partials combined, come into it where the cluster does not hold the
words yet (R159, R188, R190). -/
def State.fetchTags (s : State) (g : Group) (pc n : Nat) : State :=
  [pc, pc + 4 * (n - 1)].foldl (fun s va => match s.xlate g.cl g.vf va { x := true } with
    | .ok pa arena =>
      if inImport pa || s.holdsWord g.cl g.vf pa then s
      else (s.recall (pa / 128)).readLine g.cl g.vf arena pa false
    | _ => s) s

/-- The key under which a refused fetch of a sheaf waits: its first thread, beyond every TIDX. -/
def fetchKey (sh : Sheaf) : Key := { t := 2 ^ 32 + (sh.members.headD { t := 0, gl := 0 }).t, gl := 0 }

/-- The line of a word that a fetch of n words needs and neither the cluster nor the sheaf holds, where another group has it pinned
(R186). -/
def State.fetchHeld (s : State) (g : Group) (sh : Sheaf) (n : Nat) : Option Nat :=
  (List.range n).findSome? fun i => match s.xlate g.cl g.vf (sh.pc.toNat + 4 * i) { x := true } with
    | .ok pa _ =>
      if s.ms.refuses (some g.uid) (pa / 128) && !s.holdsWord g.cl g.vf pa && (sh.code.lookup pa).isNone then some (pa / 128)
      else none
    | _ => none

/-- What a fetch of n words leaves: lines, words held by the cluster (R190) and by the sheaf (R122), and a refusal served (R186). -/
def State.afterFetch (s : State) (gi si : Nat) (g : Group) (sh : Sheaf) (n : Nat) : State :=
  let s := { s with ms := s.ms.served g.uid (fetchKey sh) }
  let s := s.fetchTags g sh.pc.toNat n
  let s := if sh.inClause then s.keepWords gi si g sh n else s
  s.holdWords g.cl g.vf n sh.pc

/-- A thread stands in a slot whose group has passed its halt deadline (R318). -/
def State.slotOverdue (s : State) (g : Group) (k : Key) : Bool := k.gl != 0 && s.overdue g k

/-- A sheaf waits for something that an event brings: a collective (R124), a page (R366), a context (R147), a tile of a ring
together with a context (R225); or none of its threads may issue, or its group's halt deadline, or that of a slot that it
uses, has come (R257, R318), or the time T of its gang's stop (R340);
or a fence of a thread that names class I holds its fetch (R189, R213). -/
def State.waits (s : State) (g : Group) (sh : Sheaf) : Bool :=
  (g.members sh).isEmpty || g.stop.overdue s.clock || (g.stop = .running && s.gangStopped g.task)
    || (g.members sh).any (fun t => s.slotOverdue g t.key)
    || (g.presents sh).any (fun t => g.fences.any fun f => f.key = t.key && bitAt f.classes 5)
    || (match sh.hold with
    | .collective _ _ _ _ => true
    | .page _ _ _ _ _ => true
    | .back _ _ _ => true
    | .stream _ _ _ _ => !g.ringReady sh || 32 ≤ s.contexts g.cl g.slot
    | _ => false)

/-- The issue step of a sheaf: its regions move on at their RC (R116), then fetch, decode, execute (R68, R148); nothing
where it waits, or a pin refuses its fetch (R186). The cluster holds the words it has fetched (R190), and the sheaf those of its
clause (R122). -/
def State.issueAt (s : State) (gi si : Nat) : Host.Outcome State Fault Refusal :=
  match s.groups[gi]? with
  | none => .next s
  | some g =>
    match g.sheaves[si]? with
    | none => .next s
    | some sh =>
      if s.waits g sh then .next s
      else
        let sh := sh.atRc 9
        let g := { g with sheaves := modAt g.sheaves si fun _ => sh }
        let s := { s with cur := some (gi, si), groups := modAt s.groups gi fun _ => g }
        match s.fetchAt g sh with
        | .words ws =>
          match s.fetchHeld g sh ws.length with
          | some line => .next { s with ms := s.ms.noteRefused line g.uid (fetchKey sh) }
          | none => (s.afterFetch gi si g sh ws.length).runWords gi si g sh ws
        | .page va =>
          .next (s.missAt gi si g va false true false)
        | .bad f w => .next (s.wordFault gi si w f)

/-! ### The choice of a slot -/

/-- A sheaf as a slot looks at it: who it is, how long it has gone without issuing, the engine of its next instruction with
the clock after the slot's last issue there (0 for never), when it was drawn, its group index and lowest TIDX (R150). -/
structure Offer where
  group : Nat
  key : Key
  idle : Nat
  engine : Engine
  recent : Nat
  drawn : Nat
  gidx : Nat
  low : Nat
  deriving DecidableEq, Repr

/-- THE CHOICE AMONG READY SHEAVES (R150): rules 1 to 4 in turn. -/
def Offer.before (a b : Offer) : Bool :=
  let starved (x : Offer) : Bool := 256 ≤ x.idle
  if starved a != starved b then starved a
  else if starved a && a.idle != b.idle then b.idle < a.idle
  else if a.recent != b.recent then a.recent < b.recent
  else if a.drawn != b.drawn then a.drawn < b.drawn
  else if a.gidx != b.gidx then a.gidx < b.gidx
  else a.low < b.low

/-- Insertion in the order of R150. -/
def insertOffer (x : Offer) : List Offer → List Offer
  | [] => [x]
  | y :: ys => if x.before y then x :: y :: ys else y :: insertOffer x ys

/-- Offers in the order of R150. -/
def sortOffers : List Offer → List Offer
  | [] => []
  | x :: xs => insertOffer x (sortOffers xs)

/-- The engine that the next instruction of a sheaf targets; integer where no word can be read (log 80). -/
def State.engineAt (s : State) (g : Group) (sh : Sheaf) : Engine :=
  match s.xlate g.cl g.vf sh.pc.toNat { x := true } with
  | .ok pa _ => engineOf (majorOf (s.sheafWord g sh pa))
  | _ => .integer

/-- The sheaf of a group as its slot looks at it. -/
def State.offerOf (s : State) (g : Group) (sh : Sheaf) : Offer :=
  let e := s.engineAt g sh
  { group := g.uid, key := sh.members.headD { t := 0, gl := 0 }, idle := s.clock - sh.last, engine := e
    recent := (((s.slotAt g.cl g.slot).engines.getD e.index none).map (· + 1)).getD 0, drawn := sh.drawn, gidx := g.gidx
    low := match sh.members.map Key.t with
      | [] => 0
      | x :: xs => xs.foldl Nat.min x }

/-- The sheaves of a slot that do not wait, inside a clause or at a header place, with their groups. -/
def State.drawnAt (s : State) (cl slot : Nat) (inClause : Bool) : List (Group × Sheaf) :=
  (s.groups.filter fun g => g.cl = cl && g.slot = slot).flatMap fun g =>
    (g.sheaves.filter fun sh => (sh.atRc 9).inClause = inClause && !s.waits g sh).map fun sh => (g, sh)

/-- What a slot may choose from, in the order of R150. -/
def State.offers (s : State) (cl slot : Nat) : List Offer :=
  sortOffers ((s.drawnAt cl slot true).map fun x => s.offerOf x.1 x.2)

/-- Where the sheaf of a thread of a group stands now. -/
def State.sheafAt (s : State) (group : Nat) (k : Key) : Option (Nat × Nat) :=
  match s.groupOf group with
  | none => none
  | some gi => ((s.groups[gi]?).bind fun g => g.sheafOf k).map fun x => (gi, x.2)

/-- The sheaf of an offer issues now, as far as its engine does not matter (R148, 1 to 3). -/
def State.canIssue (s : State) (cl slot : Nat) (x : Offer) : Bool :=
  match s.sheafAt x.group x.key with
  | none => false
  | some (gi, si) =>
    match s.issueAt gi si with
    | .next t => t.issued cl slot
    | _ => false

/-- DIV does not occupy the integer engine of the slot (R87). -/
def State.idleEngine (s : State) (cl slot : Nat) (e : Engine) : Bool :=
  e != .integer || (s.slotAt cl slot).busy ≤ s.clock

/-- The engine to which a slot that has not issued in this clock offers an instruction. -/
def State.offered (s : State) (cl slot : Nat) : Option Engine :=
  if s.issued cl slot then none
  else ((s.offers cl slot).find? fun x => s.idleEngine cl slot x.engine && s.canIssue cl slot x).map Offer.engine

/-- THE ENGINE ACCEPTS an instruction of the slot in this clock (R148, R149): its own engine where DIV does not occupy it; a
shared one that has taken none in this clock, and to which no slot offers that comes first in rotating order. -/
def State.accepts (s : State) (cl slot : Nat) (e : Engine) : Bool :=
  let shared (x : SharedEngine) : Bool :=
    x.last != some s.clock && (List.range 4).all fun j =>
      (j + 3 - x.slot) % 4 ≥ (slot + 3 - x.slot) % 4 || s.offered cl j != some e
  match e with
  | .matrix => shared (s.cluster cl).matrixIssue
  | .copy => shared (s.cluster cl).copyIssue
  | e => s.idleEngine cl slot e

/-- The offers of a slot are tried in order until one issues; one that turns out to be stalled or held leaves the turn to the
next. -/
def State.tryOffers (cl slot : Nat) : List Offer → State → Host.Outcome State Fault Refusal
  | [], s => .next s
  | x :: xs, s =>
    match s.sheafAt x.group x.key with
    | none => State.tryOffers cl slot xs s
    | some (gi, si) =>
      if !s.accepts cl slot x.engine then State.tryOffers cl slot xs s
      else
        match s.issueAt gi si with
        | .next t => if t.issued cl slot then .next t else State.tryOffers cl slot xs t
        | r => r

/-- A sheaf at a header place is held by the header's wait mask (R64, R148). -/
def State.maskedAt (s : State) (g : Group) (sh : Sheaf) : Bool :=
  match s.fetchAt g (sh.atRc 9) with
  | .words (w :: _) => (match decodeWords [w] with
    | .ok (.runClause h, _) => h.wellFormed && g.headerWaits sh h
    | _ => false)
  | _ => false

/-- THE TURN OF AN ISSUE SLOT (R148 to R150): a sheaf at a header that its wait mask does not hold goes into its clause,
which takes no issue clock; else, where the slot has not issued in this clock, the first ready sheaf in the order of R150
issues. -/
def State.issueSlot (s : State) (cl slot : Nat) : Host.Outcome State Fault Refusal :=
  let heads := s.drawnAt cl slot false
  match (heads.find? fun x => !s.maskedAt x.1 x.2).bind fun x => s.sheafAt x.1.uid (x.2.members.headD { t := 0, gl := 0 }) with
  | some (gi, si) => s.issueAt gi si
  | none =>
    if s.issued cl slot then .next s
    else State.tryOffers cl slot (s.offers cl slot) (if heads.isEmpty then s else s.countSlot cl slot 5)

end Sys2Proof.Machine
end

