-- ==== Sys2Proof/Machine/Choose.lean ====
section
/-! DEFINITION. What moves next: an entry of the schedule, or the model's own choice (R5, R7; log 1); the passing of clocks,
in each of which every issue slot takes its turn (R148 to R151); errors that strike (R374 to R377). -/

namespace Sys2Proof.Machine

/-- The events that the device brings about by itself in a group. -/
def Group.ownEvents (g : Group) (gi : Nat) : List Instr :=
  (List.range g.outs.length).flatMap (fun i => [.flagCompletion gi i, .scoreboardResult gi i])
    ++ g.insts.flatMap (fun x => [.rowCollectiveAct gi x.row, .rowStall gi x.row])
    ++ (List.range g.threads.length).flatMap (fun t => [.feTimeout gi t, .waitaPoll gi t])
    ++ (List.range g.streams.length).flatMap (fun q => .qrstReset gi q
        :: (List.range ((g.streams[q]?).map fun x => x.tiles.length |>.add 0).get!).flatMap fun t =>
            [.qpushTileFilled gi q t, .qadvTileFree gi q t])
    ++ g.gleans.flatMap (fun x => (List.range 32).map fun p => .helperAbandon gi x.id p)
    ++ g.binPcs.map (.binAgeExpiry gi) ++ (g.threads.map fun t => .yieldDelayExpiry gi t.pc)
    ++ [.saveFrame gi, .groupExit gi]

/-- The events that the device brings about by itself. -/
def State.ownEvents (s : State) : List Instr :=
  let cls := List.range (s.clusters.length + 4)
  let vfs := List.range 128
  s.groups.zipIdx.flatMap (fun x => x.1.ownEvents x.2)
    ++ cls.flatMap (fun c => [.sheafDraw c 0, .sheafDraw c 1, .sheafDraw c 2, .sheafDraw c 3, .copyUnitService c
        , .matrixCommandComplete c true, .matrixCommandComplete c false])
    ++ cls.flatMap (fun c => (List.range (s.queued c)).map (.copyComplete c))
    ++ (List.range s.ms.walks.length).map .pageWalk
    ++ s.ms.pins.map (fun p => .pinTimeout p.line)
    ++ (List.range s.ms.windrows.length).map .windrowPushTimer ++ (List.range s.ms.pushes.length).map .windrowMerge
    ++ s.tasks.flatMap (fun t => (List.range 256).flatMap (fun i => [.setPhaseComplete t.uid i, .coresidentSetTimeout t.uid i])
        ++ [.agingTick t.uid, .taskRetire t.uid])
    ++ (List.range s.tasks.length).flatMap (fun i =>
        (List.range ((s.tasks[i]?).map fun t => t.saved.length).get!).map (.resultDelivery i))
    ++ (List.range 8).map .placement
    ++ vfs.flatMap (fun v => (List.range (s.vf v).changes.length).map (.arenaChangePoint v)
        ++ (s.vf v).changes.map (fun x => .sealPoint v (x.idxs.headD 0))
        ++ (s.vf v).sweeps.map (fun x => .sweepEnd v (x.idxs.headD 0)))
    ++ vfs.flatMap (fun v => (List.range 64).flatMap fun e => if (s.gang v e).state = 0 then [] else
        [.gangStartTime v e, .gangStopTime v e, .gangGuardExpiry v e, .stragglerPolicyExpiry v e, .gangResumeTime v e
        , .gangSilenceTimeout v e])
    ++ (List.range 24).map .linkRetransmit ++ s.fab.lostSince.map (fun x => .nodeLoss x.1) ++ [.clockLoss]
    ++ (List.range 8).flatMap (fun p => (List.range 16).map fun i => .worldSwitch p (16 * p + i))

/-! ### Clocks -/

/-- The state after an outcome; a stop leaves the state as it was. -/
def State.after (s : State) : Host.Outcome State Fault Refusal → State
  | .next t => t
  | _ => s

/-- A slot's whole clock: sheaves at headers go into their clauses, and one instruction issues (R148). -/
def State.runSlot : Nat → State → Nat → Nat → State
  | 0, s, _, _ => s
  | fuel + 1, s, cl, slot => State.runSlot fuel (s.after (s.issueSlot cl slot)) cl slot

/-- The slots that hold groups. -/
def State.slotsInUse (s : State) : List (Nat × Nat) := (s.groups.map fun g => (g.cl, g.slot)).eraseDups

/-- The sheaves that a slot holds. -/
def State.sheavesOf (s : State) (cl slot : Nat) : Nat :=
  ((s.groups.filter fun g => g.cl = cl && g.slot = slot).map fun g => g.sheaves.length).sum

/-- Every free context of a slot is given out (R145, R147). -/
def State.drawAll : Nat → State → Nat → Nat → State
  | 0, s, _, _ => s
  | fuel + 1, s, cl, slot => State.drawAll fuel (evSheafDraw cl slot s) cl slot

/-- The rotating order of the slots of a clock: from another one each time (R149). -/
def State.slotOrder (s : State) : List (Nat × Nat) :=
  let xs := s.slotsInUse
  let k := s.clock % (xs.length + 1)
  xs.drop k ++ xs.take k

/-! ### What falls due -/

/-- The first element that a test picks is dealt with, until none is left. -/
def State.untilNone {α : Type} (get : State → List α) (p : State → α → Bool) (f : Nat → State → State) : Nat → State → State
  | 0, s => s
  | fuel + 1, s => match (get s).findIdx? (p s) with
    | some i => State.untilNone get p f fuel (f i s)
    | none => s

/-- A windrow entry whose push timer has expired (R305). -/
def State.pushDue (s : State) (w : Windrow) : Bool := w.first + 2400 * s.chip.push.getD (w.vf / 16) 8 ≤ s.clock

/-- A pushed entry whose 4 µs are over, unless a pin refuses it (R305). -/
def State.mergeDue (s : State) (w : Windrow) : Bool := w.first + 9600 ≤ s.clock && !s.recordPinned w.vf w.recVa

/-- The stops of gangs whose T has come (R340). -/
def State.stopGangs (s : State) : State :=
  s.tasks.foldl (fun s t => match (s.vf t.vf).gangs.findIdx? fun e => e.task = t.idx && e.state = 3 with
    | some e => evGangStopTime t.vf e s
    | none => s) s

/-- What falls due at a clock happens at it: the ends of halts (R318, R322), the stops of gangs (R340), the timeouts of pins (R186), the
push timers and the merges of windrow entries (R305), and fences whose last access has performed (R213). -/
def State.due (s : State) : State :=
  let s := s.stopGangs.settleHalts
  let s := if s.ms.pins.any fun p => p.taken + 65536 ≤ s.clock then s.endPins fun p => p.taken + 65536 ≤ s.clock else s
  let s := State.untilNone (fun s => s.ms.windrows) State.pushDue evWindrowPushTimer s.ms.windrows.length s
  let s := State.untilNone (fun s => s.ms.pushes) State.mergeDue evWindrowMerge s.ms.pushes.length s
  if s.groups.any fun g => !g.fences.isEmpty || !g.arvs.isEmpty then s.answered else s

/-- Something may fall due before the next event. -/
def State.timed (s : State) : Bool :=
  !s.ms.pins.isEmpty || !s.ms.windrows.isEmpty || !s.ms.pushes.isEmpty || s.groups.any Group.leaving
    || s.tasks.any fun t => (s.vf t.vf).gangs.any fun e => e.task = t.idx && e.state = 3

/-- Furze withholds the issue cycle of this clock from the issue slots, matrix engines and copy units, unless a halt is pending (R13,
R411; log 121). -/
def State.withholds (s : State) : Bool :=
  s.chip.throttled && Config.withheld s.clock && !s.groups.any Group.leaving

/-- An event that needs an issue cycle of a matrix engine or a copy unit (R13). -/
def needsCycle : Instr → Bool
  | .copyUnitService _ => true
  | .matrixCommandComplete _ _ => true
  | _ => false

/-- ONE CLOCK (R13, R145, R148 to R151): every slot takes its turn, unless the clock is withheld, and gives out its free contexts; the
clock passes, and what falls due happens. So a ready sheaf issues as R150 has it, and a qualifying bin is drawn as soon as a context
is free. -/
def State.clockStep (s : State) (tai : Nat) : State :=
  let xs := s.slotOrder
  let s := if s.withholds then s
    else xs.foldl (fun s x => State.runSlot (2 * s.sheavesOf x.1 x.2 + 2) s x.1 x.2) s
  let s := xs.foldl (fun s x => State.drawAll 32 s x.1 x.2) s
  (s.tick 1 tai).due

/-- Nothing can issue, be drawn or fall due before an event: every sheaf waits, none of them for a context, and no bin holds a thread
that may issue. -/
def State.quiet (s : State) : Bool :=
  !s.timed && s.groups.all fun g => g.binPcs.isEmpty && g.sheaves.all fun sh => s.waits g sh && (match sh.hold with
      | .back _ _ _ => (g.members sh).isEmpty
      | _ => true)

/-- A number of clocks passes, each of a number of TAI units, in each of which every slot takes its turn (R151). -/
def State.pass (tai : Nat) : Nat → State → State
  | 0, s => s
  | n + 1, s => if s.quiet then s.tick (n + 1) ((n + 1) * tai) else State.pass tai n (s.clockStep tai)

/-! ### Errors that strike -/

/-- An uncorrectable error strikes a stored line where it stands: GROUP-HELD in a cluster cache, DIRTY in its slice, or in HBM4E (R175,
R376). -/
def State.harmLine (s : State) (l : Nat) : State :=
  let spoil (s : State) : State := { s with ms := { s.ms with errored := l :: s.ms.errored.filter fun x => x != l } }
  match s.hier.lines.find? fun c => c.line = l && c.kind = .held with
  | some c => spoil (s.noteError .clusterData (dieOf c.cl) l true none)
  | none =>
    match s.hier.slices.find? fun x => x.line = l && x.kind = .dirty with
    | some x => spoil (s.noteError .sliceDirty (x.slice / 48) l true none)
    | none =>
      let die := (((List.range 8).findSome? fun p => s.memoryOf p (l * 128)).map fun x => x.1 / 12).getD 0
      let s := s.noteError .memory die l true none
      { s with ms := { s.ms with spoilt := l :: s.ms.spoilt.filter fun x => x != l } }

/-- An error strikes (R175, R374 to R377). A correctable one is counted and logged, and changes nothing. An uncorrectable one
stands where it struck: in a register, which a reading instruction finds; in a scratchpad word, a partial, a cell, a
windrow entry or a stored line, for its readers; in a weight slot only if no global source can refill it. -/
def State.harm (s : State) : Harm → State
  | .soft a die loc cl => s.noteError a die loc false cl
  | .vreg gi t r =>
    match s.groups[gi]? with
    | none => s
    | some g => ((s.noteError .register (dieOf g.cl) r true none).setGroup gi fun g =>
        { g with threads := modAt g.threads t fun u =>
            if (u.marks.lookup r).isSome then u else { u with marks := (r, .hurt) :: u.marks } })
  | .sreg gi r =>
    match s.groups[gi]? with
    | none => s
    | some g => ((s.noteError .register (dieOf g.cl) r true none).setGroup gi fun g =>
        if (g.marksS.lookup r).isSome then g else { g with marksS := (r, .hurt) :: g.marksS })
  | .word gi o =>
    match s.groups[gi]? with
    | none => s
    | some g => (s.noteError .clusterData (dieOf g.cl) o true none).setGroup gi fun g =>
        { g with spoilt := o :: g.spoilt.filter fun w => w != o }
  | .part i =>
    match s.ms.partials[i]? with
    | none => s
    | some p =>
      let s := s.noteError .clusterData (dieOf p.cl) p.pa true none
      { s with ms := { s.ms with partials := modAt s.ms.partials i fun p => { p with bad := true } } }
  | .cell gi t n =>
    match s.groups[gi]? with
    | none => s
    | some g => (s.noteError .cell (dieOf g.cl) n true none).setGroup gi fun g =>
        { g with tiles := modAt g.tiles t fun x => { x with bad := n :: x.bad.filter fun m => m != n } }
  | .weight gi w =>
    match s.groups[gi]? with
    | none => s
    | some g =>
      if ((g.weights[w]?).map Weight.scratch) = some true then
        (s.noteError .weight (dieOf g.cl) w true none).setGroup gi fun g =>
          { g with weights := modAt g.weights w fun x => { x with bad := true } }
      else s.noteError .weight (dieOf g.cl) w false (some g.cl)
  | .windrow i =>
    match s.ms.windrows[i]? with
    | none => s
    | some w =>
      let s := s.noteError .sliceDirty w.die w.recVa true none
      { s with ms := { s.ms with windrows := modAt s.ms.windrows i fun w => { w with bad := true } } }
  | .line l => s.harmLine l

/-! ### Moves -/

/-- The state after a choice, if it is a next state. -/
def State.tryMove (s : State) : Sched → Host.Outcome State Fault Refusal
  | .event i => if isEvent i && !(s.withholds && needsCycle i) then exec i s else .next s
  | .issue cl slot => if s.withholds then .next s else s.issueSlot cl slot
  | .time clocks tai => .next (s.pass tai clocks)
  | .evict cl line =>
    .next (match s.hier.lineAt cl line with
      | some c => if s.mayLeave c then s.evictLine c else s
      | none => s)
  | .spill slice line =>
    .next (match s.hier.slices.find? fun x => x.slice = slice && x.line = line with
      | some x => if s.ms.errored.contains line then s else s.spillLine x.vf x
      | none => s)
  | .rotate n => .next { s with ms := { s.ms with partials := s.ms.partials.drop n ++ s.ms.partials.take n } }
  | .refetch cl pa => .next { s with icache := s.icache.filter fun x => x.cl != cl || x.pa != pa }
  | .damage h => .next (s.harm h)

/-- A delivered flit acts by the meaning of its event (R381, R388; log 15); one of no KIND that the rules name is passed over. -/
def State.deliver (s : State) : InFlit → State
  | .read f => evFolakRead f s
  | .write f => evFolakWrite f s
  | .atomic f => evFolakAtomic f s
  | .reduction f => evFolakReduction f s
  | .data f => evFolakDataResponse f s
  | .ack f => evFolakAcknowledgement f s
  | .revoked f => evFolakRevoked f s
  | .error f => evFolakError f s
  | .revoke _ node win => evRevokeFlit node win s
  | .drain _ node win => evDrainMarker win node s
  | .gang kind vf m =>
    if kind = GangKind.stop.code then evGangMsgStop vf m s
    else if kind = GangKind.resume.code then evGangMsgResume vf m s
    else if kind = GangKind.abort.code then evGangMsgAbort vf m s
    else if kind = GangKind.halted.code then evGangMsgHalted vf m s
    else if kind = GangKind.saved.code then evGangMsgSaved vf m s
    else if kind = GangKind.resumed.code then evGangMsgResumed vf m s
    else if kind = GangKind.mode.code then evGangMsgMode vf m s
    else if kind = GangKind.arrive.code then evGangMsgArrive vf m s
    else if kind = GangKind.release.code then evGangMsgRelease vf m s
    else if kind = GangKind.ready.code then evGangMsgReadyToGo vf m s
    else if kind = GangKind.go.code then evGangMsgGo vf m s
    else if kind = GangKind.flush.code then evGangMsgFlush vf m s
    else s.arrived (.gang kind vf m) fun s => (s, true)

/-- The first delivered flit that changes the state. -/
def State.firstDelivery (s : State) : List InFlit → State
  | [] => s
  | x :: xs => if s.deliver x = s then s.firstDelivery xs else s.deliver x

/-- The first of a list of events that changes the state. -/
def State.firstEvent (s : State) : List Instr → State
  | [] => s
  | i :: is =>
    match exec i s with
    | .next s' => if s' = s then s.firstEvent is else s'
    | _ => s.firstEvent is

/-- THE MODEL'S OWN CHOICE: one delivered flit, one event, looked for in turn from another one each time, and then one clock (log 1). -/
def State.choose (s : State) : Host.Outcome State Fault Refusal :=
  let es := s.ownEvents.filter fun i => isEvent i && !(s.withholds && needsCycle i)
  let k := s.nonce % (es.length + 1)
  let s := s.firstDelivery (s.fab.inbox.map Delivery.flit)
  .next ((s.firstEvent (es.drop k ++ es.take k)).clockStep (Config.taiGap s.nonce)).gap

end Sys2Proof.Machine
end

