-- ==== Sys2Proof/Machine/Placed.lean ====
section
/-! DEFINITION. The launch, the sheaf and the group under which one placed instruction runs (log 8). -/

namespace Sys2Proof.Machine

/-- The launch under which the placed instruction stands: every allocation at its limit (R78, R141). -/
def placedLaunch : Launch :=
  { entry := 0x1000, handler := 0, seed := 0, csize := 8192, threads := 1, nv := 256, argc := 64, scratch := 131072
    exch := 128, ntiles := 128, nslots := 32, nbars := 96, cexp := 20, fexp := 24
    ks := List.replicate 8 0x0A1078C0, args := List.replicate 64 0
    streams := List.replicate 16 (0x00000000000000000000000000000000000100010001000100000000#256 <<< 0 ||| 0x5)
    sets := List.replicate 256 0, gx := 1, gy := 1, gz := 1, exps := List.replicate 96 0, templates := [] }

/-- The sheaf that fetches next: at a header place for a header, else inside a clause of one instruction whose header
names the instruction's flag. -/
def placedSheaf (w : Word) : Sheaf :=
  { members := [{ t := 0, gl := 0 }], pc := 0x1000, inClause := majorOf w != 0
    hdr := { wait := 0, set1 := if majorOf w < 32 then 15 else w.extractLsb' 20 4, set2 := 15, count := 0 }, hdrPc := 0x1000
    idx := 0, regions := [], drawn := 0, last := 0, hold := .free, code := [], acted := [] }

/-- The group of the placed instruction: one thread, in one sheaf. -/
def placedGroup (w : Word) : Group :=
  let l := placedLaunch
  { uid := 1, vf := 0, task := 0, gidx := 0, cl := 0, slot := 0, s0 := 0, ways := [], launch := l, lrec := 0
    s := List.replicate 512 0, marksS := [], handler := 0
    threads := [{ newThread l 0 0 with place := .sheaf }], sheaves := [placedSheaf w], outs := [], insts := []
    bars := List.replicate 96 { c := 1, dflt := true, arrivals := 0, phase := 0, pending := 0, sets := [], sent := false }
    streams := l.streams.map (newStream l), scratch := [], fe := [], spoilt := [], swapped := false, swaps := false
    tiles := List.replicate 128 (Tile.zero 0)
    weights := List.replicate 32 { sp24 := false, c := 8, p := 0, scratch := false, src := 0, data := [], mark := none, bad := false }
    gleans := [], fences := [], stx := [], arvs := [], stop := .running, dbg := false, started := 0, aged := [], sets := [] }

end Sys2Proof.Machine
end

