-- ==== Sys2Proof/Machine/Step.lean ====
section
/-! DEFINITION. One step of the package (R5, R7, R148 to R151; log 1), and the placing of one instruction where the
next step fetches (log 8). -/

namespace Sys2Proof.Machine

/-- A move of a package without power: none but POWER_GOOD, after which it passes the stages of bring-up again (R403,
R411). -/
def State.darkMove (s : State) : Sched → Host.Outcome State Fault Refusal
  | .event .powerGood => exec .powerGood s
  | _ => .next s

/-- ONE STEP: the first entry of the schedule, or the model's own choice where it is empty. Without power nothing moves, and
only POWER_GOOD acts (R403, R411). -/
def step (s : State) : Host.Outcome State Fault Refusal :=
  match s.schedule with
  | m :: rest =>
    let t := { s with schedule := rest }
    if s.chip.dead then t.darkMove m else t.tryMove m
  | [] => if s.chip.dead then .next s else s.choose

/-- A state whose next step fetches the instruction of the bits w and runs exactly it (log 8): its words stand in the
page at 4 KiB, which the VF of the placed group may execute, and the schedule names its sheaf. -/
def State.withFetchWord (s : State) (nbits w : Nat) : State :=
  let ws := tableWords nbits w
  { s with
    schedule := [.issue 0 0]
    groups := [placedGroup (ws.headD 0)]
    icache := []
    ms := { s.ms with
      mem := Memory.writeN s.ms.mem 0x1000 (bytesOfWords ws)
      tlb := [{ cl := 0, vf := 0, page := 1, pa := 1, shift := 12, r := true, w := true, x := true, arena := 0 }] } }

end Sys2Proof.Machine
end

