-- ==== Sys2Proof/Safety.lean ====
section
/-! DEFINITION. What counts as a safe run, and the terms in which statements speak of one step: when an instruction
issues without a fault or a stall (R22 to R25, R69, R370), what the registers and memory of a state hold, the shape that
every group keeps, and the tables of what the register instructions compute (R87 to R111). -/

namespace Sys2Proof.Machine

/-- A run is safe while its steps answer next states. -/
def SafeFor : Nat → State → Prop
  | 0, _ => True
  | n + 1, s => ∃ t, step s = .next t ∧ SafeFor n t

/-! ### When an instruction issues -/

/-- The instruction at the current sheaf issues with its own effect: every check that comes before the effect passes
(R69, R70, R370), nothing that it needs is outstanding (R22 to R25), and no fault is charged to it (R256). -/
def State.ready (s : State) (word : Word) (len : Nat) (o : Op) (e : Ext) : Option Cx :=
  match s.cx word len o e with
  | none => none
  | some c =>
    if allocOk c.g o e && (!o.endsClause || c.sh.hdr.count.toNat ≤ c.sh.idx)
        && (e.flag == 15 || e.flag == c.sh.hdr.set1 || e.flag == c.sh.hdr.set2)
        && !c.stalls s && c.todo.all (fun t => (c.early t).isNone) && c.charged.isEmpty
    then some c else none

/-- `ready` for an extended-form instruction (R57). -/
def State.readyE (s : State) (o : Op) (e : Ext) : Option Cx :=
  s.ready (e.firstWord o.code.1) (if e.lit.isSome then 5 else 3) o e

/-- `ready` for a base-form instruction (R55, R72). -/
def State.readyB (s : State) (major : Nat) (o : Op) (b : Base) (ty : BitVec 4) (addend : Bool) : Option Cx :=
  s.ready (baseWord major b) (match b.b with
    | .reg _ => 1
    | .lit _ => 3) o (baseExt b ty addend)

/-- A sheaf and its group as an issue finds them: its regions moved on at their RC (R116). -/
def Group.atIssue (g : Group) (si : Nat) (sh : Sheaf) : Group := { g with sheaves := modAt g.sheaves si fun _ => sh.atRc 9 }

/-- The state in which a sheaf issues: it is the current one. -/
def State.atIssue (s : State) (gi si : Nat) (g : Group) (sh : Sheaf) : State :=
  { s with cur := some (gi, si), groups := modAt s.groups gi fun _ => g.atIssue si sh }

/-- The state in which an instruction of n words, fetched at a sheaf, runs: its lines have come into the cluster's cache
(R159), the sheaf keeps the words of its clause (R122), and the cluster holds them (R190). -/
def State.fetched (s : State) (gi si : Nat) (g : Group) (sh : Sheaf) (n : Nat) : State :=
  s.afterFetch gi si (g.atIssue si sh) (sh.atRc 9) n

/-! ### What a state holds -/

/-- The thread of a key in a group. -/
def State.thr (s : State) (gi : Nat) (k : Key) : Option Thread := (s.groups[gi]?).bind fun g => g.find k

/-- A register: of the thread of a key, or, for S, of the group; a predicate reads as 1 or 0. -/
def State.reg (s : State) (gi : Nat) (k : Key) : Reg → Option Word
  | .v i => (s.thr gi k).map fun t => t.v.getD i 0
  | .s i => (s.groups[gi]?).map fun g => g.s.getD i 0
  | .p i => (s.thr gi k).map fun t => if t.pred i then 1 else 0

/-- The mark of a V register of a thread (R25, R175). -/
def State.markAt (s : State) (gi : Nat) (k : Key) (i : Nat) : Option (Option MarkKind) :=
  (s.thr gi k).map fun t => t.marks.lookup i

/-- The byte of memory at a physical address, as a read at its home gives it once no pin holds its line: the partials of the
line are combined (R188). -/
def State.byte (s : State) (pa : Nat) : Byte := Memory.read (MemSide.combine { s.ms with pins := [] } (pa / 128)).mem pa

/-- The shape of a group: keys name one thread each, every thread has the launch's V registers (R17) and twelve flag
counts (R22), the group has 512 S registers (R19), and a phase number of a barrier has 32 bits (R206). -/
def Group.Shaped (g : Group) : Prop :=
  (g.threads.map Thread.key).Nodup ∧ (∀ t ∈ g.threads, t.v.length = g.launch.nv ∧ t.flags.length = 12) ∧ g.s.length = 512
    ∧ ∀ b ∈ g.bars, b.phase < 2 ^ 32

/-- Every group, running or saved, is shaped. -/
def State.Shaped (s : State) : Prop :=
  (∀ g ∈ s.groups, g.Shaped) ∧ ∀ t ∈ s.tasks, ∀ x ∈ t.saved, x.group.Shaped

/-- Memory is in its canonical form, and every partial lies in one line. -/
def State.MemOk (s : State) : Prop :=
  Memory.wf s.ms.mem = true ∧ ∀ p ∈ s.ms.partials, p.pa % 128 + p.width ≤ 128

/-! ### Results -/

/-- The value that a list of writes leaves in a register: that of its last write. -/
def lastWrite (ws : List (Reg × Word)) (r : Reg) : Option Word := ws.reverse.lookup r

/-- After an instruction each active thread's registers hold what a function of the state before it gives: a V register
and a predicate below P7 for each thread, an S register for the first (R19, R20). -/
def Wrote (t : State) (c : Cx) (f : Cx → Thread → List (Reg × Word)) : Prop :=
  ∀ th ∈ c.act, ∀ r x, lastWrite (f c th) r = some x →
    match r with
    | .v _ => t.reg c.gi th.key r = some x
    | .s _ => c.act.head? = some th → t.reg c.gi th.key r = some x
    | .p i => i < 7 → t.reg c.gi th.key r = some (if x = 0 then 0 else 1)

/-- A register that the writes of an instruction name, for a thread of a group. -/
def Written (c : Cx) (f : Cx → Thread → List (Reg × Word)) (gi : Nat) (k : Key) (r : Reg) : Prop :=
  gi = c.gi ∧ ∃ th ∈ c.act, r ∈ (f c th).map Prod.fst ∧ (match r with
    | .s _ => True
    | _ => th.key = k)

/-- What a thread holds beside its registers, its place and its part in a glean: flag counts, SEQ, tickets. -/
def Thread.rest (t : Thread) : List Nat × Word × List (Nat × Nat) := (t.flags, t.seq, t.tickets)

/-- What a group holds beside its threads, its sheaves, its S registers and the clocks of its collectives. -/
def Group.rest (g : Group) : Group :=
  { g with threads := [], sheaves := [], s := [], marksS := [], insts := [] }

/-- Only the registers that the writes name change, with their marks: every other register, the special registers, the
accumulators, the exception state, and all of memory and of the device stay. -/
def OnlyWrites (s t : State) (c : Cx) (f : Cx → Thread → List (Reg × Word)) : Prop :=
  (∀ gi k r, ¬ Written c f gi k r → t.reg gi k r = s.reg gi k r)
    ∧ (∀ gi k i, ¬ Written c f gi k (.v i) → t.markAt gi k i = s.markAt gi k i)
    ∧ (∀ gi k, (t.thr gi k).map Thread.rest = (s.thr gi k).map Thread.rest)
    ∧ t.groups.map Group.rest = s.groups.map Group.rest
    ∧ t.ms = s.ms ∧ t.hier = s.hier ∧ t.icache = s.icache ∧ t.vfs = s.vfs ∧ t.tasks = s.tasks ∧ t.copies = s.copies
    ∧ t.fill = s.fill ∧ t.compute = s.compute ∧ t.fab = s.fab ∧ t.chip = s.chip ∧ t.msgs = s.msgs ∧ t.tally = s.tally

/-- Every thread keeps DRAWS (R29). -/
def SameDraws (s t : State) : Prop := ∀ gi k, (t.thr gi k).map Thread.draws = (s.thr gi k).map Thread.draws

/-- The outstanding results that an instruction adds for its active threads (R22, R24): one for each thread with a
write, in order, under the instruction's flag, with the values and marks that arrive. -/
def outsOf (c : Cx) (f : Cx → Thread → List (Reg × Word)) : List Out :=
  ((c.writes f).filter fun x => !x.2.isEmpty).map fun x => c.out x.1 (x.2.map fun w => (w.1, w.2, none)) true 0

/-- Where a thread stands, and its PC. -/
def State.spot (s : State) (gi : Nat) (k : Key) : Option (Place × Addr) := (s.thr gi k).map fun t => (t.place, t.pc)

/-- The sheaf goes on at the header at an address: it keeps its context and stands there with its members, or its present
threads are filed into that bin (R147). -/
def StandsAt (s t : State) (c : Cx) (pc : Addr) : Prop :=
  (∃ g ∈ t.groups[c.gi]?, ∃ sh ∈ g.sheaves, sh.members = c.sh.members ∧ sh.pc = pc ∧ sh.inClause = false)
    ∨ ∀ th ∈ c.pres, t.spot c.gi th.key = some (.bin s.clock, pc)

/-- The sheaf goes on after its instruction: at the next one of its clause, or after the last one at the next header
(R68). -/
def GoesOn (s t : State) (c : Cx) : Prop :=
  if c.sh.idx < c.sh.hdr.count.toNat then
    ∃ g ∈ t.groups[c.gi]?, ∃ sh ∈ g.sheaves,
      sh.members = c.sh.members ∧ sh.pc = c.nextPc ∧ sh.inClause = c.sh.inClause ∧ sh.idx = c.sh.idx + 1
  else StandsAt s t c c.nextPc

/-! ### What the register instructions compute -/

/-- An integer result in OP0, modulo 2^w of the type (R82, R83). -/
def intoDst (f : Cx → Thread → Int) (c : Cx) (t : Thread) : List (Reg × Word) :=
  c.e.op0.writes c.n (wrap (32 * c.n) (f c t))

/-- R87: the integer arithmetic of ADD, SUB, MUL, MULH, MAD, MIN, MAX, ABS and NEG on operands of the type. -/
def arithmetic : Op → Option (Cx → Thread → Int)
  | .add => some fun c t => c.int t 1 + c.int t 2
  | .sub => some fun c t => c.int t 1 - c.int t 2
  | .mul => some fun c t => c.int t 1 * c.int t 2
  | .mulh => some fun c t => c.int t 1 * c.int t 2 / 2 ^ (32 * c.n)
  | .mad => some fun c t => c.int t 1 * c.int t 2 + c.int t 3
  | .min => some fun c t => if c.int t 1 ≤ c.int t 2 then c.int t 1 else c.int t 2
  | .max => some fun c t => if c.int t 1 ≤ c.int t 2 then c.int t 2 else c.int t 1
  | .abs => some fun c t => if c.int t 1 < 0 then -c.int t 1 else c.int t 1
  | .neg => some fun c t => -c.int t 1
  | _ => none

/-- The value of bits [pos + len − 1 : pos] of x, as far as they lie below w. -/
def fieldOf (w x pos len : Nat) : Nat := x / 2 ^ pos % 2 ^ Nat.min len (w - pos)

/-- R92, R93: the bit instructions, as numbers of the type's width w. -/
def bitwise : Op → Option (Cx → Thread → Int)
  | .and => some fun c t => (c.nat t 1 &&& c.nat t 2 : Nat)
  | .or => some fun c t => (c.nat t 1 ||| c.nat t 2 : Nat)
  | .xor => some fun c t => (c.nat t 1 ^^^ c.nat t 2 : Nat)
  | .andn => some fun c t => (c.nat t 1 &&& (2 ^ (32 * c.n) - 1 - c.nat t 2) : Nat)
  | .not => some fun c t => (2 ^ (32 * c.n) - 1 - c.nat t 1 : Nat)
  | .shl => some fun c t => (c.nat t 1 * 2 ^ (c.nat t 2 % (32 * c.n)) : Nat)
  | .shrl => some fun c t => (c.nat t 1 / 2 ^ (c.nat t 2 % (32 * c.n)) : Nat)
  | .shra => some fun c t => sext (32 * c.n) (c.nat t 1) / 2 ^ (c.nat t 2 % (32 * c.n))
  | .rot => some fun c t =>
      (c.nat t 1 * 2 ^ (c.nat t 2 % (32 * c.n)) + c.nat t 1 / 2 ^ (32 * c.n - c.nat t 2 % (32 * c.n)) : Nat)
  | .bfe => some fun c t =>
      let pos := c.nat t 2 % 256
      let len := c.nat t 2 / 256 % 256
      if len = 0 ∨ 32 * c.n ≤ pos then 0
      else
        let x := fieldOf (32 * c.n) (c.nat t 1) pos len
        if c.e.ty = 2 ∨ c.e.ty = 3 then sext (Nat.min len (32 * c.n - pos)) x else x
  | .bfi => some fun c t =>
      let pos := c.nat t 3 % 256
      let len := c.nat t 3 / 256 % 256
      if len = 0 ∨ 32 * c.n ≤ pos then c.nat t 1
      else
        let n := Nat.min len (32 * c.n - pos)
        (c.nat t 1 % 2 ^ pos + c.nat t 2 % 2 ^ n * 2 ^ pos + c.nat t 1 / 2 ^ (pos + n) * 2 ^ (pos + n) : Nat)
  | .brev => some fun c t => (bitReverse (32 * c.n) (c.nat t 1) : Nat)
  | .permb => some fun c t =>
      let byte (i : Nat) : Nat :=
        let q := c.nat t 3 / 16 ^ i % 16
        if 8 ≤ q then 0 else (c.nat t 1 + 2 ^ 32 * c.nat t 2) / 256 ^ q % 256
      (byte 0 + 256 * byte 1 + 65536 * byte 2 + 16777216 * byte 3 : Nat)
  | _ => none

/-- R92: the counting instructions write a number to one register. -/
def counting : Op → Option (Cx → Thread → Nat)
  | .popc => some fun c t => ((List.range (32 * c.n)).filter fun i => c.nat t 1 / 2 ^ i % 2 = 1).length
  | .clz => some fun c t => leadingZeros (32 * c.n) (c.nat t 1)
  | .ctz => some fun c t => trailingZeros (32 * c.n) (c.nat t 1)
  | _ => none

/-- R88 to R91, R95: selection, movement, addresses, predicates and the conversion of integers. -/
def moving : Op → Option (Cx → Thread → List (Reg × Word))
  | .cmp => some fun c t =>
      [(.p c.e.op0.index, if condInt c.e.lo.toNat (c.int t 1) (c.int t 2) then 1 else 0)]
  | .sel => some <| intoDst fun c t => if t.pred c.e.op1.index then c.nat t 2 else c.nat t 3
  | .mov => some <| intoDst fun c t => c.nat t 1
  | .movi => some <| intoDst fun c _ => match c.e.lit with
      | some x => x.toNat
      | none => sext 20 c.e.imm.toNat
  | .lea => some fun c t => c.e.op0.writes 2 (c.g.address t c.e 2 64 c.e.lo.toNat)
  | .plop => some fun c t =>
      let i := (if t.pred c.e.op1.index then 4 else 0) + (if t.pred c.e.op2.index then 2 else 0)
        + if t.pred c.e.op3.index then 1 else 0
      [(.p c.e.op0.index, if c.e.imm.toNat / 2 ^ i % 2 = 1 then 1 else 0)]
  | .pmov => some fun c t => match c.e.op0 with
      | .k i => [(.p i.toNat, if c.g.src t 1 c.e.op1 = 0 then 0 else 1)]
      | o => o.writes 1 (if t.pred c.e.op1.index then 1 else 0)
  | .cvti => some cvtiVal
  | _ => none

/-- R97 to R101: the floating-point instructions other than their `.f64` forms that arrive later (R22). -/
def floating : Op → Option (Cx → Thread → List (Reg × Word))
  | .fadd => some faddVal
  | .fsub => some fsubVal
  | .fmul => some fmulVal
  | .ffma => some ffmaVal
  | .fmin => some fminVal
  | .fmax => some fmaxVal
  | .fcmp => some fcmpVal
  | .fclass => some fun c t => c.e.op0.writes 1 (c.fmt.classify (c.f t 1))
  | .fround => some fun c t => c.e.op0.writes 1 (c.fmt.roundIntegral c.rm (c.f t 1))
  | .fldexp => some fun c t => c.e.op0.writes 1 (c.fmt.ldexp c.rm (c.f t 1) (sext 32 (c.g.arg t c.o c.e 1 2)))
  | .ffrexp => some ffrexpVal
  | .pfma => some pfmaVal
  | .fdot2 => some fdot2Val
  | _ => none

/-- The forms of R22 whose results arrive later, with their values (R87, R97, R99, R102, R105). -/
def later (e : Ext) : Op → Option (Cx → Thread → List (Reg × Word))
  | .div => some <| intoDst fun c t => if c.int t 2 = 0 then -1 else (c.int t 1).tdiv (c.int t 2)
  | .frcp => some fun c t => c.e.op0.writes 1 (frcp c.rm (c.f t 1))
  | .frsq => some fun c t => c.e.op0.writes 1 (frsq c.rm (c.f t 1))
  | .fsqrt => some fun c t => c.e.op0.writes 1 (fsqrt c.rm (c.f t 1))
  | .fdiv => some fun c t => c.e.op0.writes 1 (fdiv c.rm (c.f t 1) (c.f t 2))
  | .fexp2 => some fun c t => c.e.op0.writes 1 (fexp2 c.rm (c.f t 1))
  | .flog2 => some fun c t => c.e.op0.writes 1 (flog2 c.rm (c.f t 1))
  | .fsinp => some fun c t => c.e.op0.writes 1 (fsinp c.rm (c.f t 1))
  | .fcosp => some fun c t => c.e.op0.writes 1 (fcosp c.rm (c.f t 1))
  | .fadd => if e.ty = 8 then some faddVal else none
  | .fmul => if e.ty = 8 then some fmulVal else none
  | .ffma => if e.ty = 8 then some ffmaVal else none
  | .fcmp => if e.ty = 8 then some fcmpVal else none
  | .glstat => some glstatVal
  | _ => none

/-- R106, R109, R110: conversions that draw nothing. -/
def converting : Op → Option (Cx → Thread → List (Reg × Word))
  | .cvtf => some cvtfVal
  | .cvtn => some cvtnVal
  | .dqn => some dqnVal
  | .pack => some packVal
  | .unpk => some unpkVal
  | _ => none

/-- Every register instruction that draws nothing and whose results are there at once, with its writes. -/
def atOnce (e : Ext) (o : Op) : Option (Cx → Thread → List (Reg × Word)) :=
  if (later e o).isSome then none
  else
    ((arithmetic o).map intoDst).or <| ((bitwise o).map intoDst).or <|
      ((counting o).map fun f c t => c.e.op0.writes 1 (f c t)).or <| (moving o).or <| (floating o).or (converting o)

/-- The base forms of R72: major opcode, the instruction, the operation, type and addend of the extended form it
equals. -/
def baseForms : List (Nat × (Base → Instr) × Op × BitVec 4 × Bool) :=
  [(1, .addBase, .add, 6, false), (2, .subBase, .sub, 6, false), (3, .mulBase, .mul, 6, false)
  , (4, .andBase, .and, 6, false), (5, .orBase, .or, 6, false), (6, .xorBase, .xor, 6, false)
  , (7, .andnBase, .andn, 6, false), (8, .shlBase, .shl, 6, false), (9, .shrlBase, .shrl, 6, false)
  , (10, .shraBase, .shra, 2, false), (11, .minI32Base, .min, 2, false), (12, .maxI32Base, .max, 2, false)
  , (13, .minN32Base, .min, 6, false), (14, .maxN32Base, .max, 6, false), (15, .faddBase, .fadd, 9, false)
  , (16, .fsubBase, .fsub, 9, false), (17, .fmulBase, .fmul, 9, false), (18, .fminBase, .fmin, 9, false)
  , (19, .fmaxBase, .fmax, 9, false), (20, .ffmaBase, .ffma, 9, true), (21, .pfmaBf16x2Base, .pfma, 12, true)
  , (22, .pfmaF16x2Base, .pfma, 13, true), (23, .madBase, .mad, 6, true), (24, .rotBase, .rot, 6, false)]

/-! ### Accesses of threads to memory -/

/-- Every register of every thread and group is the same in both states. -/
def SameRegs (s t : State) : Prop := ∀ gi k r, t.reg gi k r = s.reg gi k r

/-- The checked accesses of threads find memory of this chip: translated and aligned, of the arena's current generation,
without an uncorrectable error on the line, in its slice or in memory (R134, R135, R175). -/
def Finds (c : Cx) (s : State) (ts : List Thread) (chk : Thread → Chk) (pa arena : Thread → Nat) : Prop :=
  ∀ th ∈ ts, chk th = .ok (pa th) (arena th) ∧ inImport (pa th) = false ∧ (s.vf c.g.vf).staleAt (arena th) = false
    ∧ s.ms.errored.contains (pa th / 128) = false ∧ s.ms.spoilt.contains (pa th / 128) = false

/-- The checked accesses of threads reach memory of this chip: they find it, and no other group has pinned their lines
(R186). -/
def Reach (c : Cx) (s : State) (ts : List Thread) (chk : Thread → Chk) (pa arena : Thread → Nat) : Prop :=
  Finds c s ts chk pa arena ∧ ∀ th ∈ ts, c.refused s (pa th) = false

/-- No partial waits on a line that the threads reach (R188). -/
def Unstaged (s : State) (ts : List Thread) (pa : Thread → Nat) : Prop :=
  ∀ th ∈ ts, ∀ p ∈ s.ms.partials, p.pa / 128 ≠ pa th / 128

/-- A release of the group at cluster scope or wider performs now: no write-back of its lines to another chip is awaited, those of
the pins that it ends included (R182 case 9, R183, R186). -/
def Released (c : Cx) (s : State) : Prop := (s.unpin c.g.uid).flushed c.g = true

/-- The lines that threads are to pin find ways of their sets (R161, R186). -/
def Roomy (c : Cx) (s : State) (ts : List Thread) (pa : Thread → Nat) : Prop :=
  ∀ th ∈ ts, s.mayPin c.g.cl (pa th / 128) = true

/-- Nothing that the device writes waits for the end of a pin (R186; log 81). -/
def State.Settled (s : State) : Prop := s.ms.late = []

/-- An address lies in none of the threads' accesses of a width. -/
def Apart (ts : List Thread) (pa : Thread → Nat) (width a : Nat) : Prop := ∀ th ∈ ts, a < pa th ∨ pa th + width ≤ a

/-- Memory after stores of several threads in order. -/
def stored (m : Memory) (ts : List Thread) (pa : Thread → Nat) (data : Thread → List Byte) : Memory :=
  ts.foldl (fun m th => Memory.writeN m (pa th) (data th)) m

/-- Memory after a read and a write of several threads in order, with what each read (R195, R199). -/
def exchanged (m : Memory) (ts : List Thread) (at_ : Thread → Nat) (n : Nat) (f : Thread → Nat → Nat) :
    Memory × List (Thread × Nat) :=
  ts.foldl (fun x th =>
    let old := leNat (Memory.readN x.1 (at_ th) n)
    (Memory.writeN x.1 (at_ th) (natBytes n (f th old)), x.2 ++ [(th, old)])) (m, [])

/-- The outstanding results of threads with their values, unmarked, in order (R22, R24). -/
def resultsOf (c : Cx) (n : Nat) (xs : List (Thread × Nat)) : List Out :=
  xs.map fun x => c.out x.1.key ((c.e.op0.writes n x.2).map fun w => (w.1, w.2, none)) true 0

/-- The group of a place after a step, by one of its parts. -/
def State.groupAt {α : Type} (s : State) (gi : Nat) (f : Group → α) : Option α := (s.groups[gi]?).map f

end Sys2Proof.Machine
end

