-- ==== Sys2Proof/Certificates/Slice0/Obligations.lean ====
section
/-! DEFINITION. The statements for the provers. Each says in its docstring which rules of the spec it formalises; where a
clause is the model's choice, the docstring names the log entry. -/

open Sys2Proof Sys2Proof.Machine

/-! ### Encoding and stepping -/

/-- R54 to R64: the decoder reads every well-formed instruction back from its words, whatever words follow, with every
field as it was encoded. -/
def Obligations.DecodeReadsEncode : Prop :=
  ∀ (i : Instr) (rest : List Word), i.wellFormed = true → i.isEvent = false →
    decodeWords (encode i ++ rest) = .ok (i, rest)

/-- R54 to R64: words that decode are the words of the instruction that they decode to, so that no bit is dropped and no
two encodings name one instruction; and the instruction is well formed and no event. -/
def Obligations.DecodedWordsAreEncode : Prop :=
  ∀ (ws : List Word) (i : Instr) (rest : List Word), decodeWords ws = .ok (i, rest) →
    ws = encode i ++ rest ∧ i.wellFormed = true ∧ i.isEvent = false

/-- R54 to R64, R72, R73: words written out from the encoding tables decode to what they stand for: a clause header, a
base ADD, a base SHL with a literal, FADD under ?!P2, BRA .m, LD with a flag, MMA, SEL with an immediate, BAR .sync,
and ARNEW with a literal; a base major that R72 does not list is refused. -/
def Obligations.WordsDecode : Prop :=
  decodeWords [0x000032F5#32] = .ok (.runClause { wait := 3, set1 := 2, set2 := 15, count := 5 }, [])
  ∧ decodeWords [0x01030201#32] = .ok (.addBase { vd := 3, va := 2, b := .reg 1 }, [])
  ∧ decodeWords [0x48070500#32, 0x0000001F#32, 0#32] = .ok (.shlBase { vd := 7, va := 5, b := .lit 31 }, [])
  ∧ decodeWords [0xA3F00000#32, 0x00002480#32, 0x500C0201#32] =
      .ok (.fadd { gp := 2, gn := true, op0 := .v 3, op1 := .v 2, op2 := .v 4, ty := 9, rm := 1 }, [])
  ∧ decodeWords [0xA7FFFFFD#32, 0x00000016#32, 0x20000000#32] = .ok (.braM { gp := 1, imm := 0xFFFFD, sc := 1, lo := 6 }, [])
  ∧ decodeWords [0xA8400010#32, 0x00000C00#32, 0xE02102C0#32] =
      .ok (.ld { flag := 4, imm := 16, op0 := .v 8, op1 := .slo 2, op2 := .k 0, ty := 3 }, [])
  ∧ decodeWords [0xADF00000#32, 0xB0006800#32, 0xEC1506C0#32] =
      .ok (.mma { op0 := .k 5, op1 := .slo 6, op2 := .k 2, op3 := .k 0, ty := 10 }, [])
  ∧ decodeWords [0xA0F00000#32, 0x3FF31800#32, 0xE00F0201#32] =
      .ok (.sel { op0 := .v 3, op1 := .k 2, op2 := .v 4, op3 := .k 0xFF, ty := 6 }, [])
  ∧ decodeWords [0xABF00000#32, 0x00000002#32, 0xEC240000#32] = .ok (.barSync { op0 := .k 9, lo := 2 }, [])
  ∧ decodeWords [0xEFF00000#32, 0#32, 0xE0050300#32, 0x00010000#32, 0#32] =
      .ok (.arnew { op0 := .v 1, op1 := .slo 3, lit := some 65536 }, [])
  ∧ decodeWords [0x1F030201#32] = .error .illegal

/-- R54, R68, R122, R363: the fetch at a sheaf: at a header place one word, where the page of its PC may be executed, its
arena is current and its line has no uncorrectable error; inside a clause as many words as the first one's length
field says, each at its own page, those that the sheaf has fetched in this clause before as it fetched them. R190,
R285: a word that the cluster does not hold under a current generation is the one in memory, with the partials of its
line combined (R188), and a word that it has fetched it holds.

R68, R148 to R150: a sheaf that issues runs the instruction that its fetched words decode to: a header at a header
place, any other instruction inside a clause; what the issue adds is the closing of regions at their RC (R116), and
the lines and words that the fetch brings, done first; where another group has a line pinned that the fetch needs, it
is refused and tries again (R186). In a clock that Furze withholds (R13) no slot issues. A STEP whose schedule names
an issue slot runs a sheaf of it: one at a header that its wait mask does not hold goes on first, and takes no issue
clock; else the first in the order of R150, where its engine accepts it and it does not stall; and a slot that has
issued in this clock issues nothing more. That a schedule names the slots in turn is the model's choice (log 1). -/
def Obligations.StepRunsDecoded : Prop :=
  ((∀ (s : State) (cl vf pa : Nat),
         let x := BitVec.ofNat 32 (leNat (Memory.readN (s.memAt (pa / 128)) pa 4))
         (∀ w ∈ s.icache, w.cl = cl → w.vf = vf → w.pa = pa → (s.vf vf).staleAt w.arena = true) → s.codeWord cl vf pa = x
           ∧ ∀ arena m, (s.vf vf).staleAt arena = false →
             State.codeWord { s.holdWord cl vf pa arena with ms := m } cl vf pa = x)
     ∧ (∀ (s : State) (g : Group) (sh : Sheaf) (pa arena : Nat), sh.inClause = false →
         s.xlate g.cl g.vf sh.pc.toNat { x := true } = .ok pa arena → (s.vf g.vf).staleAt arena = false → s.errs pa = false →
         s.fetchAt g sh = .words [s.codeWord g.cl g.vf pa])
     ∧ ∀ (s : State) (g : Group) (sh : Sheaf) (pa : Nat → Nat) (arena : Nat → Nat), sh.inClause = true →
         (∀ i < 5, s.xlate g.cl g.vf (sh.pc + 4 * BitVec.ofNat 64 i).toNat { x := true } = .ok (pa i) (arena i)
           ∧ (s.vf g.vf).staleAt (arena i) = false ∧ s.errs (pa i) = false) →
         let word (i : Nat) : Word := (sh.code.lookup (pa i)).getD (s.codeWord g.cl g.vf (pa i))
         majorOf (word 0) ≠ 0 → s.fetchAt g sh = .words ((List.range (lengthWords (word 0))).map word))
  ∧ ((∀ (s : State) (gi si : Nat) (g : Group) (sh : Sheaf) (ws rest : List Word) (i : Instr),
       s.groups[gi]? = some g → g.sheaves[si]? = some sh → s.waits g sh = false →
       let u := s.atIssue gi si g sh
       let g' := g.atIssue si sh
       let sh' := sh.atRc 9
       u.fetchAt g' sh' = .words ws → decodeWords ws = .ok (i, rest) → (sh'.inClause = true ↔ majorOf (ws.headD 0) ≠ 0) →
       (u.fetched gi si g sh ws.length).breaks g' sh'.pc = false →
       (u.fetchHeld g' sh' ws.length = none → s.issueAt gi si = exec i (u.fetched gi si g sh ws.length))
         ∧ ∀ line, u.fetchHeld g' sh' ws.length = some line →
             s.issueAt gi si = .next { u with ms := u.ms.noteRefused line g.uid (fetchKey sh') })
     ∧ ∀ (s : State) (cl slot gi si : Nat) (later : List Sched), s.chip.dead = false → s.schedule = .issue cl slot :: later →
       let u := { s with schedule := later }
       (u.withholds = true → step s = .next u) ∧
       (u.withholds = false →
       let heads := u.drawnAt cl slot false
       let first := heads.find? fun x => !u.maskedAt x.1 x.2
       let v := if heads.isEmpty then u else u.countSlot cl slot 5
       (∀ x, first = some x → u.sheafAt x.1.uid (x.2.members.headD { t := 0, gl := 0 }) = some (gi, si) →
         step s = u.issueAt gi si)
       ∧ (first = none → u.issued cl slot = true → step s = .next u)
       ∧ ∀ x xs t, first = none → u.issued cl slot = false → u.offers cl slot = x :: xs →
           v.sheafAt x.group x.key = some (gi, si) → v.accepts cl slot x.engine = true → v.issueAt gi si = .next t →
           t.issued cl slot = true → step s = .next t))

/-- R64 to R68, R22, R148: a valid clause header begins its clause for the sheaf once every flag of its wait mask is clear
for every member, and takes no issue clock; until then the sheaf stays; a header inside a clause raises CLAUSE for
every present thread.

R17, R21, R69: an instruction that names a register, slot, stream, tile, barrier or set outside its launch raises
ILLEGAL_OPCODE for every present thread and has no effect; R67, R70: one that ends its clause before its last place,
or names a flag that the header does not set (R22), raises CLAUSE; R24, R148: one whose sources, destinations or flags
wait for results, or that a fence or an order holds, stalls, and no register and no byte changes. -/
def Obligations.ClauseRules : Prop :=
  (∀ (h : Header) (s : State) (gi si : Nat) (g : Group) (sh : Sheaf), s.cur = some (gi, si) → s.groups[gi]? = some g →
       g.sheaves[si]? = some sh →
       (sh.inClause = false → h.wellFormed = true →
         (∀ t ∈ g.members sh, ∀ f < 12, h.wait.getLsbD f = true → t.flags.getD f 0 = 0) →
         ∃ t, exec (.runClause h) s = .next t ∧ ∃ g' ∈ t.groups[gi]?,
           g'.sheaves[si]? =
             some { sh with inClause := true, hdr := h, hdrPc := sh.pc, pc := sh.pc + 4, idx := 0, hold := .free, code := [] }
           ∧ t.ms = s.ms ∧ t.clusters = s.clusters ∧ g'.threads = g.threads ∧ g'.s = g.s)
       ∧ (sh.inClause = false → h.wellFormed = true →
         (∃ t ∈ g.members sh, ∃ f < 12, h.wait.getLsbD f = true ∧ t.flags.getD f 0 ≠ 0) →
         ∃ t, exec (.runClause h) s = .next t ∧ ∃ g' ∈ t.groups[gi]?, g'.sheaves = g.sheaves ∧ g'.threads = g.threads)
       ∧ (sh.inClause = true → exec (.runClause h) s = .next (s.wordFault gi si h.toWord { cls := 2 })))
  ∧ (∀ (o : Op) (e : Ext) (s : State) (c : Cx), s.cx (e.firstWord o.code.1) (if e.lit.isSome then 5 else 3) o e = some c →
       let all (cls : Nat) : State := ((s.countIssue c).mark c).faulted c (c.pres.map fun t => (t.key, { cls := cls }))
       (allocOk c.g o e = false → exec (.ofOp o e) s = .next (all 1))
       ∧ (allocOk c.g o e = true →
           (o.endsClause = true ∧ c.sh.idx < c.sh.hdr.count.toNat)
             ∨ (e.flag ≠ 15 ∧ e.flag ≠ c.sh.hdr.set1 ∧ e.flag ≠ c.sh.hdr.set2) →
           exec (.ofOp o e) s = .next (all 2))
       ∧ (allocOk c.g o e = true → (o.endsClause = false ∨ c.sh.hdr.count.toNat ≤ c.sh.idx) →
           (e.flag = 15 ∨ e.flag = c.sh.hdr.set1 ∨ e.flag = c.sh.hdr.set2) → c.stalls s = true →
           exec (.ofOp o e) s = .next (s.stalled c) ∧ (∀ gi k r, (s.stalled c).reg gi k r = s.reg gi k r)
             ∧ ∀ a, (s.stalled c).byte a = s.byte a))

/-! ### Invariants and reset -/

/-- The step keeps memory in its canonical form, so that equal memories are equal data (log 4), and every partial inside
one line, from every state that has both. -/
def Obligations.StepKeepsMemory : Prop := ∀ s t : State, s.MemOk → step s = .next t → t.MemOk

/-- R17, R19, R22, R251: the step keeps every group's shape: one thread for a key, the launch's V registers and twelve
flag counts in every thread, 512 S registers; from every state that has it. -/
def Obligations.StepKeepsShape : Prop := ∀ s t : State, s.Shaped → step s = .next t → t.Shaped

/-- Memory at reset lists nothing, and no group and no task is there: both invariants hold. -/
def Obligations.ResetInvariants : Prop :=
 State.reset.MemOk ∧ State.reset.Shaped

/-- R26, R263, R281, R298, R331, R335, R386, R387, R391, R394, R403: after reset no stage has been entered, no cluster is
released, no VF is set up and no task submitted, every window is FREE, every gang entry is FREE with GUARD 30, the
counters and breakpoints are 0, LOCK is 0, every address reads 0. GUARD's and the counters' values are the map's; that
unwritten memory reads 0 is the model's choice (log 4), and so are the values of log 5. -/
def Obligations.ResetState : Prop :=
  State.reset.chip.stage = 0 ∧ State.reset.chip.dead = false ∧ State.reset.groups = [] ∧ State.reset.tasks = []
  ∧ State.reset.copies = [] ∧ State.reset.fill = [] ∧ State.reset.compute = []
  ∧ (∀ i, (State.reset.cluster i).part = none ∧ (State.reset.cluster i).cnt.c = List.replicate 16 0
      ∧ (State.reset.cluster i).cnt.bkpt = List.replicate 4 0)
  ∧ (∀ i, (State.reset.vf i).running = false ∧ (State.reset.vf i).groot = 0 ∧ (State.reset.vf i).pager = 0
      ∧ (State.reset.vf i).gen = false)
  ∧ (∀ i e, (State.reset.gang i e).state = 0 ∧ (State.reset.gang i e).guard = 30)
  ∧ (∀ w, (State.reset.window w).state = 0) ∧ State.reset.lam.lock = 0 ∧ State.reset.lam.loss = false
  ∧ ∀ a, State.reset.byte a = 0

/-- R3: bytes written upward from an address are the bytes that are read there, every other address reads as before, and
the canonical form stays. -/
def Obligations.MemoryWrite : Prop :=
  ∀ (m : Memory) (a : Nat) (xs : List Byte), Memory.wf m = true →
    Memory.readN (Memory.writeN m a xs) a xs.length = xs
      ∧ (∀ b, b < a ∨ a + xs.length ≤ b → Memory.read (Memory.writeN m a xs) b = Memory.read m b)
      ∧ Memory.wf (Memory.writeN m a xs) = true

/-! ### Register instructions -/

/-- R82, R83, R87: ADD, SUB, MUL, MULH, MAD, MIN, MAX, ABS and NEG complete, and each active thread's destination holds
the result modulo 2^w of operands read as the type.

R92 to R94: AND, OR, XOR, ANDN, NOT, SHL, SHRL, SHRA, ROT, BFE, BFI, BREV, PERMB, POPC, CLZ and CTZ complete with the
bits that their tables give. -/
def Obligations.IntegersAndBits : Prop :=
  (∀ (e : Ext) (s : State) (c : Cx), c.g.Shaped →
       let does (o : Op) (i : Instr) : Prop := s.readyE o e = some c → o.wellFormed e = true →
         ∃ t f, exec i s = .next t ∧ arithmetic o = some f ∧ Wrote t c (intoDst f)
       does .add (.add e) ∧ does .sub (.sub e) ∧ does .mul (.mul e) ∧ does .mulh (.mulh e) ∧ does .mad (.mad e)
       ∧ does .min (.min e) ∧ does .max (.max e) ∧ does .abs (.abs e) ∧ does .neg (.neg e))
  ∧ (∀ (e : Ext) (s : State) (c : Cx), c.g.Shaped →
       let does (o : Op) (i : Instr) : Prop := s.readyE o e = some c → o.wellFormed e = true →
         ∃ t f, exec i s = .next t ∧ bitwise o = some f ∧ Wrote t c (intoDst f)
       let counts (o : Op) (i : Instr) : Prop := s.readyE o e = some c → o.wellFormed e = true →
         ∃ t f, exec i s = .next t ∧ counting o = some f ∧ Wrote t c fun c t => c.e.op0.writes 1 (f c t)
       does .and (.and e) ∧ does .or (.or e) ∧ does .xor (.xor e) ∧ does .andn (.andn e) ∧ does .not (.not e)
       ∧ does .shl (.shl e) ∧ does .shrl (.shrl e) ∧ does .shra (.shra e) ∧ does .rot (.rot e) ∧ does .bfe (.bfe e)
       ∧ does .bfi (.bfi e) ∧ does .brev (.brev e) ∧ does .permb (.permb e)
       ∧ counts .popc (.popc e) ∧ counts .clz (.clz e) ∧ counts .ctz (.ctz e))

/-- R20, R88 to R91, R95: CMP, SEL, MOV, MOVI, LEA, PLOP, PMOV and CVTI complete with the predicate or value that their
rules give; a write to P7 is discarded. -/
def Obligations.MovesAndPredicates : Prop :=
  ∀ (e : Ext) (s : State) (c : Cx), c.g.Shaped →
    let does (o : Op) (i : Instr) : Prop := s.readyE o e = some c → o.wellFormed e = true →
      ∃ t f, exec i s = .next t ∧ moving o = some f ∧ Wrote t c f
        ∧ ∀ k, t.reg c.gi k (.p 7) = (s.thr c.gi k).map fun _ => 1
    does .cmp (.cmp e) ∧ does .sel (.sel e) ∧ does .mov (.mov e) ∧ does .movi (.movi e) ∧ does .lea (.lea e)
    ∧ does .plop (.plop e) ∧ does .pmov (.pmov e) ∧ does .cvti (.cvti e)

/-- R97 to R101: FADD, FSUB, FMUL, FFMA, FMIN, FMAX, FCMP, FCLASS, FROUND, FLDEXP, FFREXP, PFMA and FDOT2 complete with
the values of their rules, FADD, FMUL, FFMA and FCMP but for their `.f64` forms, whose results arrive later (R22).
That the exponent of FFREXP stays where both its destinations are one register is the model's choice (log 100). -/
def Obligations.FloatingPoint : Prop :=
  ∀ (e : Ext) (s : State) (c : Cx), c.g.Shaped →
    let does (o : Op) (i : Instr) : Prop := s.readyE o e = some c → o.wellFormed e = true →
      ∃ t f, exec i s = .next t ∧ floating o = some f ∧ Wrote t c f
    (e.ty ≠ 8 → does .fadd (.fadd e) ∧ does .fmul (.fmul e) ∧ does .ffma (.ffma e) ∧ does .fcmp (.fcmp e))
    ∧ does .fsub (.fsub e) ∧ does .fmin (.fmin e) ∧ does .fmax (.fmax e) ∧ does .fclass (.fclass e)
    ∧ does .fround (.fround e) ∧ does .fldexp (.fldexp e) ∧ does .ffrexp (.ffrexp e) ∧ does .pfma (.pfma e)
    ∧ does .fdot2 (.fdot2 e)

/-- R43, R44, R105 to R111: CVTF, CVTN, DQN, PACK and UNPK complete with the values of their rules; CVT without an `.f64`
type and RND too, and each active thread outside a glean draws one word for each element under SR, or one for RND.

R36, R107, R108: QNT without `.stat` writes the codes of its elements in their containers, and under `.ef` the new
residues; where an element overflows and the slot's OVFT is set, RESCALE follows the write for every active thread. -/
def Obligations.ConversionsAndQuantising : Prop :=
  ((∀ (e : Ext) (s : State) (c : Cx), c.g.Shaped →
       let does (o : Op) (i : Instr) : Prop := s.readyE o e = some c → o.wellFormed e = true →
         ∃ t f, exec i s = .next t ∧ converting o = some f ∧ Wrote t c f
       does .cvtf (.cvtf e) ∧ does .cvtn (.cvtn e) ∧ does .dqn (.dqn e) ∧ does .pack (.pack e) ∧ does .unpk (.unpk e))
     ∧ (∀ (e : Ext) (s : State) (c : Cx), s.readyE .cvt e = some c → Op.cvt.wellFormed e = true → c.g.Shaped →
       e.ty ≠ 8 → e.lo ≠ 8 →
       ∃ t, exec (.cvt e) s = .next t ∧ Wrote t c cvtVal ∧ ∀ th ∈ c.act, th.part = none → th.solo = none →
         (t.thr c.gi th.key).map Thread.draws =
           some (th.draws + if e.rm = 5 then (if e.ty = 12 ∨ e.ty = 13 then 2 else 1) else 0))
     ∧ ∀ (e : Ext) (s : State) (c : Cx), s.readyE .rnd e = some c → Op.rnd.wellFormed e = true → c.g.Shaped →
       ∃ t, exec (.rnd e) s = .next t
         ∧ (Wrote t c fun c th => c.e.op0.writes 1 ((c.g.draw th 0).toNat / 2 ^ 32))
         ∧ ∀ th ∈ c.act, th.part = none → th.solo = none →
           (t.thr c.gi th.key).map Thread.draws = some (th.draws + 1))
  ∧ (∀ (e : Ext) (s : State) (c : Cx), s.readyE .qnt e = some c → Op.qnt.wellFormed e = true → c.g.Shaped → e.src ≠ 3 →
       (c.slot.ovft = false →
         ∃ t, exec (.qnt e) s = .next t ∧ Wrote t c fun c th => c.qntWrites (c.quantise th (c.sigma th)))
       ∧ ((c.slot.ovft = true ∧ ∃ th ∈ c.act, ∃ q ∈ c.quantise th (c.sigma th), q.2.1 = true) →
         ∃ t s', exec (.qnt e) s = .next t
           ∧ (Wrote s' c fun c th => c.qntWrites (c.quantise th (c.sigma th)))
           ∧ t = ((State.takeAll ((s'.countIssue c).advance c) c.gi c.site c.sh.hdr (c.act.map fun th => (th.key,
               { cls := 11, info := e.op2.toBits.toNat
                   + if (c.quantise th (c.sigma th)).any (fun q => q.2.1) then 2 ^ 16 else 0 }))).tidy c.gi).mark c))

/-- R55, R56, R72: each base form completes with the result of the extended form that the table of R72 names, under guard
P7: ADD, SUB, MUL, AND, OR, XOR, ANDN, SHL, SHRL, SHRA, MIN and MAX of both types, FADD, FSUB, FMUL, FMIN, FMAX, FFMA,
PFMA of both types, MAD and ROT. -/
def Obligations.BaseForms : Prop :=
  ∀ (b : Base) (s : State) (c : Cx), c.g.Shaped →
    let does (major : Nat) (i : Base → Instr) (o : Op) (ty : BitVec 4) (addend : Bool) : Prop :=
      s.readyB major o b ty addend = some c →
      ∃ t f, exec (i b) s = .next t ∧ atOnce (baseExt b ty addend) o = some f ∧ Wrote t c f
        ∧ (baseExt b ty addend).gp = 7 ∧ (baseExt b ty addend).gn = false
    does 1 .addBase .add 6 false ∧ does 2 .subBase .sub 6 false ∧ does 3 .mulBase .mul 6 false
    ∧ does 4 .andBase .and 6 false ∧ does 5 .orBase .or 6 false ∧ does 6 .xorBase .xor 6 false
    ∧ does 7 .andnBase .andn 6 false ∧ does 8 .shlBase .shl 6 false ∧ does 9 .shrlBase .shrl 6 false
    ∧ does 10 .shraBase .shra 2 false ∧ does 11 .minI32Base .min 2 false ∧ does 12 .maxI32Base .max 2 false
    ∧ does 13 .minN32Base .min 6 false ∧ does 14 .maxN32Base .max 6 false ∧ does 15 .faddBase .fadd 9 false
    ∧ does 16 .fsubBase .fsub 9 false ∧ does 17 .fmulBase .fmul 9 false ∧ does 18 .fminBase .fmin 9 false
    ∧ does 19 .fmaxBase .fmax 9 false ∧ does 20 .ffmaBase .ffma 9 true ∧ does 21 .pfmaBf16x2Base .pfma 12 true
    ∧ does 22 .pfmaF16x2Base .pfma 13 true ∧ does 23 .madBase .mad 6 true ∧ does 24 .rotBase .rot 6 false

/-- R20, R83: a register instruction changes nothing but its destinations: every other register of every thread, S
registers and predicates, the flags, DRAWS, SEQ and tickets, HANDLER, accumulators, weights, streams, barriers and the
scratchpad, every byte of memory, and the rest of the device. Stated for the base and extended forms of the integer,
bit, move, predicate, floating-point and conversion instructions that draw nothing. -/
def Obligations.RegisterFrame : Prop :=
  (∀ (o : Op) (f : Cx → Thread → List (Reg × Word)) (e : Ext) (s t : State) (c : Cx), atOnce e o = some f →
    s.readyE o e = some c → exec (.ofOp o e) s = .next t → OnlyWrites s t c f ∧ SameDraws s t)
  ∧ ∀ x ∈ baseForms, ∀ (f : Cx → Thread → List (Reg × Word)) (b : Base) (s t : State) (c : Cx),
    atOnce (baseExt b x.2.2.2.1 x.2.2.2.2) x.2.2.1 = some f →
    s.readyB x.1 x.2.2.1 b x.2.2.2.1 x.2.2.2.2 = some c → exec (x.2.1 b) s = .next t →
    OnlyWrites s t c f ∧ SameDraws s t

/-- R22 to R24, R84, R87, R102: the forms whose results arrive later complete at issue with one outstanding result for
each active thread, holding the value of their rules, and raise the flag they name; nothing is written yet: DIV, FRCP,
FRSQ, FSQRT, FDIV, FEXP2, FLOG2, FSINP, FCOSP, the `.f64` forms of FADD, FMUL, FFMA and FCMP, and GLSTAT (R255).

R26, R138, R140, R334, R397: LDS, LDC, CLK and PMRD complete with an outstanding result for each active thread: bytes
of the scratchpad, bytes of the constant space, TAI time or the Lammas word, a counter of the own cluster. LDS and LDC
do where every acting thread's access is aligned and inside its space, LDS of words without an error, LDC where no
other group has a line of them pinned (R186), nothing marks them (R135), and no partial waits on them (R188). -/
def Obligations.LaterResultsAndReads : Prop :=
  (∀ (e : Ext) (s : State) (c : Cx), c.g.Shaped →
       let does (o : Op) (i : Instr) : Prop := s.readyE o e = some c →
         ∃ t f, exec i s = .next t ∧ later e o = some f
           ∧ (t.groups[c.gi]?).map Group.outs = some (c.g.outs ++ outsOf c f)
           ∧ (∀ gi k r, t.reg gi k r = s.reg gi k r) ∧ t.ms = s.ms
           ∧ ∀ th ∈ c.act, e.flag.toNat < 12 → (t.thr c.gi th.key).map (fun u => u.flags.getD e.flag.toNat 0) =
               some (th.flags.getD e.flag.toNat 0 + ((outsOf c f).filter fun x => x.key = th.key).length)
       does .div (.div e) ∧ does .frcp (.frcp e) ∧ does .frsq (.frsq e) ∧ does .fsqrt (.fsqrt e) ∧ does .fdiv (.fdiv e)
       ∧ does .fexp2 (.fexp2 e) ∧ does .flog2 (.flog2 e) ∧ does .fsinp (.fsinp e) ∧ does .fcosp (.fcosp e)
       ∧ (e.ty = 8 → does .fadd (.fadd e) ∧ does .fmul (.fmul e) ∧ does .ffma (.ffma e) ∧ does .fcmp (.fcmp e))
       ∧ does .glstat (.glstat e))
  ∧ (∀ (e : Ext) (s : State) (c : Cx),
       let u : State := { s with ms := s.ms.served c.g.uid c.who }
       let at_ (th : Thread) : Nat := c.g.lrec + c.sp th e.scale
       let addsIn (m : MemSide) (i : Instr) (f : Cx → Thread → List (Reg × Word)) : Prop :=
         ∃ t, exec i s = .next t ∧ (t.groups[c.gi]?).map Group.outs = some (c.g.outs ++ outsOf c f) ∧ t.ms = m
           ∧ ∀ gi k r, t.reg gi k r = s.reg gi k r
       let adds := addsIn s.ms
       (s.readyE .lds e = some c → Op.lds.wellFormed e = true →
         (∀ th ∈ c.actS, c.sp th e.scale % c.width = 0 ∧ c.sp th e.scale + c.width ≤ c.g.launch.space
           ∧ c.g.spErrs (c.sp th e.scale) c.width = false) →
         adds (.lds e) fun c th => c.e.op0.writes c.wregs (leNat (c.g.spRead (c.sp th e.scale) c.width)))
       ∧ (s.readyE .ldc e = some c →
         (∀ th ∈ c.actS, c.sp th e.scale % c.width = 0 ∧ c.sp th e.scale + c.width ≤ c.g.launch.csize
           ∧ s.readPin c.g.vf c.g.uid (at_ th) c.width = none ∧ u.readMark c.g.vf (at_ th) c.width = none
           ∧ u.devRecall c.g.vf (at_ th) c.width = u) →
         addsIn u.ms (.ldc e) fun c th => c.e.op0.writes c.wregs (u.devNat c.g.vf (at_ th) c.width))
       ∧ (s.readyE .clk e = some c →
         adds (.clk e) fun c _ =>
           if e.lo = 0 then c.e.op0.writes 2 (s.lam.tai / 2 ^ 16 % 2 ^ 64)
           else if e.lo = 1 then
             c.e.op0.writes 4 (s.lam.tai / 2 ^ 16 % 2 ^ 64 + 2 ^ 64 * (s.lam.tai % 2 ^ 16) + 2 ^ 96 * s.lam.word s.ns)
           else c.e.op0.writes 1 (s.lam.word s.ns))
       ∧ (s.readyE .pmrd e = some c →
         adds (.pmrd e) fun c _ => c.e.op0.writes 2 ((s.cluster c.g.cl).cnt.c.getD e.op1.index 0)))

/-- R22 to R25, R119: an arriving result writes its registers with their deferred marks and, if it is flagged, lowers its
flag; it is then no longer outstanding. FLAG_COMPLETION serves flagged results, SCOREBOARD_RESULT the others. For a
thread that has exited it is discarded. -/
def Obligations.ResultArrives : Prop :=
  ∀ (s : State) (gi i : Nat) (g : Group) (o : Out) (th : Thread), s.groups[gi]? = some g → g.outs[i]? = some o →
    o.ready = true → g.find o.key = some th → g.Shaped →
    let ev : Instr := if o.flag.isSome then .flagCompletion gi i else .scoreboardResult gi i
    (th.place ≠ .exited → ∃ t, exec ev s = .next t ∧ (t.groups[gi]?).map Group.outs = some (g.outs.eraseIdx i)
      ∧ (∀ r x, lastWrite (o.regs.map fun y => (y.1, y.2.1)) r = some x → match r with
          | .v j => j < g.launch.nv → t.reg gi o.key r = some x
          | .s j => j < 512 → t.reg gi o.key r = some x
          | .p j => j < 7 → t.reg gi o.key r = some (if x = 0 then 0 else 1))
      ∧ (∀ j m, (o.regs.map fun y => (y.1, y.2.2)).reverse.lookup (.v j) = some m → t.markAt gi o.key j = some m)
      ∧ (∀ f, o.flag = some f → f < 12 →
          (t.thr gi o.key).map (fun u => u.flags.getD f 0) = some (th.flags.getD f 0 - 1))
      ∧ t.ms = s.ms)
    ∧ (th.place = .exited → ∃ t, exec ev s = .next t ∧ (t.groups[gi]?).map Group.outs = some (g.outs.eraseIdx i)
      ∧ ∀ gi k r, t.reg gi k r = s.reg gi k r)

/-! ### Control -/

/-- R118: NOP completes for every operand form, the sheaf goes on after it, and nothing else changes. R136: PREF completes
for every operand form and never faults: the sheaf goes on after it, and no register, byte, result, page, pin or task
changes; it moves lines through the caches alone. Where another group has one of its lines pinned it is refused and
tries again (R186). R122: ICINV completes, and its cluster holds no instruction word any more if a thread's guard is
true, so that every word is then fetched from memory; nothing else changes, but for the lines of that code in its
cache. It waits for the accesses of its threads to another chip.

R118, R119, R207: YIELD holds every present thread for its delay in the bin of the next header, and where no thread's
guard is true files them there at once; that the guard-false threads are delayed with the others, and that none are
without a guard-true one, are the model's choices (log 35). EXIT ends each active thread, so that its default barriers
expect one arrival fewer, where no register of it, and no S register, carries an ECC mark (R25), and it takes part in
no glean (R256). -/
def Obligations.HintsYieldAndExit : Prop :=
  ((∀ (e : Ext) (s : State) (c : Cx), s.readyE .nop e = some c → c.pres ≠ [] →
       ∃ t, exec (.nop e) s = .next t ∧ OnlyWrites s t c (fun _ _ => []) ∧ SameDraws s t ∧ GoesOn s t c)
     ∧ (∀ (e : Ext) (s : State) (c : Cx), s.readyE .pref e = some c → c.pres ≠ [] → s.MemOk →
       ∃ t, exec (.pref e) s = .next t ∧ SameRegs s t ∧ (∀ a, t.byte a = s.byte a) ∧ SameDraws s t
         ∧ ((∀ x ∈ c.act.filterMap (s.prefPlace c), c.refused s x.1 = false) → GoesOn s t c)
         ∧ t.groupAt c.gi Group.outs = some c.g.outs ∧ t.ms.tlb = s.ms.tlb ∧ t.ms.walks = s.ms.walks ∧ t.ms.pins = s.ms.pins
         ∧ t.tasks = s.tasks)
     ∧ ∀ (e : Ext) (s : State) (c : Cx), s.readyE .icinv e = some c → c.pres ≠ [] →
       (∀ r ∈ s.fab.reqs, r.group = c.g.uid → r.cls = 1 → ∀ th ∈ c.act, th.key ≠ r.key) →
       ∃ t, exec (.icinv e) s = .next t ∧ OnlyWrites { s with icache := t.icache, hier := t.hier } t c (fun _ _ => [])
         ∧ SameDraws s t ∧ GoesOn s t c ∧ (c.act = [] → t.icache = s.icache ∧ t.hier = s.hier)
         ∧ (c.act ≠ [] → (∀ x, x ∈ t.icache ↔ x ∈ s.icache ∧ x.cl ≠ c.g.cl)
           ∧ ∀ vf pa, t.codeWord c.g.cl vf pa = BitVec.ofNat 32 (leNat (Memory.readN (t.memAt (pa / 128)) pa 4))))
  ∧ ((∀ (e : Ext) (s : State) (c : Cx), s.readyE .yield e = some c → c.g.Shaped → c.act ≠ [] →
       ∃ t, exec (.yield e) s = .next t ∧ ∀ th ∈ c.pres,
         t.spot c.gi th.key = some (.held .delay { c.site with next := c.nextPc } s.clock 0, c.nextPc))
     ∧ (∀ (e : Ext) (s : State) (c : Cx), s.readyE .yield e = some c → c.g.Shaped → c.act = [] →
       ∃ t, exec (.yield e) s = .next t ∧ ∀ th ∈ c.pres, t.spot c.gi th.key = some (.bin s.clock, c.nextPc))
     ∧ ∀ (e : Ext) (s : State) (c : Cx), s.readyE .exit e = some c → c.g.Shaped →
       (∀ th ∈ c.act, th.part = none ∧ th.solo = none ∧ ∀ m ∈ th.marks, m.2 ≠ .ecc) → (∀ m ∈ c.g.marksS, m.2 ≠ .ecc) →
       ∃ t, exec (.exit e) s = .next t ∧ (∀ th ∈ c.act, (t.thr c.gi th.key).map Thread.place = some .exited)
         ∧ ∀ b < c.g.bars.length, ∃ g ∈ t.groups[c.gi]?,
             (g.bar b).c = (c.g.bar b).c - if (c.g.bar b).dflt then c.act.length else 0)

/-- R114: BRA .u moves the whole sheaf to its target where every present thread takes, goes on in the clause where none
does, and raises UNIFORMITY for every present thread where some do. -/
def Obligations.BranchUniform : Prop :=
  ∀ (e : Ext) (s : State) (c : Cx), s.readyE .braU e = some c → c.pres ≠ [] →
    (c.act.length = c.pres.length → ∃ t, exec (.braU e) s = .next t ∧ StandsAt s t c c.target)
    ∧ (c.act = [] → ∃ t, exec (.braU e) s = .next t ∧ GoesOn s t c)
    ∧ (c.act ≠ [] → c.act.length ≠ c.pres.length →
        exec (.braU e) s = .next (((s.countIssue c).mark c).faulted c (c.pres.map fun t => (t.key, { cls := 3 }))))

/-- R113, R115, R117, R118: BRA .s, BRX, CALL, RET and REFORM file every present thread, a taking one into the bin of its
target and any other into the bin of the next header; CALL writes the address of the next header for each taking
thread; a target of BRX, CALL or RET that is no multiple of 4 raises MISALIGNED for its thread, and nothing else
happens.

R116: BRA .m that divides a sheaf with fewer than four open regions opens one: its taking threads wait while the
others go on at the next header; with four open it acts as BRA .s; undivided it acts as BRA .u. -/
def Obligations.Branches : Prop :=
  (∀ (e : Ext) (s : State) (c : Cx), c.g.Shaped →
       let filed (i : Instr) (dst : Thread → Addr) : Prop := ∃ t, exec i s = .next t ∧ ∀ th ∈ c.pres,
         t.spot c.gi th.key = some (.bin s.clock, if Ext.guards e th then dst th else c.nextPc)
       let bad (dst : Thread → Addr) : List (Key × Flt) :=
         (c.act.filter fun th => (dst th).toNat % 4 != 0).map fun th => (th.key, { cls := 4 })
       let callTo (th : Thread) : Addr := if e.op1 = .k 0 then c.target else c.regTarget th
       (s.readyE .braS e = some c → filed (.braS e) fun _ => c.target)
       ∧ (s.readyE .reform e = some c → filed (.reform e) fun _ => c.nextPc)
       ∧ (s.readyE .brx e = some c → (∀ th ∈ c.act, (c.regTarget th).toNat % 4 = 0) → filed (.brx e) c.regTarget)
       ∧ (s.readyE .ret e = some c → (∀ th ∈ c.act, (c.regTarget th).toNat % 4 = 0) → filed (.ret e) c.regTarget)
       ∧ (s.readyE .call e = some c → Op.call.wellFormed e = true → (∀ th ∈ c.act, (callTo th).toNat % 4 = 0) →
           filed (.call e) callTo
           ∧ ∃ t, exec (.call e) s = .next t ∧ Wrote t c fun c _ => c.e.op0.writes 2 c.nextPc.toNat)
       ∧ (s.readyE .brx e = some c → bad c.regTarget ≠ [] →
           exec (.brx e) s = .next (((s.countIssue c).mark c).faulted c (bad c.regTarget)))
       ∧ (s.readyE .ret e = some c → bad c.regTarget ≠ [] →
           exec (.ret e) s = .next (((s.countIssue c).mark c).faulted c (bad c.regTarget)))
       ∧ (s.readyE .call e = some c → bad callTo ≠ [] →
           exec (.call e) s = .next (((s.countIssue c).mark c).faulted c (bad callTo))))
  ∧ (∀ (e : Ext) (s : State) (c : Cx), s.readyE .braM e = some c → c.pres ≠ [] → c.g.Shaped →
       (c.act ≠ [] → c.act.length ≠ c.pres.length → c.sh.regions.length < 4 →
         ∃ t, exec (.braM e) s = .next t ∧
           ((∃ g ∈ t.groups[c.gi]?, ∃ sh ∈ g.sheaves, sh.members = c.sh.members ∧ sh.pc = c.nextPc ∧ sh.inClause = false
               ∧ sh.regions = { rc := c.sh.pc + 4 * BitVec.ofNat 64 e.distance, target := c.target, stage := 1
                                taking := c.act.map Thread.key
                                cont := (c.pres.filter fun th => !Ext.guards e th).map Thread.key } :: c.sh.regions)
             ∨ ∀ th ∈ c.pres, t.spot c.gi th.key = some (.bin s.clock, if Ext.guards e th then c.target else c.nextPc)))
       ∧ (c.act ≠ [] → c.act.length ≠ c.pres.length → 4 ≤ c.sh.regions.length →
         ∃ t, exec (.braM e) s = .next t ∧ ∀ th ∈ c.pres,
           t.spot c.gi th.key = some (.bin s.clock, if Ext.guards e th then c.target else c.nextPc))
       ∧ (c.act.length = c.pres.length → ∃ t, exec (.braM e) s = .next t ∧ StandsAt s t c c.target))

/-- R120, R371, R372: TRAP and BRK of one thread enter the handler: the fault record with class SOFTWARE or BREAK and the
code in INFO is written at the thread's record address, SEQ rises by one, the top V pair receives that address, and
the thread is filed into the bin of HANDLER. Stated for a thread outside gleans, in a group whose handler is not 0,
and for BRK without a debugger's hold. Without a handler, or in the clause at HANDLER that the thread came into
through handler entry, the task is aborted with ERR 6.

R372: the record of a fault has 64 bytes, and holds PC, the header's and the next header's addresses, ADDR, class,
ACCESS, INFO, the first word and SEQ at their offsets. -/
def Obligations.TrapEntersHandler : Prop :=
  (∀ (e : Ext) (s : State) (c : Cx) (th : Thread) (task : Task),
       let does (o : Op) (cls : Nat) (i : Instr) : Prop :=
         s.readyE o e = some c → c.g.Shaped → 8 ≤ c.g.launch.nv → c.act = [th] → th.key.gl = 0 → th.part = none →
         th.solo = none → s.taskOf c.g.task = some task →
         (c.g.handler ≠ 0 → (c.site.hdr ≠ c.g.handler ∨ th.entered = false) →
           let a := recordAddr task.save (task.gx * task.gy * task.gz) c.g.gidx th.key.t c.g.launch
           let f : Flt := { cls := cls, info := e.imm.toNat }
           ∃ t, exec i s = .next t ∧ t.spot c.gi th.key = some (.bin s.clock, c.g.handler)
             ∧ (t.thr c.gi th.key).map Thread.seq = some (th.seq + 1)
             ∧ t.reg c.gi th.key (.v (c.g.launch.nv - 2)) = some (BitVec.ofNat 32 a)
             ∧ t.reg c.gi th.key (.v (c.g.launch.nv - 1)) = some (BitVec.ofNat 32 (a / 2 ^ 32))
             ∧ t.ms = (s.writeAs (some (c.g.uid, c.g.cl)) c.g.vf a (recordBytes f c.site (th.seq + 1) none)).ms)
         ∧ (c.g.handler = 0 ∨ (c.site.hdr = c.g.handler ∧ th.entered = true) →
           ∃ t, exec i s = .next t ∧ t.ms = ((s.closeAt c).abort c.g.vf task.idx 6).ms
             ∧ t.tasks = ((s.closeAt c).abort c.g.vf task.idx 6).tasks)
       does .trap 18 (.trap e) ∧ (c.g.dbg = false → does .brk 19 (.brk e)))
  ∧ (∀ (f : Flt) (site : Site) (seq : Word), f.addr < 2 ^ 64 → f.cls < 256 → f.access < 256 → f.info < 2 ^ 32 →
       let b := recordBytes f site seq none
       let at_ (o n : Nat) : Nat := leNat ((b.drop o).take n)
       b.length = 64 ∧ at_ 0 8 = site.pc.toNat ∧ at_ 8 8 = site.hdr.toNat ∧ at_ 16 8 = site.next.toNat ∧ at_ 24 8 = f.addr
         ∧ at_ 32 1 = f.cls ∧ at_ 33 1 = f.access ∧ at_ 36 4 = f.info ∧ at_ 40 4 = site.word.toNat ∧ at_ 44 4 = seq.toNat)

/-- R19, R26 to R29, R121: SREG completes with the special register that its number names; SWREG sets DRAWS of each active
thread, or HANDLER to the first active thread's pair. Stated for threads that are no helpers. -/
def Obligations.SpecialRegisters : Prop :=
  (∀ (e : Ext) (s : State) (c : Cx), s.readyE .sreg e = some c → Op.sreg.wellFormed e = true → c.g.Shaped →
    (∀ th ∈ c.act, th.key.gl = 0) →
    ∃ t, exec (.sreg e) s = .next t
      ∧ Wrote t c fun c th => c.e.op0.writes ((sregWidth e.imm.toNat).getD 1) (s.sreg c.g th e.imm.toNat))
  ∧ (∀ (e : Ext) (s : State) (c : Cx), s.readyE .swreg e = some c → c.g.Shaped → e.imm = 0x0C →
    ∃ t, exec (.swreg e) s = .next t ∧ t.ms = s.ms ∧ (∀ gi k r, t.reg gi k r = s.reg gi k r)
      ∧ ∀ th ∈ c.act, (t.thr c.gi th.key).map Thread.draws = some (BitVec.ofNat 32 (c.g.src th 1 e.op1)))
  ∧ ∀ (e : Ext) (s : State) (c : Cx) (th : Thread), s.readyE .swreg e = some c → e.imm = 0x0D → c.act.head? = some th →
    ∃ t, exec (.swreg e) s = .next t ∧ t.ms = s.ms ∧ (∀ gi k r, t.reg gi k r = s.reg gi k r)
      ∧ (t.groups[c.gi]?).map Group.handler = some (BitVec.ofNat 64 (c.g.src th 2 e.op1))

/-! ### Row-collectives -/

/-- R124 to R130, R316: MATCH, BFLY, SHFL, VOTE, ROWRED, ELECT and QBLK complete in two steps where the live threads of
the group are one row that arrives together: the sheaf enters the collective hold, and the row's acting writes each
receiving lane's result from the operands of every lane. QBLK is stated where its slot traps no overflow.

R152: where a live thread of a row has not arrived at its collective within the row's timeout, every arrived thread
whose guard is true enters the handler with class 12 and the mask of the missing lanes, and the others go back to the
clause's header. Stated as the state that the shared operations give. -/
def Obligations.RowCollectives : Prop :=
  (∀ (e : Ext) (s : State) (c : Cx),
       c.g.Shaped → c.g.stop = .running → c.g.insts = [] → c.g.sheaves = [c.sh] → c.sh.regions = [] → c.g.members c.sh ≠ [] →
       (∀ th ∈ c.g.threads, th.key.gl = 0 ∧ th.key.t < 32 ∧ th.part = none ∧ th.solo = none
         ∧ (th.place = .exited ∨ (th.place = .sheaf ∧ th.key ∈ c.sh.members))) →
       let lane (i : Nat) : Option Lane := (c.g.threads.find? fun th => th.key = { t := i, gl := 0 } && th.place != .exited).map
         fun th => { t := th, recv := Ext.guards e th }
       let r : RowLanes := (List.range 32).map lane
       let does (o : Op) (i : Instr) (f : Cx → Thread → List (Reg × Word)) : Prop :=
         s.readyE o e = some c → o.wellFormed e = true →
         ∃ t u, exec i s = .next t
           ∧ (∃ g ∈ t.groups[c.gi]?, ∃ sh ∈ g.sheaves, sh.hold = .collective o e c.site [])
           ∧ (∀ gi k x, t.reg gi k x = s.reg gi k x)
           ∧ exec (.rowCollectiveAct c.gi 0) t = .next u ∧ Wrote u c f
       let value (c : Cx) (th : Thread) : List (Reg × Word) := collVal c r th.key.t th
       does .rowMatch (.rowMatch e) value ∧ does .bfly (.bfly e) value ∧ does .shfl (.shfl e) value
       ∧ does .vote (.vote e) value ∧ does .rowred (.rowred e) value ∧ does .elect (.elect e) value
       ∧ (c.slot.ovft = false → does .qblk (.qblk e) fun c th => blockWrites c r th))
  ∧ (∀ (s : State) (gi row : Nat) (g : Group) (i : Inst) (si : Nat) (o : Op) (e : Ext) (site : Site) (sh : Sheaf),
       s.groups[gi]? = some g → g.insts = [i] → i.row = row → i.since + 2 ^ g.launch.cexp ≤ s.clock →
       g.instStopped s.ms.walks i = false → g.holdAt i.pc row = some (si, o, e, site) → g.sheaves[si]? = some sh →
       let missing := (g.awaited row).filter fun t => !g.arrived i.pc t
       missing ≠ [] →
       let parts := (g.rowLanes i.pc row e).part
       let back := ((parts.filter fun x => !x.2.recv).map fun x => x.2.t.key)
       let mask := (missing.map fun t => 2 ^ (t.key.t % 32)).sum
       exec (.rowStall gi row) s = .next (((s.setGroup gi fun g =>
         back.foldl (fun g k => g.file s.clock k site.hdr) { g with insts := [] }).takeAll gi site sh.hdr
           ((parts.filter fun x => x.2.recv).map fun x => (x.2.t.key, { cls := 12, info := mask }))).finishAll gi))

/-! ### Memory -/

/-- R134, R369, R296: the checks of a thread's access in their order: MISALIGNED, PROTECTION at or above 2^56 or where the
mapping denies the right, REVOKED for a revoked import, SEALED for a write into a sealed arena; a page without a
translation is waited for.

R134: the address of LD and ST is base + index × 2^scale + displacement modulo 2^64, with the index a 32-bit unsigned
number, and absent operands 0.

R134, R370: LD and ST of which a thread's check fails raise the faults of every failing thread and have no other
effect; R364, R366: where only a page is missing the sheaf waits and memory and registers stay: it is held for the
page's walk, or the second-level TLB of its die gives the translation to its cluster's. -/
def Obligations.AccessChecks : Prop :=
  (∀ (s : State) (c : Cx) (va width : Nat) (n : Need),
       let bad (cls : Nat) : Chk := .bad { cls := cls, addr := va, access := if n.w then 1 else 0 }
       (va % width ≠ 0 → s.checkVa c va width n = bad 4)
       ∧ (va % width = 0 → 2 ^ 56 ≤ va → s.checkVa c va width n = bad 6)
       ∧ (va % width = 0 → va < 2 ^ 56 →
           (s.xlate c.g.cl c.g.vf va n = .denied → s.checkVa c va width n = bad 6)
           ∧ (∀ pa arena, s.xlate c.g.cl c.g.vf va n = .ok pa arena →
               ((inImport pa = true ∧ (s.importOf pa).revoked = true) → s.checkVa c va width n = bad 17)
               ∧ (¬ (inImport pa = true ∧ (s.importOf pa).revoked = true) → n.w = true → (s.vf c.g.vf).sealedAt arena = true →
                   s.checkVa c va width n = bad 8)
               ∧ (¬ (inImport pa = true ∧ (s.importOf pa).revoked = true) →
                   (n.w = false ∨ (s.vf c.g.vf).sealedAt arena = false) → s.checkVa c va width n = .ok pa arena))
           ∧ (s.xlate c.g.cl c.g.vf va n = .missing → (∀ page cls, c.sh.hold ≠ .failed page cls) →
               s.checkVa c va width n = .page va)))
  ∧ (∀ (c : Cx) (th : Thread),
       (c.va th : Int) = (((if c.e.op1.absent then 0 else c.g.src th 2 c.e.op1) : Int)
         + (if c.e.op2.absent then 0 else c.g.src th 1 c.e.op2) * 2 ^ c.e.scale + c.e.disp) % 2 ^ 64)
  ∧ (∀ (e : Ext) (s : State) (c : Cx),
       let faults (ts : List Thread) (n : Need) : List (Key × Flt) := ts.filterMap fun th =>
         match s.checkVa c (c.va th) c.width n with
         | .bad f => some (th.key, f)
         | _ => none
       let waits (i : Instr) (ts : List Thread) (n : Need) : Prop := ∃ t va, exec i s = .next t ∧ SameRegs s t ∧ t.ms.mem = s.ms.mem
         ∧ (∃ th ∈ ts, s.checkVa c (c.va th) c.width n = .page va)
         ∧ (∃ g ∈ t.groups[c.gi]?, ∃ sh ∈ g.sheaves, sh.pc = c.sh.pc ∧ sh.idx = c.sh.idx
             ∧ (s.secondTlb c.g.cl c.g.vf (va / 4096) = none → sh.hold = .page va (va / 4096) n.w false false))
         ∧ ∀ x, s.secondTlb c.g.cl c.g.vf (va / 4096) = some x →
             x.leaf.entry c.g.cl c.g.vf (va / 4096) ∈ t.ms.tlb
       (s.readyE .ld e = some c → faults c.actS { r := true } ≠ [] →
         exec (.ld e) s = .next (((s.countIssue c).mark c).faulted c (faults c.actS { r := true })))
       ∧ (s.readyE .st e = some c → faults c.act { w := true } ≠ [] →
         exec (.st e) s = .next (((s.countIssue c).mark c).faulted c (faults c.act { w := true })))
       ∧ (s.readyE .ld e = some c → faults c.actS { r := true } = [] →
         (∃ th ∈ c.actS, ∃ va, s.checkVa c (c.va th) c.width { r := true } = .page va) → waits (.ld e) c.actS { r := true })
       ∧ (s.readyE .st e = some c → faults c.act { w := true } = [] →
         (∃ th ∈ c.act, ∃ va, s.checkVa c (c.va th) c.width { w := true } = .page va) → waits (.st e) c.act { w := true }))

/-- R133 to R135, R137, R139: LD and LDT complete with one outstanding result for each acting thread that holds the bytes
of its width at its address, little-endian; nothing is written.

R133 to R135, R139, R186: ST and STT complete: each active thread's bytes stand at its translated address, written in
order; every other byte and every register is as before. Stated where nothing that the device writes waits for a pin
that a release ends (log 81), a release at cluster scope or wider finds its group's write-backs acknowledged (R183),
and a narrower one finds ways for the lines that it pins (R161). -/
def Obligations.LoadsAndStores : Prop :=
  (∀ (e : Ext) (s : State) (c : Cx) (pa arena : Thread → Nat),
       let result (i : Instr) : Prop := ∃ t, exec i s = .next t ∧ SameRegs s t ∧ (∀ a, t.byte a = s.byte a)
         ∧ t.groupAt c.gi Group.outs = some (c.g.outs ++ resultsOf c c.wregs
             (c.actS.map fun th => (th, leNat (Memory.readN s.ms.mem (pa th) c.width))))
       s.MemOk → Unstaged s c.actS pa →
       (s.readyE .ld e = some c → Reach c s c.actS (fun th => s.checkVa c (c.va th) c.width { r := true }) pa arena →
         result (.ld e))
       ∧ (s.readyE .ldt e = some c → Reach c s c.actS (fun th => s.checkTensor c th false) pa arena → result (.ldt e)))
  ∧ (∀ (e : Ext) (s : State) (c : Cx) (pa arena : Thread → Nat),
       let effect (i : Instr) : Prop := ∃ t, exec i s = .next t ∧ SameRegs s t
         ∧ (∀ a, ¬ Apart c.act pa c.width a → t.byte a = Memory.read (stored s.ms.mem c.act pa c.data) a)
         ∧ ∀ a, Apart c.act pa c.width a → t.byte a = s.byte a
       s.MemOk → s.Settled → Unstaged s c.act pa →
       (s.readyE .st e = some c → Reach c s c.act (fun th => s.checkVa c (c.va th) c.width { w := true }) pa arena →
         (e.ord = true → if e.sc.toNat ≤ 1 then Roomy c s c.act pa else Released c s) → effect (.st e))
       ∧ (s.readyE .stt e = some c → Reach c s c.act (fun th => s.checkTensor c th true) pa arena → effect (.stt e)))

/-- R138, R155, R162 to R164, R206, R212: STS writes each active thread's bytes at its scratchpad offset, in order, and
STX at the offset of the shadow bank of the member it names; device memory and every register are as before, and so is
every other byte of the scratchpad. A member that finished receives nothing, and for one that has not started the
store waits, unacknowledged, in its order, while the thread goes on. -/
def Obligations.ScratchStores : Prop :=
  (∀ (e : Ext) (s : State) (c : Cx), s.readyE .sts e = some c →
    (∀ th ∈ c.act, c.sp th e.scale % c.width = 0 ∧ c.sp th e.scale + c.width ≤ c.g.launch.space) →
    ∃ t, exec (.sts e) s = .next t ∧ SameRegs s t ∧ t.ms = s.ms
      ∧ t.groupAt c.gi Group.scratch = some (stored c.g.scratch c.act (fun th => c.g.spOffset (c.sp th e.scale)) c.data)
      ∧ ∀ gi, gi ≠ c.gi → t.groupAt gi Group.scratch = s.groupAt gi Group.scratch)
  ∧ ∀ (e : Ext) (s : State) (c : Cx) (set : Nat) (entry : BitVec 64) (m : Nat),
    s.readyE .stx e = some c → c.g.xchgSet = some (set, entry, m) →
    (∀ th ∈ c.act, c.stxFault (setCount entry) th = none) →
    let where' (th : Thread) : GroupAt := s.targetGroup c.g.task (s.memberGroup c.g entry (c.member th))
    ∃ t, exec (.stx e) s = .next t ∧ SameRegs s t ∧ t.ms = s.ms
      ∧ (∀ gi, t.groupAt gi Group.scratch = s.groupAt gi fun g =>
          c.act.foldl (fun m th => match where' th with
            | .here i => if i = gi then Memory.writeN m (g.shadowOffset (c.sp th e.scale)) (c.data th) else m
            | _ => m) g.scratch)
      ∧ (t.groupAt c.gi Group.stx).map (fun xs => xs.map fun x => (x.key, x.gidx, x.off, x.data)) =
          some ((c.g.stx.map fun x => (x.key, x.gidx, x.off, x.data)) ++ c.act.filterMap fun th => match where' th with
            | .later => some (th.key, s.memberGroup c.g entry (c.member th), c.sp th e.scale, c.data th)
            | _ => none)

/-! ### Synchronisation -/

/-- R185, R191 to R195, R199: ATOM and ATOMS complete: the acting threads, in order, each read the location and replace it
by the new value of their operation; ATOM's old values, and ATOMS's unless it returns none, are outstanding results.
Memory outside the locations and every register are as before. ATOM is stated where nothing that the device writes
waits for a pin that it ends (log 81), a release finds its group's write-backs acknowledged (R183) and a pin a way
(R161), ATOMS for words without an error.

R194: the operations of an atomic on integers: addition modulo 2^w, minimum and maximum of the type's sign, the bit
operations, exchange, and compare-and-swap.

R170, R186, R188, R196: RED completes without a result, also on lines that other groups hold: registers and the bytes
outside its locations are as before. Where its threads name one line, which its own group does not hold, one partial
of the cluster for each location combines their operands in order; on a line that its own group holds, a thread's
contribution is applied at once. A later read at the home combines a partial with the old value. Stated where nothing
is staged on the lines, no recall that must come first waits for a pin (R170), nothing that the device writes waits
for one (log 81), and a release finds its group's write-backs acknowledged (R183). -/
def Obligations.AtomicsAndReductions : Prop :=
  ((∀ (e : Ext) (s : State) (c : Cx) (pa arena : Thread → Nat), s.readyE .atom e = some c → s.MemOk → s.Settled →
       Reach c s c.actS (fun th => s.checkVa c (c.g.address th e 2 64 c.atomScale) c.atomBytes { r := true, w := true })
         pa arena → Unstaged s c.actS pa → (e.sc.toNat ≤ 1 → Roomy c s c.actS pa) →
       (c.releases = true → 2 ≤ e.sc.toNat → Released c s) →
       let x := exchanged s.ms.mem c.actS pa c.atomBytes c.atomOp
       ∃ t, exec (.atom e) s = .next t ∧ SameRegs s t
         ∧ t.groupAt c.gi Group.outs = some (c.g.outs ++ resultsOf c c.n x.2)
         ∧ (∀ a, ¬ Apart c.actS pa c.atomBytes a → t.byte a = Memory.read x.1 a)
         ∧ ∀ a, Apart c.actS pa c.atomBytes a → t.byte a = s.byte a)
     ∧ ∀ (e : Ext) (s : State) (c : Cx), s.readyE .atoms e = some c →
       (∀ th ∈ c.actS, c.sp th c.atomScale % c.atomBytes = 0 ∧ c.sp th c.atomScale + c.atomBytes ≤ c.g.launch.space
         ∧ c.g.spErrs (c.sp th c.atomScale) c.atomBytes = false) →
       let x := exchanged c.g.scratch c.actS (fun th => c.g.spOffset (c.sp th c.atomScale)) c.atomBytes c.atomOp
       ∃ t, exec (.atoms e) s = .next t ∧ SameRegs s t ∧ t.ms = s.ms ∧ t.groupAt c.gi Group.scratch = some x.1
         ∧ t.groupAt c.gi Group.outs = some (c.g.outs ++ if e.lo.toNat / 2 % 2 = 1 then [] else resultsOf c c.n x.2))
  ∧ (∀ (ty o v v2 : Nat), ty ∈ [2, 3, 6, 7] →
       let w := if ty = 3 ∨ ty = 7 then 64 else 32
       let signed : Bool := ty = 2 ∨ ty = 3
       let le (a b : Nat) : Bool := if signed then sext w a ≤ sext w b else a ≤ b
       o < 2 ^ w → v < 2 ^ w →
       atomNew 0 ty o v v2 = (o + v) % 2 ^ w ∧ atomNew 1 ty o v v2 = (if le o v then o else v)
       ∧ atomNew 2 ty o v v2 = (if le v o then o else v) ∧ atomNew 3 ty o v v2 = o &&& v ∧ atomNew 4 ty o v v2 = o ||| v
       ∧ atomNew 5 ty o v v2 = o ^^^ v ∧ atomNew 6 ty o v v2 = v ∧ atomNew 7 ty o v v2 = if o = v then v2 else o)
  ∧ ((∀ (e : Ext) (s : State) (c : Cx) (pa arena : Thread → Nat), s.readyE .red e = some c → s.MemOk → s.Settled →
       Finds c s c.act (fun th => s.checkVa c (c.g.address th e 2 64 c.atomScale) c.atomBytes { w := true }) pa arena →
       Unstaged s c.act pa → (∀ th ∈ c.act, s.mayStage (c.g.vf / 16) c.g.cl (pa th / 128) = true) →
       (c.releases = true → 2 ≤ e.sc.toNat → Released c s) →
       ∃ t, exec (.red e) s = .next t ∧ SameRegs s t ∧ t.groupAt c.gi Group.outs = some c.g.outs
         ∧ (∀ a, Apart c.act pa c.atomBytes a → t.byte a = s.byte a)
         ∧ (∀ line, (∀ th ∈ c.act, pa th / 128 = line) → (∀ q ∈ s.ms.pins, q.line = line → q.group ≠ c.g.uid) →
             ∀ th ∈ c.act, ∀ x rest, (c.act.filter fun u => pa u = pa th) = x :: rest →
               ∃ p ∈ t.ms.partials, p.cl = c.g.cl ∧ p.pa = pa th ∧ p.op = e.rm.toNat ∧ p.ty = e.ty.toNat ∧ p.width = c.atomBytes
                 ∧ p.val = rest.foldl (fun v u => atomNew p.op p.ty v (c.atomArgs u).1 0) (c.atomArgs x).1)
         ∧ ∀ th, c.act = [th] → (∃ q ∈ s.ms.pins, q.line = pa th / 128 ∧ q.group = c.g.uid) → ¬ (c.releases = true ∧ 2 ≤ e.sc.toNat) →
             Memory.readN t.ms.mem (pa th) c.atomBytes = natBytes c.atomBytes
               (atomNew e.rm.toNat e.ty.toNat (leNat (Memory.readN s.ms.mem (pa th) c.atomBytes)) (c.atomArgs th).1 0))
     ∧ ∀ (s : State) (p : Partial), s.MemOk → (s.ms.partials.filter fun q => q.pa / 128 = p.pa / 128) = [p] →
       (∀ q ∈ s.ms.pins, q.line ≠ p.pa / 128) →
       let x := s.load p.pa p.width
       leNat x.2 = atomNew p.op p.ty (leNat (Memory.readN s.ms.mem p.pa p.width)) p.val 0 % 2 ^ (8 * p.width)
         ∧ p ∉ x.1.ms.partials ∧ ∀ a, x.1.byte a = s.byte a)

/-- R186, R200 to R202: LDF whose words are full completes for each active thread with their values, and `.take` empties
them; STE whose words are empty stores its data and fills them; FEINIT makes the words full or empty. The threads of
LDF and STE then stand at the next header; a thread whose condition does not hold is held there. A served STE and a
FEINIT of at least one word are releases that end the group's pins. Stated where no other thread of the group waits on
a word, the active threads' words are apart, and, for the releases, nothing that the device writes waits for a pin
(log 81) and the group's write-backs are acknowledged (R183). -/
def Obligations.FullEmpty : Prop :=
  ∀ (e : Ext) (s : State) (c : Cx), c.g.Shaped → c.g.feWaiters = [] →
    let words (th : Thread) : List Nat := c.g.feWords (c.sp th e.scale) c.wregs
    let fits : Prop := ∀ th ∈ c.act, c.sp th e.scale % c.width = 0 ∧ c.sp th e.scale + c.width ≤ c.g.launch.space
    let apart : Prop := c.act.Pairwise fun a b => ∀ w ∈ words a, w ∉ words b
    let spots (t : State) : Prop := ∀ th ∈ c.act, t.spot c.gi th.key = some (.bin s.clock, c.nextPc)
    let named (w : Nat) : Prop := ∃ th ∈ c.act, w ∈ words th
    let unpinned (t : State) : Prop := ∀ p ∈ t.ms.pins, p.group ≠ c.g.uid
    (s.readyE .ldf e = some c → Op.ldf.wellFormed e = true → fits → apart →
      (∀ th ∈ c.act, ∀ w ∈ words th, w ∈ c.g.fe) →
      ∃ t, exec (.ldf e) s = .next t ∧ t.ms = s.ms ∧ spots t
        ∧ (Wrote t c fun c th => c.e.op0.writes c.wregs (leNat (c.g.spRead (c.sp th e.scale) c.width)))
        ∧ ∃ fe, t.groupAt c.gi Group.fe = some fe ∧ ∀ w, w ∈ fe ↔ w ∈ c.g.fe ∧ ¬ (e.ord = true ∧ named w))
    ∧ (s.readyE .ste e = some c → Op.ste.wellFormed e = true → fits → apart → s.MemOk → s.Settled → Released c s →
      (∀ th ∈ c.act, ∀ w ∈ words th, w ∉ c.g.fe) →
      ∃ t, exec (.ste e) s = .next t ∧ SameRegs s t ∧ spots t ∧ (∀ a, t.byte a = s.byte a) ∧ (c.act ≠ [] → unpinned t)
        ∧ t.groupAt c.gi Group.scratch = some (stored c.g.scratch c.act (fun th => c.g.spOffset (c.sp th e.scale)) c.data)
        ∧ ∃ fe, t.groupAt c.gi Group.fe = some fe ∧ ∀ w, w ∈ fe ↔ w ∈ c.g.fe ∨ named w)
    ∧ (s.readyE .ldf e = some c → fits → ∀ th, c.act = [th] → (∃ w ∈ words th, w ∉ c.g.fe) →
      ∃ t place, exec (.ldf e) s = .next t ∧ t.ms = s.ms ∧ SameRegs s t
        ∧ t.spot c.gi th.key = some (.held (.ldf (c.sp th e.scale) c.wregs e.ord e.op0.index) c.heldAt s.clock place, c.nextPc))
    ∧ (s.readyE .ste e = some c → fits → ∀ th, c.act = [th] → (∃ w ∈ words th, w ∈ c.g.fe) →
      ∃ t place, exec (.ste e) s = .next t ∧ t.ms = s.ms ∧ SameRegs s t
        ∧ t.spot c.gi th.key =
            some (.held (.ste (c.sp th e.scale) (natWords c.wregs (c.g.src th c.wregs e.op3))) c.heldAt s.clock place, c.nextPc))
    ∧ (s.readyE .feinit e = some c → s.MemOk → s.Settled → Released c s →
      (∀ th ∈ c.act, c.g.src th 1 e.op3 ≠ 0 →
        c.sp th e.scale % 4 = 0 ∧ c.sp th e.scale + 4 * c.g.src th 1 e.op3 ≤ c.g.launch.space) →
      ∃ t, exec (.feinit e) s = .next t ∧ SameRegs s t ∧ (∀ a, t.byte a = s.byte a)
        ∧ ((∃ th ∈ c.act, c.g.src th 1 e.op3 ≠ 0) → unpinned t)
        ∧ ∃ fe, t.groupAt c.gi Group.fe = some fe ∧ ∀ w,
            ((∃ th ∈ c.act, w ∈ c.g.feWords (c.sp th e.scale) (c.g.src th 1 e.op3)) → (w ∈ fe ↔ e.ord = true))
            ∧ ((∀ th ∈ c.act, w ∉ c.g.feWords (c.sp th e.scale) (c.g.src th 1 e.op3)) → (w ∈ fe ↔ w ∈ c.g.fe)))

/-- R203: FE_TIMEOUT of a thread that has waited 2^FEXP clocks at LDF or STE raises class 13 at the held instruction;
R204: WAITA_POLL after 2,400 clocks lets a thread go on whose word has changed, at the next header; R186: while
another group's pin refuses the read, the refusal is noted and nothing else changes.

R204: WAITA completes: an active thread whose word differs from its operand stands at the next header, and any other
is held there to watch its word, unless the line that it watches at cluster scope or narrower has already left the
cluster cache for a later thread's; registers and memory are as before. With one active thread none has left. -/
def Obligations.WordWaits : Prop :=
  ((∀ (s : State) (gi i : Nat) (g : Group) (th : Thread) (h : Hold) (site : Site) (since order : Nat),
       s.groups[gi]? = some g → g.threads[i]? = some th → th.place = .held h site since order →
       ((∃ o n take d, h = .ldf o n take d) ∨ ∃ o d, h = .ste o d) → g.stop = .running →
       since + 2 ^ g.launch.fexp ≤ s.clock →
       exec (.feTimeout gi i) s =
         .next (s.takeOne gi site { wait := 0, set1 := 15, set2 := 15, count := 0 } (th.key, { cls := 13 })))
     ∧ ∀ (s : State) (gi i : Nat) (g : Group) (th : Thread) (va pa ar n : Nat) (wide : Bool) (v : Nat) (site : Site)
         (since order : Nat), s.groups[gi]? = some g → g.Shaped → g.threads[i]? = some th →
       th.place = .held (.waita va pa ar n wide false v) site since order → since + 2400 ≤ s.clock →
       (s.ms.refuses (some g.uid) (pa / 128) = true →
         exec (.waitaPoll gi i) s = .next { s with ms := s.ms.noteRefused (pa / 128) g.uid th.key })
       ∧ (s.ms.refuses (some g.uid) (pa / 128) = false → s.errs pa = false →
         (∀ p ∈ s.ms.partials, p.pa / 128 ≠ pa / 128) →
         ∃ t, exec (.waitaPoll gi i) s = .next t ∧ SameRegs s t ∧ (∀ a, t.byte a = s.byte a)
           ∧ t.spot gi th.key = if leNat (Memory.readN s.ms.mem pa n) = v
               then some (.held (.waita va pa ar n wide false v) site s.clock order, th.pc) else some (.bin s.clock, site.next)))
  ∧ (∀ (e : Ext) (s : State) (c : Cx) (pa arena : Thread → Nat), s.readyE .waita e = some c → c.g.Shaped → s.MemOk →
       Reach c s c.act (fun th => s.checkVa c (c.va th) (4 * c.n) { r := true }) pa arena → Unstaged s c.act pa →
       let gone : Place × Addr := (.bin s.clock, c.nextPc)
       let watches (mon : Bool) (th : Thread) : Place × Addr :=
         (.held (.waita (c.va th) (pa th) (arena th) (4 * c.n) (decide (3 ≤ e.sc.toNat)) mon (c.g.src th c.n e.op3)) c.heldAt s.clock 0,
           c.nextPc)
       let equal (th : Thread) : Prop := leNat (Memory.readN s.ms.mem (pa th) (4 * c.n)) = c.g.src th c.n e.op3
       ∃ t, exec (.waita e) s = .next t ∧ SameRegs s t ∧ (∀ a, t.byte a = s.byte a)
         ∧ (∀ th ∈ c.act, ¬ equal th → t.spot c.gi th.key = some gone)
         ∧ (∀ th ∈ c.act, equal th → ∃ mon, t.spot c.gi th.key = some (watches mon th)
             ∨ (e.sc.toNat < 3 ∧ t.spot c.gi th.key = some gone))
         ∧ ∀ th, c.act = [th] → equal th → ∃ mon, t.spot c.gi th.key = some (watches mon th))

/-- R205 to R209, R211: BAR arrivals: `.arv`, `.sync`, `.set` and `.swap` add one arrival for each active thread; where
the phase has all its arrivals and no bytes are pending it completes, and every thread held at it goes on, unless it
is a set phase, which then waits for its set. Memory and registers are as before. Stated for a barrier without set
phases that the arrivals do not pass, threads whose own accesses have performed, and where nothing that the device
writes waits for a pin that a set's arrival ends (log 81).

R206, R208: BAR `.wait` lets a thread go on whose ticket is before the phase (as 32-bit numbers compare, log 83), and
holds any other; BAREXP adds each active thread's count to the pending bytes, up to 2^56 − 1. BAR `.wait` is stated
where no arrival of the group still waits.

R209, R210: when every member of a set has arrived, each running member's barrier phase completes, and if the phase
began by `.swap` every member's exchange banks change places; registers and memory are as before. Stated for a set
whose members all run, in a task whose threads wait on no full/empty word, with no write-back of a member outstanding,
and where nothing that the device writes waits for a pin (log 81). -/
def Obligations.Barriers : Prop :=
  (∀ (e : Ext) (s : State) (c : Cx), c.g.Shaped → c.act ≠ [] → s.MemOk → s.Settled → c.g.arvs = [] →
       (∀ th ∈ c.act, s.arriveIds c.g th.key = []) → c.barrier < c.g.bars.length →
       let x := c.g.bar c.barrier
       x.sets = [] → x.sent = false → x.arrivals + c.act.length ≤ x.c →
       let full : Prop := x.arrivals + c.act.length = x.c ∧ x.pending = 0
       let held (t : State) : Prop := ∀ th ∈ c.act, t.spot c.gi th.key = some (.held (.barrier c.barrier) c.heldAt s.clock 0, c.nextPc)
       let passed (t : State) : Prop := ∀ th ∈ c.act, t.spot c.gi th.key = some (.bin s.clock, c.nextPc)
       let released (t : State) : Prop := ∀ th ∈ c.g.threads, ∀ site since order,
         th.place = .held (.barrier c.barrier) site since order → th.ticket c.barrier = some x.phase →
         t.spot c.gi th.key = some (.bin s.clock, site.next)
       let same (i : Instr) (t : State) : Prop := exec i s = .next t ∧ SameRegs s t ∧ ∀ a, t.byte a = s.byte a
       let bar (t : State) (y : Bar) : Prop := t.groupAt c.gi (fun g => g.bar c.barrier) = some y
       let arrives (i : Instr) (waits : Prop) : Prop :=
         (full → ∃ t, same i t ∧ bar t { x with arrivals := 0, phase := (x.phase + 1) % 2 ^ 32 } ∧ released t ∧ (waits → passed t))
         ∧ (¬ full → ∃ t, same i t ∧ bar t { x with arrivals := x.arrivals + c.act.length } ∧ (waits → held t))
       let joins (i : Instr) (set : Option Nat) (swap : Bool) : Prop := ∃ t n, same i t ∧ held t ∧ set = some n
         ∧ ∃ y, bar t y ∧ y.phase = x.phase ∧ y.arrivals = x.arrivals + c.act.length ∧ y.pending = x.pending
             ∧ (x.phase, n, swap) ∈ y.sets ∧ (y.sent = true ↔ full)
             ∧ (full → ∀ p ∈ t.ms.pins, p.group ≠ c.g.uid)
       (s.readyE .barArv e = some c → arrives (.barArv e) False)
       ∧ (s.readyE .barSync e = some c → arrives (.barSync e) True)
       ∧ (s.readyE .barSet e = some c → joins (.barSet e) ((c.g.membership e.op1.index).map Prod.fst) false)
       ∧ (s.readyE .barSwap e = some c → joins (.barSwap e) (c.g.xchgSet.map Prod.fst) true))
  ∧ (∀ (e : Ext) (s : State) (c : Cx), c.g.Shaped → c.barrier < c.g.bars.length →
       (s.readyE .barWait e = some c → c.g.arvs = [] → ∃ t, exec (.barWait e) s = .next t ∧ SameRegs s t ∧ t.ms = s.ms
         ∧ ∀ th ∈ c.act, t.spot c.gi th.key =
             if phaseBefore ((th.ticket c.barrier).getD (c.g.bar c.barrier).phase) (c.g.bar c.barrier).phase = true then
               some (.bin s.clock, c.nextPc)
             else some (.held (.barrier c.barrier) c.heldAt s.clock 0, c.nextPc))
       ∧ (s.readyE .barexp e = some c → (c.g.bar c.barrier).arrivals < (c.g.bar c.barrier).c →
         (c.g.bar c.barrier).pending < 2 ^ 56 →
         ∃ t, exec (.barexp e) s = .next t ∧ SameRegs s t ∧ t.ms = s.ms
           ∧ (t.groupAt c.gi fun g => (g.bar c.barrier).pending) =
               some (Nat.min ((c.g.bar c.barrier).pending + (c.act.map c.expCount).sum) (2 ^ 56 - 1))))
  ∧ (∀ (s : State) (task : Task) (set : Nat),
       s.taskOf task.uid = some task → task.saved = [] → task.finished = [] → s.MemOk → s.Settled →
       let mem := s.setMembers task set
       setValid (task.launch.sets.getD set 0) = true → mem ≠ [] → (∀ g ∈ s.groups, g.Shaped ∧ g.feWaiters = []) →
       (∀ i ∈ mem, task.cursor ≤ i ∧ ∃ g ∈ s.groups, g.task = task.uid ∧ g.gidx = i) →
       (∀ g ∈ s.groups, g.task = task.uid → g.gidx ∈ mem → (g.sentBar set).isSome = true ∧ s.flushed g = true) →
       (s.groups.map fun g => (g.task, g.gidx)).Nodup →
       ∃ t, exec (.setPhaseComplete task.uid set) s = .next t ∧ SameRegs s t ∧ (∀ a, t.byte a = s.byte a)
         ∧ ∀ (gi : Nat) (g : Group) (b : Nat) (swap : Bool), s.groups[gi]? = some g → g.task = task.uid → g.gidx ∈ mem →
             g.sentBar set = some (b, swap) →
             (∃ n, 1 ≤ n ∧ (t.groupAt gi fun g => (g.bar b).phase) = some (((g.bar b).phase + n) % 2 ^ 32))
             ∧ t.groupAt gi Group.swapped = some (g.swapped !=
                 s.groups.any fun u => u.task = task.uid && mem.contains u.gidx && (match u.sentBar set with
                   | some x => x.2
                   | none => false)))

/-- R186, R213: FENCE completes; each active thread then waits for its copies, engine commands, requests, stores and
contributions of the named classes that are under way; at cluster scope or wider the group's pins end, and at device
scope or wider the partition's partials are combined at their homes, but for those that another group's pin keeps,
which the fence waits for too. Registers and memory are as before. Stated where nothing that the device writes waits
for a pin (log 81). -/
def Obligations.Fences : Prop :=
  ∀ (e : Ext) (s : State) (c : Cx), s.readyE .fence e = some c → c.act ≠ [] → s.MemOk → s.Settled →
    (s.ms.partials.map Partial.id).Nodup →
    ∃ t, exec (.fence e) s = .next t ∧ SameRegs s t ∧ (∀ a, t.byte a = s.byte a)
      ∧ t.groupAt c.gi Group.fences = some (c.g.fences ++ c.act.filterMap fun th =>
          let left := if 4 ≤ e.sc.toNat then (t.ms.partials.filter fun p => p.vf / 16 = c.g.vf / 16).map Partial.id else []
          let ids := t.fenceIds c.g th.key e.classes ++ left
          if ids = [] then none else some { key := th.key, classes := e.classes, ids := ids, site := some (c.site, c.sh.hdr) })
      ∧ (2 ≤ e.sc.toNat → ∀ p ∈ t.ms.pins, p.group ≠ c.g.uid)
      ∧ (4 ≤ e.sc.toNat → ∀ p ∈ t.ms.partials, p.vf / 16 = c.g.vf / 16 →
          ∃ q ∈ s.ms.pins, q.line = p.pa / 128 ∧ q.group ≠ c.g.uid)

/-! ### Copies and streams -/

/-- R214, R217, R220, R222, R223: CPY and CPYM put one command into the copy unit's queue for each acting thread, with the
template, the addresses of its operands, slack and barrier, one part for each receiving member, and one outstanding
token; registers and memory are as before. The commands enter in ascending order of their threads, each as an entry is
free: where the 64 entries do not take them all the sheaf stays at the instruction, and those that have entered do not
enter again. -/
def Obligations.CopyInstructions : Prop :=
  ∀ (e : Ext) (s : State) (c : Cx),
    let base (th : Thread) (o : Opnd) : Nat := if o.absent then 0 else c.g.src th 2 o
    let new := c.actS.filter fun th => !c.sh.acted.contains th.key
    let entered (members : Thread → List Nat) (t : State) : Prop := SameRegs s t ∧ t.ms = s.ms
      ∧ t.copies.length = s.copies.length + new.length
      ∧ ∀ i th, new[i]? = some th →
          (∃ k ∈ t.copies, k.id = s.uids + 1 + i ∧ k.cl = c.g.cl ∧ k.vf = c.g.vf ∧ k.group = some c.g.uid ∧ k.key = th.key
            ∧ k.tmpl = c.g.launch.templates.getD (e.imm.toNat % 64) 0 ∧ k.src = base th e.op1 ∧ k.dst = base th e.op2
            ∧ k.slack = e.lo.toNat ∧ k.entered = s.clock ∧ k.bar = (if e.sc.toNat % 2 = 1 then some e.copyBarrier else none)
            ∧ k.parts.map CPart.gidx = members th)
          ∧ ∃ x, t.groupAt c.gi Group.outs = some x
            ∧ c.out th.key ((e.op0.writes 1 0).map fun w => (w.1, w.2, none)) false (s.uids + 1 + i) ∈ x
    let waits (t : State) : Prop := SameRegs s t ∧ t.ms = s.ms
      ∧ t.copies.length = s.copies.length + (64 - s.queued c.g.cl)
      ∧ ∃ g ∈ t.groups[c.gi]?, ∃ sh ∈ g.sheaves[c.si]?, sh.pc = c.sh.pc ∧ sh.idx = c.sh.idx
        ∧ sh.acted = ((new.take (64 - s.queued c.g.cl)).map Thread.key).reverse ++ c.sh.acted
    (s.readyE .cpy e = some c → s.queued c.g.cl + new.length ≤ 64 →
      ∃ t, exec (.cpy e) s = .next t ∧ entered (fun _ => [c.g.gidx]) t)
    ∧ (s.readyE .cpym e = some c → s.queued c.g.cl + new.length ≤ 64 →
      ∃ t, exec (.cpym e) s = .next t ∧ entered (fun th => (c.mcastParts s th).map CPart.gidx) t)
    ∧ (s.readyE .cpy e = some c → 64 < s.queued c.g.cl + new.length → ∃ t, exec (.cpy e) s = .next t ∧ waits t)
    ∧ (s.readyE .cpym e = some c → 64 < s.queued c.g.cl + new.length → ∃ t, exec (.cpym e) s = .next t ∧ waits t)

/-- R216, R218, R219: COPY_UNIT_SERVICE serves the next unit of the command of least effective slack: a unit of one
element without conversion, between places of this chip's memory, puts the source's bytes at the destination and
counts the unit; every other byte is as before. Stated where no partial is staged and no error stands in memory. A
unit that finds a failing element after n good ones writes those and ends its part with that status; one whose first
source fails writes nothing; and one whose DTARG handle is stale ends its part with FAULT (R300).

R208, R219, R220: COPY_COMPLETE of a command whose parts have ended removes it, lets its token arrive with the status
word in [31:28] and the units in [27:0], and subtracts its bytes from the barrier it names, which still lacks
arrivals; registers and memory are as before. Stated for a CPY of a running group in a VF without a trace, and where
nothing that the device writes waits for a pin (log 81).

R228, R229: COPY_APERTURE_START on a channel with room puts a command into the aperture's queue, for the VF of the
channel, that waits for its argument block; a nonzero reserved field of the store makes it one that ends with FAULT;
memory is as before. Once the block can be read, COPY_UNIT_SERVICE takes the command's addresses, slack and token from
it. Which VF a channel belongs to is a constant of the model (log 13). The block is read where no partial waits on it. -/
def Obligations.CopyEngine : Prop :=
  (∀ (s : State) (cl : Nat) (k : Copy) (j : Nat) (p : CPart), s.endAll cl = s → s.nextCopy cl = some (k, j) →
       k.parts[j]? = some p → k.began ≠ 0 → k.block = none → p.started = true → s.partGroup k p = none → k.mcast = false →
       k.got = [] → (∀ m ∈ s.copies, m.id = k.id → m = k) →
       let q : CPart := { p with stamp := some (p.stamp.getD s.stamp) }
       let v := s.setPart k.id j fun p => { p with stamp := q.stamp }
       let ends (st : Nat) (t : State) : Prop := exec (.copyUnitService cl) s = .next t ∧ SameRegs s t
         ∧ (∀ a, t.byte a = s.byte a)
         ∧ ∀ m ∈ t.copies, m.id = k.id → (m.parts[j]?).map (fun y => (y.unit, y.status)) = some (p.unit, some st)
       (∀ x pa pb a b w, k.elems p.unit = [x] → s.copySrc k x = .mem pa a → s.copyDst k none (s.partBase k none p) x = .mem pb b →
         k.conv = 0 → tf k.tmpl 18 4 ≠ 14 → k.dtarg = 127 → k.dbits = 8 * w → k.sbits = 8 * w → 0 < w → s.MemOk →
         s.ms.partials = [] → s.ms.spoilt = [] → s.errs pb = false → (k.sa x).2 = 0 →
         ∃ t, exec (.copyUnitService cl) s = .next t ∧ SameRegs s t
           ∧ Memory.readN t.ms.mem pb w = Memory.readN s.ms.mem pa w
           ∧ (∀ a, a < pb ∨ pb + w ≤ a → t.byte a = s.byte a)
           ∧ ∀ m ∈ t.copies, m.id = k.id → (m.parts[j]?).map CPart.unit = some (p.unit + 1))
       ∧ (∀ n st u cs, k.dtarg = 127 → v.lookSrc k (k.elems p.unit) 0 = .go n (some st) →
         v.copyCodes k ((k.elems p.unit).take n) = (u, cs) →
         u.lookDst k none (u.partBase k none q) ((k.elems p.unit).take n) 0 = .go n none →
         let begun := { u with ms := u.ms.served k.id k.key }.setPart k.id j fun p => { p with pin := none }
         exec (.copyUnitService cl) s =
           .next ((((((k.elems p.unit).take n).zipIdx).foldl (fun s x =>
             s.copyElem k q none (u.partBase k none q) none cs x.1 x.2) begun).setPart k.id j fun p =>
               { p with status := some st }).endParts k.id))
       ∧ (∀ x xs st, k.dtarg = 127 → k.elems p.unit = x :: xs → s.copySrc k x = .bad st → ∃ t, ends st t)
       ∧ (k.dtarg ≠ 127 → s.copyDesc k k.dtarg = none → ∃ t, ends 4 t))
  ∧ (∀ (s : State) (cl i gi : Nat) (k : Copy) (p : CPart) (st : Nat) (uid : Nat) (g : Group),
       (s.copies.filter fun k => k.cl = cl)[i]? = some k → k.parts = [p] → p.status = some st → st < 16 → p.tile = none →
       p.unit < 2 ^ 28 → p.ended = false → s.MemOk → s.Settled → k.chan = none → k.group = some uid → s.groupOf uid = some gi → s.groups[gi]? = some g →
       k.mcast = false → (∀ r ∈ s.fab.reqs, r.copy ≠ k.id) → (s.vf k.vf).traces (some 0) = false →
       ∃ t, exec (.copyComplete cl i) s = .next t ∧ SameRegs s t ∧ (∀ a, t.byte a = s.byte a)
         ∧ t.copies = s.copies.filter (fun x => x.id != k.id)
         ∧ (∃ os, t.groupAt gi Group.outs = some os ∧ ∀ o ∈ g.outs, o.tag = k.id → o.ready = false → o.regs.length = 1 →
             ∃ o' ∈ os, o'.key = o.key ∧ o'.ready = true ∧ o'.regs.map (fun r => (r.1, r.2.1)) =
               o.regs.map fun r => (r.1, BitVec.ofNat 32 (st * 2 ^ 28 + p.unit)))
         ∧ ∀ b, k.bar = some b → b < g.bars.length → (g.bar b).arrivals < (g.bar b).c →
             (t.groupAt gi fun g => (g.bar b).pending) = some ((g.bar b).pending - k.bytes))
  ∧ ((∀ (s : State) (die chan : Nat) (data : BitVec 64),
       let cl := Config.clusters + die
       let vf := Config.channelVf (die * 64 + chan) % 128
       die < 4 → chan < 64 →
       (s.copies.filter fun k => k.cl = cl && k.chan = some chan).length < 16 →
       ∃ t k, exec (.copyApertureStart die chan data) s = .next t ∧ t.ms = s.ms ∧ t.groups = s.groups
         ∧ t.copies = s.copies ++ [k] ∧ k.cl = cl ∧ k.vf = vf ∧ k.group = none ∧ k.chan = some chan
         ∧ k.block = some (field data.toNat 6 50 * 64) ∧ k.tindex = data.toNat % 64 ∧ k.entered = s.clock
         ∧ (field data.toNat 56 8 ≠ 0 → k.parts.map CPart.status = [some 4]))
     ∧ ∀ (s : State) (cl : Nat) (k : Copy) (j a : Nat) (p : CPart), s.endAll cl = s → s.nextCopy cl = some (k, j) →
       k.parts[j]? = some p → k.began ≠ 0 → k.block = some a → s.blockWaits k.vf a 64 = none → s.devRecall k.vf a 64 = s →
       ∃ t, exec (.copyUnitService cl) s = .next t ∧ SameRegs s t ∧ ∀ m ∈ t.copies, m.id = k.id →
         m.block = none ∧ m.lrec = s.devNat k.vf a 8 ∧ m.src = s.devNat k.vf (a + 8) 8 ∧ m.dst = s.devNat k.vf (a + 16) 8
           ∧ m.token = s.devNat k.vf (a + 24) 8 ∧ m.slack = s.devNat k.vf (a + 32) 1 % 16)

/-- R224, R225: the stream instructions. QPOP of a FILLED tile gives its offset, with bit 31 where the tile is in error,
and makes it POPPED; QPEEK gives the current address, of a ring with bit 31 where the tile is not FREE; QPUSH reserves
a FREE tile; QADV steps an affine stream's indices or moves on from a POPPED tile; QRST rewinds a stream without a
RESERVED tile. Each acts once for the sheaf and changes no other register and no memory. QPOP is stated where no other
sheaf waits longer at a QPOP; without a FILLED tile the sheaf is held at it.

R224 to R226: a pushed tile becomes FILLED once the stores and requests that its QPUSH orders have ended; an advanced
tile becomes FREE once the commands that use it have ended; a ring without a RESERVED tile resets under a sheaf held
at its QRST. -/
def Obligations.Streams : Prop :=
  (∀ (e : Ext) (s : State) (c : Cx) (x : Stream) (th : Thread), c.g.Shaped → c.act.head? = some th →
       c.g.streams[c.stream]? = some x →
       let after (i : Instr) (y : Stream) (t : State) : Prop :=
         exec i s = .next t ∧ t.ms = s.ms ∧ t.groupAt c.gi (fun g => g.streams[c.stream]?) = some (some y)
       let gives (n v : Nat) (t : State) : Prop :=
         (∀ r w, lastWrite (e.op0.writes n v) r = some w → t.reg c.gi th.key r = some w)
           ∧ ∀ gi k r, ¬ (gi = c.gi ∧ r ∈ (e.op0.writes n v).map Prod.fst ∧ (k = th.key ∨ ∃ i, r = .s i)) →
               t.reg gi k r = s.reg gi k r
       let mark (i : Nat) (y : TileState) : List (TileState × Bool) := modAt x.tiles i fun z => (y, z.2)
       let base := sf c.entry 32 32
       let size := sf c.entry 64 16
       (∀ err, s.readyE .qpop e = some c → Op.qpop.wellFormed e = true → x.tiles[x.p]? = some (.filled, err) →
         c.behind = false → ∃ t,
           after (.qpop e) { x with tiles := mark x.p .popped, p := (x.p + 1) % x.tiles.length } t
           ∧ gives 1 (base + x.p * size + if err then 2 ^ 31 else 0) t)
       ∧ (s.readyE .qpop e = some c → (x.tiles[x.p]?).map Prod.fst ≠ some .filled → c.sh.hold = .free → ∃ t,
           exec (.qpop e) s = .next t ∧ SameRegs s t ∧ t.ms = s.ms ∧ ∃ g ∈ t.groups[c.gi]?, ∃ sh ∈ g.sheaves[c.si]?,
             sh.pc = c.sh.pc ∧ ∃ order, sh.hold = .stream c.stream order false c.site)
       ∧ (s.readyE .qpeek e = some c → Op.qpeek.wellFormed e = true → ∃ t, after (.qpeek e) x t
           ∧ gives 2 (if streamKind c.entry = 2 then
               base + x.r * size + (if (x.tiles[x.r]?).map Prod.fst = some .free then 0 else 2 ^ 31) else c.affine) t)
       ∧ (s.readyE .qpush e = some c → (x.tiles[x.r]?).map Prod.fst = some .free → ∃ t, SameRegs s t
           ∧ after (.qpush e) { x with tiles := mark x.r (.pushed (s.fenceIds c.g th.key 9)), r := (x.r + 1) % x.tiles.length } t)
       ∧ (s.readyE .qadv e = some c → streamKind c.entry = 2 → (x.tiles[x.a]?).map Prod.fst = some .popped → ∃ t, SameRegs s t
           ∧ after (.qadv e) { x with
               tiles := mark x.a (.advanced (s.tileUsers c.g th.key (base + x.a * size) size)), a := (x.a + 1) % x.tiles.length } t)
       ∧ (s.readyE .qadv e = some c → streamKind c.entry ≠ 2 → ∃ t, SameRegs s t
           ∧ after (.qadv e) { x with idx := stepIdx ((List.range 4).map fun k => sf c.entry (64 + 16 * k) 16) x.idx } t)
       ∧ (s.readyE .qrst e = some c → x.settled = true → ∃ t, SameRegs s t
           ∧ after (.qrst e) { idx := [0, 0, 0, 0], r := 0, p := 0, a := 0, tiles := x.tiles.map fun _ => (.free, false) } t))
  ∧ (∀ (s : State) (gi q tile : Nat) (g : Group) (x : Stream), s.groups[gi]? = some g → g.streams[q]? = some x →
       let after (i : Instr) (y : Stream) : Prop := ∃ t, exec i s = .next t ∧ t.ms = s.ms ∧ SameRegs s t
         ∧ t.groupAt gi (fun g => g.streams[q]?) = some (some y)
       (∀ ids err, x.tiles[tile]? = some (.pushed ids, err) → (∀ i ∈ ids, i ∉ s.underWay) →
         after (.qpushTileFilled gi q tile) { x with tiles := modAt x.tiles tile fun _ => (.filled, false) })
       ∧ (∀ ids err, x.tiles[tile]? = some (.advanced ids, err) → (∀ i ∈ ids, i ∉ s.underWay) →
         after (.qadvTileFree gi q tile) { x with tiles := modAt x.tiles tile fun _ => (.free, false) })
       ∧ (g.stop = .running → x.settled = true →
         (∃ sh ∈ g.sheaves, ∃ order site, sh.hold = .stream q order true site) →
         after (.qrstReset gi q)
           { idx := [0, 0, 0, 0], r := 0, p := 0, a := 0, tiles := x.tiles.map fun _ => (.free, false) }))

/-! ### The matrix engine -/

/-- R231 to R233, R235 to R241: WBLD, MMA, AZERO, ADRAIN and AADD put one command for each active thread into the queue of
their class, where their checks pass, in ascending order, each as the queue has room for eight; registers and memory
are as before. Where the queue does not take them all the sheaf stays at the instruction. -/
def Obligations.MatrixCommands : Prop :=
  ∀ (e : Ext) (s : State) (c : Cx), c.act ≠ [] →
    let entered (i : Instr) (o : Op) (fill : Bool) : Prop :=
      let queue (t : State) : List MxCmd := if fill then t.fill else t.compute
      let other (t : State) : List MxCmd := if fill then t.compute else t.fill
      let room := 8 - (s.mxQueue c.g.cl fill).length
      ∃ t ks, exec i s = .next t ∧ t.ms = s.ms ∧ SameRegs s t ∧ queue t = queue s ++ ks ∧ other t = other s
        ∧ ks.map (fun k => (k.key, k.o, k.e, k.cl, k.group)) = (c.todo.take room).map (fun th => (th.key, o, e, c.g.cl, c.g.uid))
        ∧ (room < c.todo.length → ∃ g ∈ t.groups[c.gi]?, ∃ sh ∈ g.sheaves[c.si]?, sh.pc = c.sh.pc ∧ sh.idx = c.sh.idx
            ∧ sh.acted = ((c.todo.take room).map Thread.key).reverse ++ c.sh.acted)
    let inside (scratch : Bool) (need : Need) (len : Nat) : Prop :=
      if scratch then c.mxBase scratch + len ≤ c.g.launch.space
      else s.checkBytes c need (pagesOf (c.mxBase scratch) len) = none
    let clean (name : Opnd) : Prop :=
      s.tileBusy c.g name.index = false ∧ s.tileMark c.g name = none ∧ s.tileHurt c.g name = none
    (s.readyE .azero e = some c → entered (.azero e) .azero false)
    ∧ (s.readyE .wbld e = some c →
        let scratch : Bool := e.lo.toNat / 4 % 2 = 1
        let len := c.g.arg c.first .wbld e 1 2 * panelBytes (e.lo.toNat / 8 = 1) (mxContainer e.ty.toNat c.slotA)
        c.mxBase scratch % 16 = 0 → len ≤ 32768 → inside scratch { r := true } len → entered (.wbld e) .wbld true)
    ∧ (s.readyE .aadd e = some c → clean e.op0 →
        (if e.lo.toNat / 2 = 0 then clean e.op1
          else c.mxBase (e.lo.toNat / 2 = 2) % 16 = 0 ∧ inside (e.lo.toNat / 2 = 2) { r := true } 16384) →
        entered (.aadd e) .aadd false)
    ∧ (s.readyE .adrain e = some c → clean e.op0 → e.lo.toNat / 4 ≠ 2 →
        let scratch : Bool := e.lo.toNat / 2 % 2 = 1
        let m : Nat := if e.ty = 15 then 16 else 4
        let stride := sext 32 (c.g.arg c.first .adrain e 1 2)
        let start (i : Nat) : Nat := wrap (if scratch then 32 else 64) ((c.mxBase scratch : Int) + i * stride)
        c.mxBase scratch % m = 0 → stride % m = 0 →
        (if scratch then ∀ i < 32, c.g.launch.inOneArea (start i) (4 * c.drainBits) = true
          else s.checkBytes c { r := e.lo.toNat / 4 = 1, w := true }
            ((List.range 32).flatMap fun i => [start i, start i + 4 * c.drainBits - 1]) = none) →
        entered (.adrain e) .adrain false)
    ∧ (s.readyE .adrain e = some c → clean e.op0 → e.lo.toNat / 4 = 2 →
        let cs := (List.range 4).map fun i => BitVec.ofNat 32 (c.g.src c.first 4 e.op2 / 2 ^ (32 * i))
        ∀ d, c.drainDesc s = .ok d → s.checkBytes c { w := true } (drainPages d c.g.launch.ks cs) = none →
        entered (.adrain e) .adrain false)
    ∧ (s.readyE .mma e = some c → s.slotBusy c.g e.op2.index = false → s.tileBusy c.g e.op0.index = false →
        s.tileMark c.g e.op0 = none → c.g.slotMark e.op2 = none →
        let ca := mxContainer e.ty.toNat c.slotA
        let cb := mxContainer e.ty.toNat c.slotB
        let k := pairK (Nat.max ca cb)
        let w := c.g.weight e.op2.index
        let r0 := c.g.arg c.first .mma e 1 3 * k
        c.mxBase true % 128 = 0 → c.g.launch.inOneArea (c.mxBase true) (4 * k * ca) = true →
        (w.p = 0 ∨ w.c = cb ∧ r0 + k ≤ w.p * panelRows w.c) → entered (.mma e) .mma false)

/-- R239: AZERO sets every cell of its tile to 0 with no special state, clears the overflow flag and the deferred mark,
and sets the anchor: the explicit form to the signed low ten bits of its operand, the `.auto` form to the sum of the
slots' least exponents for a pair of the exact class, else to −64. The command takes effect when it is the oldest of
its queue and what its thread had under way has ended; memory and registers are as before. -/
def Obligations.AzeroTile : Prop :=
  ∀ (e : Ext) (s : State) (c : Cx) (th : Thread), s.readyE .azero e = some c → c.act = [th] →
    c.sh.acted = [] → (s.mxQueue c.g.cl false).length < 8 →
    let anchor : Int := if e.lo.toNat / 8 = 1 then
        (if exactPair e.ty.toNat c.slotA c.slotB then (Slot.ofWord c.slotA).lsb + (Slot.ofWord c.slotB).lsb else -64)
      else sext 10 (c.g.arg c.first .azero e 1 1)
    ∃ t k, exec (.azero e) s = .next t ∧ t.compute = s.compute ++ [k]
      ∧ ∀ (u : State) (gi : Nat) (g : Group) (rest : List MxCmd), u.mxQueue c.g.cl false = k :: rest →
          u.groupOf c.g.uid = some gi → u.groups[gi]? = some g → e.op0.index < g.tiles.length →
          (u.vf g.vf).traces (some 2) = false → u.MemOk → (∀ i ∈ k.after, i ∉ u.underWay) → k.performed = false →
          ∃ v, exec (.matrixCommandComplete c.g.cl false) u = .next v ∧ (∀ a, v.byte a = u.byte a) ∧ SameRegs u v
            ∧ v.groupAt gi (fun g => g.tile e.op0.index) = some
                { n := List.replicate 1024 0, sp := List.replicate 1024 .none, anchor := anchor, ov := false, mark := none
                  bad := [] }
            ∧ ∀ i, i ≠ e.op0.index → v.groupAt gi (fun g => g.tile i) = some (g.tile i)

/-- R233, R236 to R238, R240, R241: the oldest command of a queue completes with its effect: WBLD loads its slot from the
scratchpad; MMA adds, in every cell, the product of the operands at each element of K in ascending order; AADD of a
tile adds its cells; ADRAIN of raw cells to the scratchpad stores each cell's 16 bytes. Other tiles and slots,
registers and memory are as before. Stated for a VF without a trace, operands and tiles without an uncorrectable
error, and commands that subtract no bytes.

R46 to R49, R240: a value placed into a cell adds its integer at the tile's anchor, rounded to nearest even, modulo
2^128; infinities and NaNs join the cell's special state; zero changes nothing; no other cell changes. Tiles of one
anchor add cell by cell modulo 2^128.

R233, R242, R243: AREAD first takes a place in the compute queue, at which its sheaf waits; once every earlier command
of the queue has completed it completes: each active thread of row L receives its cells, rounded to the type or raw,
or the tile's state word; no other register and no memory changes. Stated for a tile without a mark or an
uncorrectable error and a VF without a trace. -/
def Obligations.MatrixEffects : Prop :=
  (∀ (s : State) (cl : Nat) (fill : Bool) (k : MxCmd) (rest : List MxCmd) (gi : Nat) (g : Group),
       s.mxQueue cl fill = k :: rest → s.groupOf k.group = some gi → s.groups[gi]? = some g →
       (s.vf g.vf).traces (some (if fill then 1 else 2)) = false →
       s.mxFree k = true → k.performed = false → s.MemOk →
       let does (weights : List Weight) (tiles : List Tile) (scratch : Memory) : Prop :=
         ∃ t, exec (.matrixCommandComplete cl fill) s = .next t ∧ (∀ a, t.byte a = s.byte a) ∧ SameRegs s t
           ∧ t.groupAt gi Group.weights = some weights ∧ t.groupAt gi Group.tiles = some tiles
           ∧ t.groupAt gi Group.scratch = some scratch ∧ ∀ x ∈ t.fill ++ t.compute, x.id ≠ k.id
       let d := k.e.op0.index
       let sound (n : Nat) : Prop := (g.engineSp k.base n).2 = none
       let effect (weights : List Weight) (tiles : List Tile) : Prop := does weights tiles g.scratch
       (k.o = .wbld → k.e.lo.toNat / 4 % 2 = 1 → sound k.y → effect
         (modAt g.weights d fun _ =>
           { sp24 := decide (k.e.lo.toNat / 8 = 1), c := mxContainer k.e.ty.toNat (g.launch.ks.getD k.e.sc.toNat 0), p := k.x
             scratch := true, src := k.base, data := g.spBytes k.base k.y, mark := none, bad := false }) g.tiles)
       ∧ (k.o = .mma → k.e.imm.toNat / 128 % 2 = 0 →
         let wa := g.launch.ks.getD k.e.sc.toNat 0
         let wb := g.launch.ks.getD (k.e.lo.toNat % 8) 0
         let ca := mxContainer k.e.ty.toNat wa
         let kk := pairK (Nat.max ca (mxContainer k.e.ty.toNat wb))
         let w := g.weight k.e.op2.index
         let product (i j q : Nat) : FVal := (mxDecode k.e.ty.toNat wa (g.aCode k kk ca i q)).mul
           (if w.p = 0 then .fin false 0 0 else mxDecode k.e.ty.toNat wb (w.code (k.x + q) j))
         let cells : List (Nat × Nat × Nat) := (List.range 32).flatMap fun i => (List.range 32).flatMap fun j =>
           (List.range kk).map fun q => (i, j, q)
         w.bad = false → sound (4 * kk * ca) → effect g.weights (modAt g.tiles d fun _ =>
           cells.foldl (fun t x => t.place (32 * x.1 + x.2.1) (product x.1 x.2.1 x.2.2)) (g.tile d)))
       ∧ (k.o = .aadd → k.e.lo.toNat / 2 = 0 →
         let x := g.tile k.e.op1.index
         (g.tile d).bad = [] → x.bad = [] → effect g.weights (modAt g.tiles d fun t => t.add (x.n.map BitVec.toInt) x.sp x.anchor x.ov))
       ∧ (k.o = .adrain → k.e.ty = 15 → k.e.lo.toNat / 4 = 0 → k.e.lo.toNat / 2 % 2 = 1 → k.e.lo.toNat % 2 = 0 →
         (∀ r ∈ s.fab.reqs, r.copy ≠ k.id) → (g.tile d).bad = [] →
         let at_ (n : Nat) : Nat := wrap 32 ((k.base : Int) + (n / 32 : Nat) * sext 32 k.x + (16 * (n % 32) : Nat))
         does g.weights g.tiles ((List.range 1024).foldl (fun m n =>
           Memory.writeN m (g.spOffset (at_ n)) (natBytes 16 ((g.tile d).raw n))) g.scratch)))
  ∧ (∀ (t : Tile) (i : Nat), i < t.n.length → i < t.sp.length →
       (∀ neg e, t.place i (.fin neg 0 e) = t)
       ∧ (∀ (neg : Bool) (m : Nat) (e : Int), m ≠ 0 → t.anchor ≤ e → m * 2 ^ (e - t.anchor).toNat < 2 ^ 127 →
           let x : Int := m * 2 ^ (e - t.anchor).toNat
           (t.place i (.fin neg m e)).n[i]? = some (t.n.getD i 0 + BitVec.ofInt 128 (if neg then -x else x))
             ∧ (t.place i (.fin neg m e)).ov = t.ov)
       ∧ (∀ x j, j ≠ i → (t.place i x).n[j]? = t.n[j]? ∧ (t.place i x).sp[j]? = t.sp[j]?)
       ∧ (∀ u : Tile, u.anchor = t.anchor → i < u.n.length →
           let x := t.add (u.n.map BitVec.toInt) u.sp u.anchor u.ov
           x.n[i]? = some (t.n.getD i 0 + u.n.getD i 0) ∧ x.ov = (t.ov || u.ov) ∧ x.anchor = t.anchor)
       ∧ (t.place i .nan).sp[i]? = some .nan
       ∧ ∀ neg, (t.place i (.inf neg)).sp[i]? = some (match t.sp.getD i .none, neg with
           | .none, false => .pinf
           | .none, true => .ninf
           | .pinf, false => .pinf
           | .ninf, true => .ninf
           | _, _ => .nan))
  ∧ (∀ (e : Ext) (s : State) (c : Cx), s.readyE .aread e = some c → Op.aread.wellFormed e = true → c.g.Shaped → c.act ≠ [] →
       (c.myAread s = none → s.mxRoom c.g.cl false = true →
         ∃ t k, exec (.aread e) s = .next t ∧ SameRegs s t ∧ t.ms = s.ms ∧ t.compute = s.compute ++ [k]
           ∧ k.o = .aread ∧ k.cl = c.g.cl ∧ k.group = c.g.uid ∧ c.act.head?.map Thread.key = some k.key
           ∧ ∃ g ∈ t.groups[c.gi]?, ∃ sh ∈ g.sheaves[c.si]?, sh.pc = c.sh.pc ∧ sh.idx = c.sh.idx ∧ sh.acted = [k.key])
       ∧ ∀ k, c.myAread s = some k → ((s.mxQueue c.g.cl false).head?).map MxCmd.id = some k.id →
         (c.g.tile e.op1.index).mark = none → (c.g.tile e.op1.index).bad = [] → (s.vf c.g.vf).traces (some 2) = false →
         s.groupOf c.g.uid = some c.gi → s.MemOk →
         ∃ t, exec (.aread e) s = .next t ∧ Wrote t c Cx.areadVal ∧ (∀ a, t.byte a = s.byte a)
           ∧ (∀ gi key r, ¬ Written c Cx.areadVal gi key r → t.reg gi key r = s.reg gi key r)
           ∧ t.compute = s.compute.filter (fun x => x.id != k.id) ∧ t.fill = s.fill.filter fun x => x.id != k.id)

/-! ### Gleaning -/

/-- R248 to R252: GLEAN of one thread outside gleans recruits the first vacant slots, up to its count and 31, if the
cluster's table has room: each helper stands at the body with registers 0, and the grant arrives as a result; without
helpers the glean is solo. The recruiter stands at the body too.

R253, R254: the dispenser gives returned indices first, the lowest first, and then the next fresh one below the count.
NEXTIT of one participant commits its staged values and gives it the next index with P true, or P false; GADD stages a
value under the slot's operation, which the first GADD to it fixes. -/
def Obligations.Recruiting : Prop :=
  (∀ (e : Ext) (s : State) (c : Cx) (th : Thread), s.readyE .glean e = some c → c.g.Shaped → c.act = [th] →
       th.key.gl = 0 → th.part = none → th.solo = none →
       let slots := if 16 ≤ s.gleansOf c.g.cl then [] else (s.eligible c.g).take (Nat.min (c.g.src th 1 e.op1) 31)
       ∃ t, exec (.glean e) s = .next t ∧ t.ms = s.ms ∧ t.spot c.gi th.key = some (.bin s.clock, c.target)
         ∧ t.groupAt c.gi Group.outs = some (c.g.outs ++ resultsOf c 1 [(th, slots.length)])
         ∧ (slots = [] → ∃ gl p, (t.thr c.gi th.key).bind Thread.solo = some (gl, p) ∧ gl.count = c.g.src th 1 e.op2
             ∧ gl.next = 0 ∧ gl.returned = [] ∧ p.cur = none)
         ∧ (slots ≠ [] → (∀ j < slots.length, t.spot c.gi { t := th.key.t, gl := j + 1 } = some (.bin s.clock, c.target)
               ∧ ∀ i < c.g.launch.nv, (t.thr c.gi { t := th.key.t, gl := j + 1 }).map (fun u => u.v.getD i 1) = some 0)
             ∧ ∃ g ∈ t.groups[c.gi]?, ∃ gl ∈ g.gleans, gl.recr = th.key.t ∧ gl.count = c.g.src th 1 e.op2 ∧ gl.next = 0
                 ∧ gl.returned = [] ∧ gl.lent.map Prod.snd = slots))
  ∧ ((∀ gl : Glean, (gl.returned = [] →
         gl.dispense = if gl.next < gl.count then some (gl.next, { gl with next := gl.next + 1 }) else none)
       ∧ (gl.returned ≠ [] → ∃ i gl', gl.dispense = some (i, gl') ∧ i ∈ gl.returned ∧ (∀ j ∈ gl.returned, i ≤ j)
           ∧ gl'.next = gl.next ∧ gl'.returned.length + 1 = gl.returned.length))
     ∧ ∀ (e : Ext) (s : State) (c : Cx) (th : Thread) (gl : Glean) (p : GPart), c.g.Shaped → c.act = [th] →
       c.g.partOf th = some (gl, p) →
       let part (t : State) : Option (Glean × GPart) := (t.groups[c.gi]?).bind fun g => (g.find th.key).bind g.partOf
       (s.readyE .nextit e = some c → Op.nextit.wellFormed e = true → p.release = none →
         (∀ i gl', (commit gl p).1.dispense = some (i, gl') → ∃ t, exec (.nextit e) s = .next t ∧ t.ms = s.ms
           ∧ (Wrote t c fun c _ => c.e.op0.writes 1 i ++ [(.p c.e.op1.index, 1)])
           ∧ part t = some (gl', { (commit gl p).2 with cur := some i, draws := 0 }))
         ∧ ((commit gl p).1.dispense = none → ∃ t, exec (.nextit e) s = .next t ∧ t.ms = s.ms
           ∧ (Wrote t c fun c _ => [(.p c.e.op1.index, 0)]) ∧ part t = some (commit gl p)))
       ∧ ∀ n, s.readyE .gadd e = some c → e.op0.reg? 0 = some (.s n) → n - gl.sr < gl.ops.length →
         n - gl.sr < p.staged.length →
         let i := n - gl.sr
         let o : GOp := ((gl.ops[i]?).join).getD { op := e.rm.toNat, signed := e.ty == 2 }
         ∃ t gl' p', exec (.gadd e) s = .next t ∧ t.ms = s.ms ∧ SameRegs s t ∧ part t = some (gl', p')
           ∧ (gl'.ops[i]?).join = some o ∧ gl'.next = gl.next
           ∧ (p'.staged[i]?).join = some (o.merge (((p.staged[i]?).join).getD o.identity) (BitVec.ofNat 32 (c.g.src th 1 e.op1))))

/-- R255, R260: GLEND of a recruiter whose helpers are gone and whose dispenser is exhausted ends the glean: each slot
with an operation receives the merge of its value at GLEAN with the accumulator, and the thread stands at the next
header, its accesses after what its helpers had under way; with helpers still lent it is held there. GLEND of a helper
releases it.

R257: a helper under release that has issued 4,096 instructions, or none for 4,096 clocks, or over which the deadline
of a halt has come, is abandoned: its index returns to the dispenser and it is gone; every other thread's registers
are as before. -/
def Obligations.GleanEnds : Prop :=
  (∀ (e : Ext) (s : State) (c : Cx) (th : Thread) (gl : Glean) (p : GPart), s.readyE .glend e = some c → c.g.Shaped →
       c.act = [th] → c.g.partOf th = some (gl, p) →
       (th.key.gl = 0 → gl.lent = [] → gl.returned = [] → gl.count ≤ gl.next → gl.sr + gl.r ≤ 512 →
         gl.solo = th.solo.isSome →
         ∃ t, exec (.glend e) s = .next t ∧ t.ms = s.ms ∧ t.spot c.gi th.key = some (.bin s.clock, c.nextPc)
           ∧ (if th.solo.isSome then (t.thr c.gi th.key).map Thread.solo = some none
               else (t.thr c.gi th.key).map Thread.part = some none
                 ∧ t.groupAt c.gi Group.fences = some (c.g.fences ++
                     if gl.owed = [] then [] else [{ key := th.key, classes := 63, ids := gl.owed }]))
           ∧ ∀ i < gl.r, ∀ o, (gl.ops[i]?).join = some o → t.reg c.gi th.key (.s (gl.sr + i)) =
               some (o.merge (gl.atGlean.getD i 0) ((commit gl p).1.acc.getD i 0)))
       ∧ (th.key.gl = 0 → gl.lent ≠ [] → ∃ t, exec (.glend e) s = .next t ∧ t.ms = s.ms ∧ SameRegs s t
           ∧ t.spot c.gi th.key = some (.held .glend c.heldAt s.clock 0, c.nextPc))
       ∧ (th.key.gl ≠ 0 → th.solo = none → ∃ t, exec (.glend e) s = .next t ∧ t.ms = s.ms ∧ t.thr c.gi th.key = none))
  ∧ (∀ (s : State) (gi id part i n last : Nat) (g : Group) (th : Thread) (p : GPart) (gl : Glean), s.groups[gi]? = some g →
       g.Shaped → (g.threads.find? fun t => t.key.gl = part && (t.part.map GPart.glean) = some id) = some th →
       part ≠ 0 → th.part = some p → p.release = some (n, last) → p.cur = some i → g.glean id = some gl →
       4096 ≤ n ∨ last + 4096 ≤ s.clock ∨ s.overdue g th.key = true →
       ∃ t, exec (.helperAbandon gi id part) s = .next t ∧ t.ms = s.ms ∧ t.thr gi th.key = none
         ∧ (∃ g' ∈ t.groups[gi]?, ∃ gl' ∈ g'.gleans, gl'.id = id ∧ i ∈ gl'.returned)
         ∧ ∀ gj k r, ¬ (gj = gi ∧ k = th.key) → t.reg gj k r = s.reg gj k r)

/-! ### Arenas -/

/-- R280, R287 to R289: ARNEW and AALLOC complete for handles of 16 bits: the acting threads act on the table of their VF
in order, and their handles or addresses, 0 for failure, are outstanding results. Memory and registers are as before.

R288, R289: AALLOC gives the arena's BUMP rounded up to its alignment and moves BUMP and CHARGED by the size, or gives
0 and changes nothing where the handle is not LIVE, the size is 0, or the quota ends below it. ARNEW's child lies
inside its parent, and the parent's BUMP passes it. No other entry changes. -/
def Obligations.ArenaAllocation : Prop :=
  (∀ (e : Ext) (s : State) (c : Cx), c.g.vf < s.vfs.length → (∀ th ∈ c.actS, c.g.src th 1 e.op1 < 2 ^ 16) →
       let acts (i : Instr) (n : Nat) (one : VF → Thread → VF × Nat) : Prop :=
         let r := c.actS.foldl (fun x th => ((one x.1 th).1, x.2 ++ [(th, (one x.1 th).2)])) (s.vf c.g.vf, [])
         ∃ t, exec i s = .next t ∧ t.ms = s.ms ∧ SameRegs s t ∧ t.vf c.g.vf = r.1
           ∧ t.groupAt c.gi Group.outs = some (c.g.outs ++ resultsOf c n r.2)
       (s.readyE .arnew e = some c →
         acts (.arnew e) 1 fun v th => v.arnew (c.g.src th 1 e.op1) (c.g.arg th .arnew e 2 2))
       ∧ (s.readyE .aalloc e = some c →
         acts (.aalloc e) 2 fun v th =>
           v.aalloc (c.g.src th 1 e.op1) (c.g.arg th .aalloc e 1 2) (e.lo.toNat + 16 * (e.sc.toNat % 2))))
  ∧ (∀ (v : VF) (h : Nat),
       let i := h % 4096
       let a := v.arena i
       let live : Prop := a.state = 1 ∧ a.gen = h / 4096 % 16
       (∀ n align,
         let b := (a.bump + (2 ^ align - 1)) / 2 ^ align * 2 ^ align
         (¬ live ∨ n = 0 ∨ a.base + a.quota < b + n → v.aalloc h n align = (v, 0))
         ∧ (live → n ≠ 0 → b + n ≤ a.base + a.quota → (v.aalloc h n align).2 = b
           ∧ (v.aalloc h n align).1.arena i = { a with bump := b + n, charged := a.charged + n }
           ∧ ∀ j, j ≠ i → (v.aalloc h n align).1.arena j = v.arena j))
       ∧ ∀ q c, live → a.depth ≠ 8 → q ≠ 0 → v.freeIndex 4095 1 = some c →
         let b := (a.bump + 65535) / 65536 * 65536
         let size := (q + 65535) / 65536 * 65536
         b + size ≤ a.base + a.quota → i ≠ c →
         (v.arnew h q).2 = 4096 * (v.arena c).gen + c
           ∧ ((v.arnew h q).1.arena c).state = 1 ∧ ((v.arnew h q).1.arena c).gen = (v.arena c).gen
           ∧ ((v.arnew h q).1.arena c).parent = i ∧ ((v.arnew h q).1.arena c).depth = a.depth + 1
           ∧ ((v.arnew h q).1.arena c).base = b ∧ ((v.arnew h q).1.arena c).quota = size
           ∧ ((v.arnew h q).1.arena c).bump = b ∧ ((v.arnew h q).1.arena c).charged = 0
           ∧ (v.arnew h q).1.arena i = { a with bump := b + size, charged := a.charged + size }
           ∧ ∀ j, j ≠ i → j ≠ c → (v.arnew h q).1.arena j = v.arena j)

/-- R290: ARQRY completes with the selected field of the entry that the low 12 bits of the handle name: the base, quota,
bump or charge, zero-extended, or the state word with MATCH, PARENT, DEPTH, GEN and STATE at their places and 0 in the
second register; it changes nothing else. -/
def Obligations.ArenaQuery : Prop :=
  ∀ (e : Ext) (s : State) (c : Cx), s.readyE .arqry e = some c → Op.arqry.wellFormed e = true →
    (∀ th ∈ c.actS, c.g.src th 1 e.op1 < 2 ^ 16) →
    let val (th : Thread) : Nat :=
      let h := c.g.src th 1 e.op1
      let a := (s.vf c.g.vf).arena (h % 2 ^ 12)
      match e.lo.toNat % 8 with
      | 0 => (if h / 2 ^ 12 % 16 = a.gen then 2 ^ 31 else 0) + a.parent * 2 ^ 12 + a.depth * 2 ^ 8 + a.gen * 2 ^ 4 + a.state
      | 1 => a.base
      | 2 => a.quota
      | 3 => a.bump
      | _ => a.charged
    ∃ t, exec (.arqry e) s = .next t ∧ t.ms = s.ms ∧ t.vfs = s.vfs ∧ SameRegs s t
      ∧ t.groupAt c.gi Group.outs = some (c.g.outs ++ resultsOf c 2 (c.actS.map fun th => (th, val th)))

/-- R186, R291, R295: ARDROP and ARSEAL of a current handle, of one thread, release at device scope: once its accesses
have all performed the arena and every LIVE descendant, under ARDROP the SEALED ones too, become SWEEPING with the
next generation, or SEALED, and the sheaf is held; until then it stalls. Handle 0 raises PROTECTION and an old one
STALE. Memory is stated as before where nothing that the device writes waits for a pin (log 81).

R291, R295: an ARDROP or ARSEAL whose change has taken effect completes: the sheaf goes on after it, and nothing else
changes.

R282, R291 to R293, R295: at the point of a drop the copies take the next generation and the sweep starts; at the
point of a seal the copies read SEALED; a seal completes with the arenas' pins ended and their partials combined or
pinned, once what that writes to other chips has performed; the end of a sweep frees the entries and gives the range
back to the parent. Changes have their points in the order of the arena unit (R287, R297), and seals complete in it.
That all copies change together is the model's choice (log 11). -/
def Obligations.ArenaChanges : Prop :=
  (∀ (drop : Bool) (e : Ext) (s : State) (c : Cx) (th : Thread),
       let i : Instr := if drop then .ardrop e else .arseal e
       s.readyE (if drop then .ardrop else .arseal) e = some c → c.act = [th] → c.g.vf < s.vfs.length →
       let h := c.g.src th 1 e.op1
       let v := s.vf c.g.vf
       let a := v.arena (h % 4096)
       h < 2 ^ 16 →
       (∀ n, c.sh.hold ≠ .arena n) →
       (h % 4096 = 0 → exec i s = .next (((s.countIssue c).mark c).faulted c [(th.key, { cls := 6 })]))
       ∧ (h % 4096 ≠ 0 → a.state = 0 ∨ a.state = 3 ∨ a.gen ≠ h / 4096 →
           exec i s = .next (((s.countIssue c).mark c).faulted c [(th.key, { cls := 7 })]))
       ∧ ∀ u over_, s.released c = (u, over_) → h % 4096 ≠ 0 → (a.state = 1 ∨ drop = true ∧ a.state = 2) → a.gen = h / 4096 →
         (v.arenas.map Prod.fst).Nodup → (over_ = false → exec i s = .next (u.stalled c)) ∧ (over_ = true →
         ∃ t, exec i s = .next t ∧ SameRegs s t ∧ t.ms = u.ms ∧ (s.MemOk → s.Settled → ∀ a, t.byte a = s.byte a)
           ∧ (∀ j ∈ v.reached drop (h % 4096), (t.vf c.g.vf).arena j =
               if drop then { v.arena j with gen := ((v.arena j).gen + 1) % 16, state := 3 } else { v.arena j with state := 2 })
           ∧ (∀ j, j ∉ v.reached drop (h % 4096) → (t.vf c.g.vf).arena j = v.arena j)
           ∧ (t.vf c.g.vf).changes = v.changes ++
               [{ id := s.uids + 1, drop := drop, idxs := v.reached drop (h % 4096), passed := none }]
           ∧ ∃ g ∈ t.groups[c.gi]?, ∃ sh ∈ g.sheaves, sh.members = c.sh.members ∧ sh.hold = .arena (s.uids + 1)
             ∧ sh.pc = c.sh.pc))
  ∧ (∀ (e : Ext) (s : State) (c : Cx) (n : Nat), c.pres ≠ [] → c.sh.hold = .arena n →
       (∀ x ∈ (s.vf c.g.vf).changes, x.id ≠ n) →
       let goes (i : Instr) : Prop := ∃ t, exec i s = .next t ∧ OnlyWrites s t c (fun _ _ => []) ∧ SameDraws s t ∧ GoesOn s t c
       (s.readyE .ardrop e = some c → goes (.ardrop e)) ∧ (s.readyE .arseal e = some c → goes (.arseal e)))
  ∧ (∀ (s : State) (vf : Nat), vf < s.vfs.length →
       let v := s.vf vf
       let ended (ch : Change) (t : State) : Prop :=
         (∀ p ∈ t.ms.pins, p.vf = vf → p.arena % 4096 ∈ ch.idxs → v.staleAt p.arena = true)
         ∧ ∀ p ∈ t.ms.partials, p.vf = vf → p.arena % 4096 ∈ ch.idxs → v.staleAt p.arena = false →
             ∃ q ∈ t.ms.pins, q.line = p.pa / 128
       (∀ (i : Nat) (ch : Change), v.changes[i]? = some ch → ch.passed = none → ch.idxs.Nodup →
         (∀ x ∈ v.changes.take i, x.passed ≠ none) →
         ∃ t, exec (.arenaChangePoint vf i) s = .next t ∧ SameRegs s t
           ∧ (∀ j ∈ ch.idxs, (t.vf vf).arena j = if ch.drop then
               { v.arena j with cgen := ((v.arena j).cgen + 1) % 16, cstate := 3 } else { v.arena j with cstate := 2 })
           ∧ (ch.drop = true → (∃ h, (t.vf vf).sweeps = v.sweeps ++ [{ idxs := ch.idxs, handle := h, order := s.uids + 1 }])
             ∧ ∀ p ∈ t.ms.pins, p.vf = vf → (t.vf vf).droppedAt ch.idxs p.arena = false)
           ∧ (ch.drop = false → ended ch t))
       ∧ (∀ (i idx : Nat) (ch : Change),
         (v.changes.findIdx? fun x => !x.drop && x.passed.isSome && x.idxs.headD 0 = idx) = some i → v.changes[i]? = some ch →
         s.markersPassed (ch.passed.getD 0) = true →
         (∀ x ∈ v.changes.take i, x.drop = true) →
         ∃ t, exec (.sealPoint vf idx) s = .next t ∧ SameRegs s t ∧ ended ch t
           ∧ ((∀ r ∈ (s.complete vf ch.idxs).fab.reqs, r.tag ≤ s.uids) → (t.vf vf).changes = v.changes.eraseIdx i)
           ∧ ((∃ r ∈ (s.complete vf ch.idxs).fab.reqs, s.uids < r.tag) →
               ∃ n, (t.vf vf).changes = modAt v.changes i fun x => { x with passed := some n }))
       ∧ ∀ (i idx : Nat) (sw : Sweep), (v.sweeps.findIdx? fun x => x.idxs.headD 0 = idx) = some i → v.sweeps[i]? = some sw → s.sweepRuns vf sw = true → s.markersPassed sw.order = true →
         (∀ x ∈ v.sweeps.take i, v.below idx 8 (x.idxs.headD 0) = false) → sw.idxs.Nodup → (v.arena idx).parent ∉ sw.idxs →
         let a := v.arena idx
         ∃ t, exec (.sweepEnd vf idx) s = .next t ∧ SameRegs s t
           ∧ (∀ j ∈ sw.idxs, ((t.vf vf).arena j).state = 0)
           ∧ ((t.vf vf).arena a.parent).charged = (v.arena a.parent).charged - a.quota
           ∧ (t.vf vf).sweeps = v.sweeps.eraseIdx i)

/-! ### Statistics records -/

/-- R301 to R315: the instructions on records complete. STATRD gives the selected field, QSCL the scale exponent, as
results; STATFL leaves no windrow entry of the record unmerged; STATRST writes an empty record with the next epoch;
QNT `.stat` quantises at the record's scale. A pushed windrow entry merges into the record at its home, and an entry
whose timer has expired is pushed. -/
def Obligations.StatisticsRecords : Prop :=
  (∀ (e : Ext) (s : State) (c : Cx) (ts : List Thread) (h : Thread → Nat) (pa arena : Thread → Nat) (fresh : Bool),
    let rec_ (th : Thread) : Nat := s.recordOf c (h th)
    let bytes (th : Thread) : List Byte := Memory.readN s.ms.mem (pa th) 256
    Reach c s ts (fun th => s.checkRecord c (h th)) pa arena →
    (∀ th ∈ ts, pa th % 128 = 0 ∧ c.refused s (pa th + 128) = false ∧ inImport (pa th + 128) = false
      ∧ s.ms.errored.contains (pa th / 128 + 1) = false ∧ s.ms.spoilt.contains (pa th / 128 + 1) = false
      ∧ ∀ p ∈ s.ms.partials, p.pa / 128 ≠ pa th / 128 ∧ p.pa / 128 ≠ pa th / 128 + 1) →
    s.recordWaits c ts = false → (∀ th ∈ ts, s.recordPinned c.g.vf (rec_ th) = false) →
    (fresh = true → ∀ th ∈ ts, ∀ w ∈ s.ms.pushes ++ s.ms.windrows, w.is c.g.vf (rec_ th) = false) →
    let result (i : Instr) (n : Nat) (f : Thread → Nat) : Prop := ∃ t, exec i s = .next t ∧ SameRegs s t
      ∧ (∀ a, t.byte a = s.byte a) ∧ t.groupAt c.gi Group.outs = some (c.g.outs ++ resultsOf c n (ts.map fun th => (th, f th)))
    (s.readyE .statrd e = some c → ts = c.actS → h = c.tensorHandle → fresh = decide (e.sc.toNat % 2 = 1) →
      let bin (th : Thread) : Nat := if e.lo = 7 then c.g.src th 1 e.op2 else 0
      (∀ th ∈ ts, bin th ≤ 52) → ∀ regs off size,
      (regs, off, size) ∈ [(1, 0, 4), (1, 4, 4), (1, 8, 4), (1, 12, 4), (2, 16, 8), (1, 24, 4), (1, 28, 4)][e.lo.toNat]?
        ∨ (e.lo = 7 ∧ (regs, off, size) = (4, 32, 16)) →
      result (.statrd e) regs fun th => leNat (((bytes th).drop (off + 4 * bin th)).take size))
    ∧ (s.readyE .qscl e = some c → ts = c.actS → h = c.tensorHandle → fresh = (e.lo == 4) →
      result (.qscl e) 1 fun th => wrap 32 (deriveExp c.slot (leNat ((bytes th).take 4))))
    ∧ (∀ th, s.readyE .qnt e = some c → Op.qnt.wellFormed e = true → c.g.Shaped → e.src = 3 → c.act.head? = some th →
      ts = [th] → h = (fun _ => c.g.src th 1 e.op2) → fresh = decide (4 ≤ e.lo.toNat) → c.slot.ovft = false →
      ∃ t, exec (.qnt e) s = .next t ∧ (∀ a, t.byte a = s.byte a)
        ∧ Wrote t c fun c u => c.qntWrites (c.quantise u (some (deriveExp c.slot (leNat ((bytes th).take 4))))))
    ∧ (∀ th, s.readyE .statfl e = some c → c.act = [th] → ts = [th] → h = c.tensorHandle →
      ∃ t, exec (.statfl e) s = .next t ∧ SameRegs s t ∧ t.ms.mem = (s.pushAll c.g.vf (rec_ th)).ms.mem
        ∧ ∀ w ∈ t.ms.pushes ++ t.ms.windrows, w.is c.g.vf (rec_ th) = false)
    ∧ ∀ th at_ ar, s.readyE .statrst e = some c → c.act = [th] → ts = [th] → h = c.tensorHandle → s.MemOk →
      s.recordPlace c.g.vf (rec_ th) = some (at_, ar) → at_ = pa th →
      ∃ t, exec (.statrst e) s = .next t ∧ SameRegs s t
        ∧ Memory.readN t.ms.mem at_ 256 =
            Stat.zero.bytes ((leNat (Memory.readN s.ms.mem (at_ + 8) 4) + 1) % 2 ^ 32)
        ∧ ∀ a, a < at_ ∨ at_ + 256 ≤ a → t.byte a = s.byte a)
  ∧ (∀ (s : State) (i : Nat) (w : Windrow), s.ms.windrows[i]? = some w →
      w.first + Config.clocksPerUs * s.chip.push.getD (w.vf / 16) 8 ≤ s.clock →
      ∃ t, exec (.windrowPushTimer i) s = .next t ∧ SameRegs s t ∧ t.ms.mem = s.ms.mem
        ∧ t.ms.windrows = s.ms.windrows.eraseIdx i ∧ t.ms.pushes = s.ms.pushes ++ [w.leave s.clock])
  ∧ ∀ (s : State) (i pa ar : Nat) (w : Windrow), s.ms.pushes[i]? = some w → s.recordPinned w.vf w.recVa = false →
      (s.vf w.vf).staleAt w.arena = false → s.recordPlace w.vf w.recVa = some (pa, ar) → pa % 128 = 0 → s.errs pa = false → s.errs (pa + 128) = false →
      (∀ p ∈ s.ms.partials, p.pa / 128 ≠ pa / 128 ∧ p.pa / 128 ≠ pa / 128 + 1) → s.MemOk → w.stat.bins.length = 56 →
      let old := Stat.ofBytes (Memory.readN s.ms.mem pa 256)
      ∃ t, exec (.windrowMerge i) s = .next t ∧ SameRegs s t ∧ t.ms.pushes = s.ms.pushes.eraseIdx i
        ∧ Memory.readN t.ms.mem pa 256 = (old.merge w.stat).bytes (leNat (Memory.readN s.ms.mem (pa + 8) 4))
        ∧ ∀ a, a < pa ∨ pa + 256 ≤ a → t.byte a = s.byte a

/-! ### Tasks -/

/-- R182, R269, R270, R277 to R279, R398, R400: TASK, TDEP and TSIG complete with their effect on the tasks of the VF,
thread by thread, and their status words as results, once the thread's own accesses have performed and, for TASK, its
queue has room; until then the sheaf stays. UINT posts its notice after the release; MARK puts one record into an
enabled trace and does nothing else.

R268 to R270, R278, R279: what the task operations do: an index that names no task answers status 1, a task in a state
that does not allow the command status 2, and TSIG otherwise lowers PRED by one; a decrement to 0 makes a WAITING task
READY; TDEP on a retired predecessor answers 5, and for a new link raises PRED and writes the first empty successor
entry. -/
def Obligations.TaskInstructions : Prop :=
  ((∀ (e : Ext) (s : State) (c : Cx), c.sh.acted = [] →
       let own (th : Thread) : Bool := (s.fenceIds c.g th.key 9).any s.underWay.contains
       let gives (i : Instr) (u : State) (xs : List (Thread × Nat)) : Prop :=
         ∃ t, exec i s = .next t ∧ t.ms = u.ms ∧ t.tasks = u.tasks ∧ t.vfs = u.vfs
           ∧ t.groupAt c.gi Group.outs = u.groupAt c.gi fun g => g.outs ++ resultsOf c 1 xs
       let acts (i : Instr) (th : Thread) (r : Option (State × Nat)) : Prop :=
         (own th = true ∨ r = none → exec i s = .next (s.stalled c))
         ∧ ∀ u st, own th = false → r = some (u, st) → gives i u [(th, st)]
       (s.readyE .tsig e = some c → (∀ th ∈ c.actS, own th = false) →
         let r := c.actS.foldl (fun x th => ((x.1.tsigOp c.g.vf (c.word1 th 1)).1, x.2 ++ [(th, (x.1.tsigOp c.g.vf (c.word1 th 1)).2)]))
           (s, [])
         gives (.tsig e) r.1 r.2)
       ∧ (∀ th, s.readyE .tdep e = some c → c.actS = [th] →
         acts (.tdep e) th (some (s.tdepOp c.g.vf (c.word1 th 1) (c.word1 th 2) (e.lo.toNat % 2 = 1) (c.word1 th 3))))
       ∧ ∀ th, s.readyE .task e = some c → c.actS = [th] → acts (.task e) th (s.taskOp c.g.vf (c.word1 th 1) (c.word1 th 2)))
     ∧ (∀ (e : Ext) (s u : State) (c : Cx) (th : Thread) (over_ : Bool), s.readyE .uint e = some c → c.act = [th] →
       s.released c = (u, over_) → (over_ = false → exec (.uint e) s = .next (u.stalled c)) ∧ (over_ = true →
       ∃ t, exec (.uint e) s = .next t ∧ SameRegs s t
         ∧ let p := u.post c.g.vf (c.word1 th 1 % 2 ^ 16) (c.g.arg th .uint e 2 2) 1 0 0
             (c.g.cl % 512 + 512 * (th.key.t % 1024))
           t.ms = p.ms ∧ t.msgs = p.msgs))
     ∧ ∀ (e : Ext) (s : State) (c : Cx), s.readyE .mark e = some c → c.pres ≠ [] →
       ((s.vf c.g.vf).traces none = false →
         ∃ t, exec (.mark e) s = .next t ∧ OnlyWrites s t c (fun _ _ => []) ∧ SameDraws s t ∧ GoesOn s t c)
       ∧ ((s.vf c.g.vf).traces none = true → c.act ≠ [] → c.g.vf < s.vfs.length →
           (s.vf c.g.vf).tlost = 0 → (s.vf c.g.vf).tprod - (s.vf c.g.vf).tcons < (s.vf c.g.vf).traceSize →
           ∃ t, exec (.mark e) s = .next t ∧ SameRegs s t ∧ (t.vf c.g.vf).tprod = (s.vf c.g.vf).tprod + 1))
  ∧ (∀ (s : State) (vf p x : Nat),
       let st := s.tcbNat vf x 30 1
       let word (n : Nat) : Nat := n * 2 ^ 28 + x % 2 ^ 24
       ((s.vf vf).validTask x = false → s.tsigOp vf x = (s, word 1) ∧ ∀ q, s.taskOp vf q x = some (s, word 1))
       ∧ ((s.vf vf).validTask x = true → st ≠ 0 → st ≠ 1 → s.tsigOp vf x = (s, word 2))
       ∧ ((s.vf vf).validTask x = true → st = 0 ∨ st = 1 → s.tcbNat vf x 32 4 ≠ 0 → s.tsigOp vf x = (s.decPred vf x, word 0))
       ∧ (s.tcbNat vf x 32 4 = 0 → s.decPred vf x = s.note .decrement)
       ∧ (1 < s.tcbNat vf x 32 4 → s.decPred vf x = s.tcbPut vf x 32 4 (s.tcbNat vf x 32 4 - 1))
       ∧ (∀ q, q < 64 → (s.vf vf).validTask x = true → st ≠ 0 → st ≠ 4 → st ≠ 5 → s.taskOp vf q x = some (s, word 2))
       ∧ (∀ pre n, (s.vf vf).validTask x = true → (s.vf vf).validTask p = true → p ≠ x → st = 0 → s.tcbNat vf p 30 1 = 4 →
           s.tdepOp vf p x pre n = (s, word 5))
       ∧ ∀ a, (s.vf vf).validTask x = true → (s.vf vf).validTask p = true → p ≠ x → st = 0 →
           s.tcbNat vf p 30 1 ≠ 4 → s.tcbNat vf p 30 1 ≠ 5 →
           ((s.succList vf (s.vf vf).poolN p).find? fun a => s.devNat vf a 4 % 2 ^ 24 = 0) = some a →
           s.tdepOp vf p x false 0 = (((s.tcbPut vf x 32 4 (s.tcbNat vf x 32 4 + 1)).devWrite vf a
             (natBytes 4 x ++ natBytes 4 0)).link vf p x, word 0))

/-- R264, R266 to R268: QUEUE_SUBMIT of a FREE, RETIRED or ABORTED task to a queue with room gives it the queue's next
number, and, where no check refuses it, it is among the submitted tasks, with the grid in use and no group placed.
What the device reads for it, the TCB and the launch record, has its partials combined first (R188).

R30, R142, R162, R273: PLACEMENT of the first group of the only candidate starts it on the chosen cluster: its S
registers begin with the arguments, HANDLER is the launch's, every thread stands at the entry with V registers 0, no
predicate and DRAWS 0, no barrier has an arrival, and each scratchpad line has one of the ways 0 to 11. Stated where
room is being made for no group of the task, and its gang, if any, does not resume. -/
def Obligations.SubmissionAndStart : Prop :=
  (∀ (s : State) (vf q : Nat) (data : BitVec 64),
       let i := data.toNat
       let v := s.vf vf
       i < 2 ^ 24 → q < 64 → vf < 128 → vf < s.vfs.length → q < v.seqs.length → v.validTask i = true →
       s.submittable vf i = true → s.queueRoom vf q = true →
       let n := v.seqs.getD q 0 + 1
       let r := s.devRecall vf (v.tcb i) 256
       let r := r.devRecall vf (r.tcbNat vf i 0 8) 8192
       let u := ((r.setVf vf fun v => { v with seqs := v.seqs.set q n }).tcbPut vf i 40 8 (q * 2 ^ 58 + n % 2 ^ 58)).tcbPut
         vf i 212 4 0
       ∃ t, exec (.queueSubmit vf q data) s = .next t ∧ (t.vf vf).seqs.getD q 0 = n
         ∧ (u.refusal vf i (u.readLaunch vf (u.tcbNat vf i 0 8)) = none →
             ∃ k ∈ t.tasks, k.vf = vf ∧ k.idx = i ∧ k.queue = q ∧ k.seq = n ∧ k.placed = [] ∧ k.finished = [] ∧ k.cursor = 0
               ∧ (k.launch.gx, k.launch.gy, k.launch.gz) = u.gridOf vf i (u.readLaunch vf (u.tcbNat vf i 0 8)))
         ∧ ∀ e, u.refusal vf i (u.readLaunch vf (u.tcbNat vf i 0 8)) = some e → t = u.abortNew vf i e)
  ∧ (∀ (s : State) (part gidx cl s0 : Nat) (k : Task), s.candidates part = [k] → k.setFailed = [] → k.promised = [] →
       s.resuming k = false → k.unplaced.find? (fun i => !s.withheld k i) = some gidx → (∀ x ∈ k.saved, x.group.gidx ≠ gidx) →
       s.roomNow part k gidx (s.openClusters part k) = some (cl, s0) → s.waysFree cl s0 k.launch.lines = true →
       ∃ t g, exec (.placement part) s = .next t ∧ t.groups[s.groups.length]? = some g ∧ t.groups.length = s.groups.length + 1
         ∧ g.gidx = gidx ∧ g.cl = cl ∧ g.task = k.uid ∧ g.vf = k.vf ∧ g.handler = k.launch.handler ∧ g.stop = .running
         ∧ g.s = (k.launch.args ++ List.replicate 512 0).take 512 ∧ g.outs = [] ∧ g.sheaves = [] ∧ g.swapped = false
         ∧ g.s0 = s0 ∧ g.ways.length = k.launch.lines ∧ (∀ w ∈ g.ways, w < 12)
         ∧ (∀ b ∈ g.bars, b.arrivals = 0 ∧ b.phase = 0 ∧ b.pending = 0)
         ∧ ∀ i < 32 * k.launch.rows, ∃ th ∈ g.threads, th.key = { t := i, gl := 0 } ∧ th.v = List.replicate k.launch.nv 0
             ∧ th.p = 128 ∧ th.draws = 0 ∧ th.seq = 0
             ∧ if i < k.launch.threads then th.place = .bin s.clock ∧ th.pc = k.launch.entry else th.place = .exited)

/-- R119, R156, R186, R251, R275: the pins of a group whose threads have all exited and whose work is done end, and once
what they wrote home has performed the group is gone, and its task counts it finished; a task whose groups have all
finished retires and is no longer among the submitted ones.

R271, R274: AGING_TICK after a full millisecond raises AGE of the task's IPRIO by one, up to 7; a co-resident set that
has not fully started 1 ms after its first member is marked failed, and its running members are pre-empted, with their
registers as they are where no group gleans. -/
def Obligations.GroupsAndTasksEnd : Prop :=
  ((∀ (s : State) (gi : Nat) (g : Group) (k : Task), s.groups[gi]? = some g → s.groupDone g = true →
       let u := (s.unpin g.uid).dropFills g.uid
       (u.groupDone g = false → exec (.groupExit gi) s = .next u)
       ∧ (u.groupDone g = true → s.taskOf g.task = some k →
         ∃ t, exec (.groupExit gi) s = .next t ∧ t.groups.map Group.uid = (s.groups.eraseIdx gi).map Group.uid
           ∧ (∀ p ∈ t.ms.pins, p.group ≠ g.uid)
           ∧ ∃ k' ∈ t.tasks, k'.uid = k.uid ∧ (g.gidx < k'.cursor ∨ g.gidx ∈ k'.finished) ∧ g.gidx ∉ k'.placed))
     ∧ ∀ (s : State) (uid : Nat) (k : Task), s.taskOf uid = some k → k.cursor = k.count → (∀ g ∈ s.groups, g.task ≠ uid) →
       (∀ x ∈ s.tasks, x.vf = k.vf → x.idx = k.idx → x = k) →
       ∃ t, exec (.taskRetire uid) s = .next t ∧ t.tasks.map Task.uid = (s.tasks.filter fun x => x.uid != uid).map Task.uid
         ∧ SameRegs s t)
  ∧ ((∀ (s : State) (uid : Nat) (k : Task), s.taskOf uid = some k → s.tcbNat k.vf k.idx 30 1 = 2 →
       (s.vf k.vf).running = true → k.agedAt + 2400000 ≤ s.clock →
       let ip := s.tcbNat k.vf k.idx 29 1
       ∃ t, exec (.agingTick uid) s = .next t ∧ SameRegs s t
         ∧ t.ms = (s.tcbPut k.vf k.idx 29 1 (ip % 8 + 8 * Nat.min 7 (ip / 8 % 8 + 1))).ms
         ∧ (t.taskOf uid).map Task.agedAt = some (k.agedAt + 2400000))
     ∧ ∀ (s : State) (uid set c : Nat) (k : Task), s.taskOf uid = some k → k.setStart.lookup set = some c →
       c + 2400000 ≤ s.clock → s.setStarted k set = false →
       ∃ t, exec (.coresidentSetTimeout uid set) s = .next t ∧ ((∀ h ∈ s.groups, h.gleans = []) → SameRegs s t)
         ∧ (∃ k' ∈ t.tasks, k'.uid = uid ∧ set ∈ k'.setFailed ∧ k'.setStart.lookup set = none)
         ∧ ∀ gi g, s.groups[gi]? = some g → g.task = uid →
             g.gidx ∈ s.setMembers k set → ∃ since ns, t.groupAt gi Group.stop = some (.halting since ns))

/-! ### Sheaves and saving -/

/-- R144 to R147, R118, R186: SHEAF_DRAW gives a free context to a sheaf that waits ahead of every bin, or else takes the
threads of the first qualifying bin into a new sheaf at its PC, or resumes the sheaf that has come back; a bin whose
oldest thread was filed 16 clocks ago is aged; YIELD's delay ends after 32 clocks with its threads filed; a pin ends
after 65,536 clocks. Registers and memory are as before, a pin's end stated where nothing that the device writes waits
for one (log 81).

R150: the order in which a slot offers its ready sheaves: one that has not issued for 256 clocks before any that has,
the longest first; then the one whose engine the slot has used least recently; then the one drawn first; then by group
index and lowest TIDX. The sheaf offered first is one than which no other comes before, and each offer is one of a
sheaf of the slot inside a clause that does not wait. -/
def Obligations.SheafEvents : Prop :=
  ((∀ (s : State) (cl slot : Nat), s.contexts cl slot < 32 →
       (∀ since gi k, s.firstAhead cl slot = some (since, gi, k) → exec (.sheafDraw cl slot) s = .next (s.resumeSheaf gi k))
       ∧ ∀ (d : Draw) (g : Group), s.firstAhead cl slot = none → s.contexts cl slot + s.aheads cl slot < 32 →
         firstDraw (s.draws cl slot) = some d → s.groups[d.gi]? = some g → g.Shaped →
         (∀ k, d.back = some k → exec (.sheafDraw cl slot) s = .next (s.resumeSheaf d.gi k))
         ∧ (d.back = none → ∃ t, exec (.sheafDraw cl slot) s = .next t ∧ SameRegs s t ∧ t.ms = s.ms
           ∧ (∃ sh, t.groupAt d.gi Group.sheaves = some (g.sheaves ++ [sh]) ∧ sh.members = g.compose s.clock d.pc
               ∧ sh.pc = d.pc ∧ sh.inClause = false ∧ sh.regions = [] ∧ sh.members.length ≤ 32)
           ∧ ∀ k ∈ g.compose s.clock d.pc, (t.thr d.gi k).map Thread.place = some .sheaf))
     ∧ (∀ (s : State) (gi : Nat) (pc : Addr) (g : Group), s.groups[gi]? = some g → g.delayed pc = false →
       ∃ t aged, exec (.binAgeExpiry gi pc) s = .next t ∧ SameRegs s t ∧ t.ms = s.ms ∧ t.groupAt gi Group.aged = some aged
         ∧ ∀ x ∈ g.binThreads s.clock pc, x.2 + 16 ≤ s.clock → ∃ y ∈ aged, y.1 = pc ∧ x.2 ≤ y.2)
     ∧ (∀ (s : State) (gi : Nat) (pc : Addr) (g : Group), s.groups[gi]? = some g → g.delayed pc = true →
       (∀ th ∈ g.threads, ∀ site since order, th.place = .held .delay site since order → th.pc = pc → since + 32 ≤ s.clock) →
       ∃ t, exec (.yieldDelayExpiry gi pc) s = .next t ∧ SameRegs s t ∧ t.ms = s.ms
         ∧ ∀ th ∈ g.threads, th.yields pc = true → ∃ u ∈ ((t.groups[gi]?).map Group.threads).getD [],
             u.key = th.key ∧ u.place = .bin s.clock ∧ u.pc = pc)
     ∧ ∀ (s : State) (line : Nat), s.MemOk → s.Settled →
         ∃ t, exec (.pinTimeout line) s = .next t ∧ (∀ a, t.byte a = s.byte a)
         ∧ SameRegs s t ∧ t.groups.map Group.uid = s.groups.map Group.uid ∧ ∀ p, p ∈ t.ms.pins ↔ p ∈ s.ms.pins ∧ ¬ (p.line = line ∧ p.taken + 65536 ≤ s.clock))
  ∧ ((∀ a b : Offer, a.before b = true ↔
       let starved (x : Offer) : Prop := 256 ≤ x.idle
       (starved a ∧ ¬ starved b) ∨ (starved a ∧ starved b ∧ b.idle < a.idle)
         ∨ (((starved a ∧ starved b ∧ a.idle = b.idle) ∨ (¬ starved a ∧ ¬ starved b)) ∧
           (a.recent < b.recent ∨ (a.recent = b.recent ∧ (a.drawn < b.drawn ∨ (a.drawn = b.drawn ∧
             (a.gidx < b.gidx ∨ (a.gidx = b.gidx ∧ a.low < b.low))))))))
     ∧ ∀ (s : State) (cl slot : Nat),
       (∀ x xs, s.offers cl slot = x :: xs → ∀ y ∈ xs, y.before x = false)
       ∧ ∀ x, x ∈ s.offers cl slot ↔ ∃ g ∈ s.groups, g.cl = cl ∧ g.slot = slot ∧ ∃ sh ∈ g.sheaves,
           (sh.atRc 9).inClause = true ∧ s.waits g sh = false ∧ x = s.offerOf g sh)

/-- R273, R318 to R326: SAVE_FRAME of a group whose halt is complete and whose work is at rest, also once its pins have
ended, moves it, with its registers, from its cluster to the saved groups of its task; RESULT_DELIVERY writes one
arrived result into a saved group; RESTORE puts the saved group that the distributor chooses on the cluster that it
chooses. Stated for groups without gleans.

R328 to R330, R401: WORLD_SWITCH to the VF that comes next in the record's order stops the running VF of the partition
at the end of its slice and pre-empts its groups, and once none is left the named VF runs; a read of a counter's low
half latches the high half for the hart, and the read of the high half answers it; a debugger's hold keeps a group
from issuing until it ends. -/
def Obligations.SavingAndSwitching : Prop :=
  ((∀ (s : State) (gi : Nat) (g : Group) (k : Task), s.groups[gi]? = some g → s.saveable g = true →
       s.taskOf g.task = some k → (∀ h ∈ s.groups, h.gleans = []) → (∀ th ∈ g.threads, th.key.gl = 0) →
       ((s.unpin g.uid).dropFills g.uid).engineRest g = true →
       ∃ t k' x, exec (.saveFrame gi) s = .next t ∧ t.groups.map Group.uid = (s.groups.eraseIdx gi).map Group.uid
         ∧ (∀ p ∈ t.ms.pins, p.group ≠ g.uid) ∧ t.taskOf g.task = some k' ∧ k'.saved = k.saved ++ [x]
         ∧ x.group.gidx = g.gidx ∧ x.group.s = g.s ∧ x.group.handler = g.handler
         ∧ x.group.threads.map (fun th => (th.key, th.v, th.p, th.draws, th.flags)) =
             g.threads.map fun th => (th.key, th.v, th.p, th.draws, th.flags))
     ∧ (∀ (s : State) (i j : Nat) (k : Task) (x : Saved) (o : Out), s.tasks[i]? = some k → k.saved[j]? = some x →
       x.waits.find? Out.ready = some o →
       ∃ t k' y, exec (.resultDelivery i j) s = .next t ∧ t.tasks[i]? = some k' ∧ k'.saved[j]? = some y
         ∧ y.group.outs = x.group.outs.erase o ∧ (y.complete = true ↔ y.waits = []) ∧ SameRegs s t)
     ∧ ∀ (s : State) (i cl s0 : Nat) (k : Task) (x : Saved), s.tasks[i]? = some k → (s.tasks.map Task.uid).Nodup →
       s.candidates (partOf k.vf) = [k] → k.setFailed = [] → k.promised = [] → s.resuming k = false → x ∈ k.saved → x.group.task = k.uid → x.group.gleans = [] →
       k.unplaced.find? (fun i => !s.withheld k i) = some x.group.gidx → (∀ y ∈ k.saved, y.group.gidx = x.group.gidx → y = x) →
       (∀ h ∈ s.groups, h.uid ≠ x.group.uid) →
       s.roomNow (partOf k.vf) k x.group.gidx (s.openClusters (partOf k.vf) k) = some (cl, s0) →
       s.waysFree cl s0 k.launch.lines = true →
       ∃ t g, exec (.restore i cl) s = .next t ∧ t.groups.length = s.groups.length + 1
         ∧ t.groups[s.groups.length]? = some g ∧ g.gidx = x.group.gidx ∧ g.cl = cl
         ∧ ∃ k' ∈ t.tasks, k'.uid = k.uid ∧ k'.saved.length + 1 = k.saved.length)
  ∧ ((∀ (s : State) (part vf i : Nat), partOf vf = part → vf < 128 → (s.vf vf).running = false →
       ((List.range 128).find? fun i => (partOf i = part && i != vf) && (s.vf i).running) = some i → i < s.vfs.length →
       s.sliceOver i = true → s.nextVf part i = some vf →
       ∃ t, exec (.worldSwitch part vf) s = .next t ∧ ((∀ h ∈ s.groups, h.gleans = []) → SameRegs s t) ∧ (t.vf i).running = false
         ∧ ∀ gi g, s.groups[gi]? = some g → g.vf = i → ∃ since ns, t.groupAt gi Group.stop = some (.halting since ns))
     ∧ (∀ (s : State) (part vf : Nat), partOf vf = part → vf < 128 → vf < s.vfs.length → (s.vf vf).running = false →
       (∀ i < 128, partOf i = part → i ≠ vf → (s.vf i).running = false) → (∀ g ∈ s.groups, partOf g.vf = part → g.vf = vf) →
       (∀ i < 128, partOf i = part → i ≠ vf → (s.vf i).saved = none → s.nextVf part i = some vf) →
       ∃ t, exec (.worldSwitch part vf) s = .next t ∧ SameRegs s t ∧ t.ms = s.ms ∧ (t.vf vf).running = true
         ∧ ∀ cl < s.clusters.length, (s.cluster cl).part = some part →
             (t.cluster cl).cnt = (((s.vf vf).saved.getD []).lookup cl).getD Counters.reset)
     ∧ (∀ (s : State) (hart vf cl i : Nat), vf < s.vfs.length →
       let x := s.counterValue vf cl i
       ∃ t u, exec (.counterLowRead hart vf cl i) s = .next t ∧ t.msgs = s.msgs ++ [.value vf hart (natBytes 4 x)]
         ∧ exec (.counterHighRead hart vf cl i) t = .next u
         ∧ u.msgs = t.msgs ++ [.value vf hart (natBytes 4 (x / 2 ^ 32 % 2 ^ 32))] ∧ u.groups = s.groups ∧ u.ms = s.ms)
     ∧ ∀ (s : State) (gi : Nat) (g : Group), s.groups[gi]? = some g →
       (∃ t, exec (.debuggerHold gi true) s = .next t ∧ t.groupAt gi Group.dbg = some true ∧ SameRegs s t ∧ t.ms = s.ms)
       ∧ (∃ t, exec (.debuggerHold gi false) s = .next t ∧ t.groupAt gi Group.dbg = some false ∧ SameRegs s t ∧ t.ms = s.ms)
       ∧ (g.dbg = true → g.stop = .running → ∃ t, exec (.debugHalt gi) s = .next t ∧ SameRegs s t ∧ t.ms = s.ms
           ∧ t.groupAt gi Group.stop = some (.held s.clock)))

/-! ### Pages -/

/-- R364 to R367, R375: what ends the wait for a page. PAGE_WALK puts a translation into the TLB and lets what waits try
again; a page without a mapping is answered FAIL at once without a pager, or where nothing but copies that do not
retry wait, joins the token that its page has already, or takes a token and one notice of kind 5; a walk that the
partition stage denies gives PROTECTION, and one that meets an uncorrectable error ECC_UNCORRECTED. Registers stay,
and memory but for the notice. Stated for a walk that reads no held line (R186) and none with partials (R188).

R365, R367: the stores of the pager window. PAGER_INVAL drops exactly the TLB entries of the range, once no access of
the VF that has translated is under way, and changes nothing before; PAGER_REPLAY makes everything held under an
outstanding token eligible to try again, and PAGER_REPLAY_FAIL to fail; a token that is not outstanding, or a store of
another shape, changes nothing and is counted.

R360, R361, R365, R367, R405: Furze's answer to a partition-stage miss: a leaf of a size of R361 to frames of the
partition's memory or of an import of the VF takes the place of the leaves that it meets, and a frame that the VF has
not held since its setup reads 0, with every other byte as before; another is refused and counted; or what waits on
the page takes PROTECTION. A range that is mapped is invalidated, with the VF's TLB entries, once no access of the VF
that has translated is under way. -/
def Obligations.Pages : Prop :=
  (∀ (s : State) (i : Nat) (w : Walk), s.ms.walks[i]? = some w → w.token = none → s.hasWalker i = true → s.walkHeld w = false →
         (∀ l ∈ (s.walkTrace w.vf w.va).2, ∀ p ∈ s.ms.partials, p.pa / 128 ≠ l) → (∀ x ∈ s.ms.walks, dieOf x.cl = dieOf w.cl → x.vf = w.vf → x.page = w.page → x.token = none) →
       let holdAt (t : State) (gi si : Nat) : Option SheafHold := (t.groups[gi]?).bind fun g => (g.sheaves[si]?).map Sheaf.hold
       let held (gi si : Nat) : Prop := (∃ va wr fe en, holdAt s gi si = some (.page va w.page wr fe en))
         ∧ ∃ g ∈ s.groups[gi]?, dieOf g.cl = dieOf w.cl ∧ g.vf = w.vf
       let answered (t : State) (h : SheafHold) : Prop := SameRegs s t ∧ t.ms.mem = s.ms.mem
         ∧ (∀ x ∈ t.ms.walks, ¬ (dieOf x.cl = dieOf w.cl ∧ x.vf = w.vf ∧ x.page = w.page)) ∧ ∀ gi si, held gi si → holdAt t gi si = some h
       let wanted : Bool := (s.failOnce w.cl w.vf w.page).pageWanted w.cl w.vf w.page
       (∀ l, s.walk w.vf w.va = .leaf l → ∃ t, exec (.pageWalk i) s = .next t ∧ answered t .free
         ∧ (w.page % 2 ^ (l.shift - 12) ≤ l.pa →
             t.firstTlb w.cl w.vf w.page = some { cl := w.cl, vf := w.vf, page := w.page, pa := l.pa, shift := l.shift
                                                  r := l.r, w := l.w, x := l.x, arena := l.arena }
             ∧ (t.secondTlb w.cl w.vf w.page).map Tlb.leaf = some l)
         ∧ ((s.ms.tlb.filter fun x => x.cl = w.cl).length ≤ 256 → (t.ms.tlb.filter fun x => x.cl = w.cl).length ≤ 256))
       ∧ (s.walk w.vf w.va = .missing → (s.vf w.vf).pager = 0 ∨ wanted = false →
           ∃ t, exec (.pageWalk i) s = .next t ∧ answered t (.failed w.page 5))
       ∧ (s.walk w.vf w.va = .denied → ∃ t, exec (.pageWalk i) s = .next t ∧ answered t (.failed w.page 6))
       ∧ (s.walk w.vf w.va = .hurt → ∃ t, exec (.pageWalk i) s = .next t ∧ answered t (.failed w.page 16))
       ∧ (∀ tok, s.walk w.vf w.va = .missing → (s.vf w.vf).pager ≠ 0 → wanted = true →
           (s.ms.walks.find? fun x => x.vf = w.vf && x.page = w.page && x.token.isSome).bind Walk.token = some tok →
           ∃ t, exec (.pageWalk i) s = .next t ∧ SameRegs s t ∧ t.ms.mem = s.ms.mem ∧ t.msgs = s.msgs
             ∧ t.ms.walks[i]? = some { w with token := some tok } ∧ t.groups = s.groups)
       ∧ (s.walk w.vf w.va = .missing → (s.vf w.vf).pager ≠ 0 → wanted = true → w.vf < s.vfs.length →
           (∀ x ∈ s.ms.walks, x.vf = w.vf → x.page = w.page → x.token = none) →
           let tok := (s.vf w.vf).tokens % (2 ^ 32 - 1) + 1
           let p := s.post w.vf (s.vf w.vf).pager w.va 5
             ((if w.write then 1 else 0) + (if w.fetch then 2 else 0) + if w.engine then 4 else 0) w.cl tok
           ∃ t, exec (.pageWalk i) s = .next t ∧ SameRegs s t ∧ t.ms.mem = p.ms.mem ∧ t.msgs = p.msgs
             ∧ t.ms.walks[i]? = some { w with token := some tok } ∧ (t.vf w.vf).tokens = (s.vf w.vf).tokens + 1
             ∧ ∀ gi si, held gi si → holdAt t gi si = holdAt s gi si))
  ∧ (∀ (s : State) (vf : Nat) (data : BitVec 64),
       let x := data.toNat
       (field x 56 8 = 0 → field x 6 6 = 0 → 12 ≤ field x 0 6 → field x 0 6 ≤ 56 →
         let size := field x 0 6
         let hit (e : Tlb) : Prop := e.vf = vf
           ∧ e.page * 4096 / 2 ^ Nat.max size e.shift = field x 12 44 * 4096 / 2 ^ Nat.max size e.shift
         (s.translated vf = true → exec (.pagerInval vf data) s = .next s)
         ∧ (s.translated vf = false →
           ∃ t, exec (.pagerInval vf data) s = .next t ∧ SameRegs s t ∧ t.ms.mem = s.ms.mem
             ∧ (∀ e, e ∈ t.ms.tlb ↔ e ∈ s.ms.tlb ∧ ¬ hit e) ∧ ∀ e, e ∈ t.ms.tlb2 ↔ e ∈ s.ms.tlb2 ∧ ¬ hit e))
       ∧ (field x 56 8 ≠ 0 ∨ field x 6 6 ≠ 0 ∨ field x 0 6 < 12 ∨ 56 < field x 0 6 →
           exec (.pagerInval vf data) s = .next (s.note .store))
       ∧ (∀ (fail : Bool) (i : Instr), i = (if fail then .pagerReplayFail vf data else .pagerReplay vf data) →
         let tok := x % 2 ^ 32
         let waits (w : Walk) : Prop := w ∈ s.ms.walks ∧ w.vf = vf ∧ w.token = some tok
         (x / 2 ^ 32 = (if fail then 2 ^ 31 else 0) → tok ≠ 0 → (∃ w, waits w) →
           ∃ t, exec i s = .next t ∧ SameRegs s t ∧ t.ms.mem = s.ms.mem
             ∧ (∀ w ∈ t.ms.walks, w ∈ s.ms.walks ∧ ¬ (w.vf = vf ∧ w.token = some tok))
             ∧ ∀ w, waits w → ∀ (gi si : Nat) (g : Group) (sh : Sheaf) va wr fe en, s.groups[gi]? = some g → dieOf g.cl = dieOf w.cl → g.vf = vf →
                 g.sheaves[si]? = some sh → sh.hold = .page va w.page wr fe en →
                 ((t.groups[gi]?).bind fun (g : Group) => (g.sheaves[si]?).map Sheaf.hold) =
                   some (.back s.clock false (if fail then some (w.page, 5) else none)))
         ∧ (x / 2 ^ 32 ≠ (if fail then 2 ^ 31 else 0) ∨ tok = 0 ∨ (∀ w, ¬ waits w) → exec i s = .next (s.note .token))))
  ∧ (∀ (s : State) (vf : Nat) (gpa : BitVec 64),
       let g := gpa.toNat
       (∀ pa shift r w x, let n := 2 ^ (shift - 12)
         let ok : Prop := shift ∈ [12, 21, 30] ∧ pa % n = 0 ∧ s.mayMap vf (pa * 4096) n = true
         let old : Prop := ∃ m ∈ (s.vf vf).pmap, m.meets g shift = true
         let i : Instr := .partitionStageMiss vf gpa (.map pa shift r w x)
         (¬ ok → exec i s = .next (s.note .command))
         ∧ (ok → old → s.translated vf = true → exec i s = .next s)
         ∧ (ok → (old → s.translated vf = false) → vf < s.vfs.length → s.MemOk →
           (∀ p ∈ s.ms.partials, p.pa / 4096 < pa ∨ pa + n ≤ p.pa / 4096) →
           ∃ t, exec i s = .next t ∧ SameRegs s t ∧ t.groups = s.groups
             ∧ (t.vf vf).pmap = { gpa := g / 2 ^ shift * n, pa := pa, shift := shift, r := r, w := w, x := x }
                 :: (s.vf vf).pmap.filter (fun m => !m.meets g shift)
             ∧ (old → ∀ e ∈ t.ms.tlb ++ t.ms.tlb2, e.vf ≠ vf)
             ∧ ∀ a, t.byte a = if pa ≤ a / 4096 ∧ a / 4096 < pa + n ∧ inImport (a / 4096 * 4096) = false
                 ∧ a / 4096 ∉ (s.vf vf).frames then 0 else s.byte a))
       ∧ (∀ size, (s.translated vf = true → exec (.partitionStageMiss vf gpa (.invalidate size)) s = .next s)
           ∧ (s.translated vf = false → vf < s.vfs.length →
             ∃ t, exec (.partitionStageMiss vf gpa (.invalidate size)) s = .next t ∧ SameRegs s t ∧ t.ms.mem = s.ms.mem
               ∧ (t.vf vf).pmap = (s.vf vf).pmap.filter (fun m => !m.meets g size) ∧ ∀ e ∈ t.ms.tlb ++ t.ms.tlb2, e.vf ≠ vf))
       ∧ ∃ t, exec (.partitionStageMiss vf gpa .protection) s = .next t ∧ SameRegs s t ∧ t.ms.mem = s.ms.mem
           ∧ ∀ w ∈ s.ms.walks, ∀ a, w.vf = vf → w.token = none → s.walk vf w.va = .pmiss a → a / 4096 = gpa.toNat / 4096 →
               (∀ x ∈ s.ms.walks, dieOf x.cl = dieOf w.cl → x.vf = vf → x.page = w.page → x.token = none) → ∀ (gi si : Nat) (g : Group) (sh : Sheaf) va wr fe en, s.groups[gi]? = some g → dieOf g.cl = dieOf w.cl → g.vf = vf →
                 g.sheaves[si]? = some sh → sh.hold = .page va w.page wr fe en →
                 ((t.groups[gi]?).bind fun (g : Group) => (g.sheaves[si]?).map Sheaf.hold) = some (.failed w.page 6))

/-! ### The fabric -/

/-- R186, R188, R193, R196, R378, R381, R387: a request that passes the checks of its window reads or changes the
addressed bytes and no others, and is answered: FOLAK_READ and FOLAK_ATOMIC with the bytes as they were, or ERROR
where the line has an uncorrectable error, FOLAK_WRITE by an acknowledgement; FOLAK_REDUCTION leaves a partial at the
home and is acknowledged. Where a pin refuses the line, the request waits to be offered again. Stated for a request
that a received frame has brought and whose turn it is (R382).

R387, R388: a request for no window, for a window that is not open or of another generation, or under another owner is
answered REVOKED; for a right that the window lacks, or beyond its pages, ERROR; nothing else happens. A late write on
the V path is still allowed while the marker of its node is outstanding. A request that no received frame has brought,
or whose turn has not come, does nothing (R382). -/
def Obligations.FabricRequests : Prop :=
  (∀ (f : Flit) (s : State) (vf pa arena : Nat), (∀ p ∈ s.ms.partials, p.pa / 128 ≠ pa / 128) →
       let old := Memory.readN s.ms.mem pa f.width
       let new := natBytes f.width (atomNew f.op.toNat f.ty.toNat (leNat old) (leNat (f.data.take f.width))
         (leNat ((f.data.drop f.width).take f.width)))
       let taken (x : InFlit) : State := { s with fab := { s.fab with inbox := dropFirst s.fab.inbox x } }
       let answered (i : Instr) (x : InFlit) (kind : Nat) (data : List Byte) (m : Memory) (ps : List Partial) : Prop :=
         mayAct s.fab.inbox x = true →
         ∃ t, exec i s = .next t ∧ SameRegs s t ∧ t.fab = ((taken x).respond f kind 0 data).fab ∧ t.ms.mem = m ∧ t.ms.partials = ps
       let waits (i : Instr) (x : InFlit) (l : Nat) : Prop := mayAct s.fab.inbox x = true →
         exec i s = .next { s.pinWait l (flitKey f) with fab := { s.fab with inbox := holdFirst s.fab.inbox x } }
       let part : Partial := { id := s.uids + 1, cl := Config.clusters, pa := pa, op := f.op.toNat, ty := f.ty.toNat, width := f.width
                               val := leNat f.data, vf := vf, arena := arena, bad := false }
       (s.errs pa = false →
         (s.goal f Window.r false = .mem vf pa arena → answered (.folakRead f) (.read f) 5 old s.ms.mem s.ms.partials)
         ∧ (s.goal f Window.w true = .mem vf pa arena →
             answered (.folakWrite f) (.write f) 6 [] (Memory.writeN s.ms.mem pa f.data) s.ms.partials)
         ∧ (s.goal f Window.a true = .mem vf pa arena →
             answered (.folakAtomic f) (.atomic f) 5 old (Memory.writeN s.ms.mem pa new) s.ms.partials))
       ∧ (s.errs pa = true →
           (s.goal f Window.r false = .mem vf pa arena → answered (.folakRead f) (.read f) 8 [] s.ms.mem s.ms.partials)
           ∧ (s.goal f Window.a true = .mem vf pa arena → answered (.folakAtomic f) (.atomic f) 8 [] s.ms.mem s.ms.partials))
       ∧ (s.place f Window.a true = .mem vf pa arena →
           (pa % 128 + f.width ≤ 128 → answered (.folakReduction f) (.reduction f) 6 [] s.ms.mem (s.ms.partials ++ [part]))
           ∧ (128 < pa % 128 + f.width → answered (.folakReduction f) (.reduction f) 8 [] s.ms.mem s.ms.partials))
       ∧ ∀ l, (s.goal f Window.r false = .pinned l → waits (.folakRead f) (.read f) l)
           ∧ (s.goal f Window.w true = .pinned l → waits (.folakWrite f) (.write f) l)
           ∧ (s.goal f Window.a true = .pinned l → waits (.folakAtomic f) (.atomic f) l))
  ∧ (∀ (f : Flit) (s : State) (i : Instr) (x : InFlit) (right : Window → Bool),
       (i, x, right) ∈ [(.folakRead f, .read f, Window.r), (.folakWrite f, .write f, Window.w), (.folakAtomic f, .atomic f, Window.a)
         , (.folakReduction f, .reduction f, Window.a)] →
       (mayAct s.fab.inbox x = false → exec i s = .next s)
       ∧ (mayAct s.fab.inbox x = true →
       let taken : State := { s with fab := { s.fab with inbox := dropFirst s.fab.inbox x } }
       let refused (kind : Nat) : Prop := ∃ t, exec i s = .next t ∧ t.ms = s.ms ∧ t.groups = s.groups
         ∧ t.fab = (taken.respond f kind 0 []).fab
       (s.fab.windows[f.win]? = none → refused 7)
       ∧ ∀ w, s.fab.windows[f.win]? = some w →
           let live : Prop := (w.state = 1 ∧ w.gen = f.gen)
             ∨ (w.state = 2 ∧ (w.gen + 255) % 256 = f.gen ∧ f.path / 2 % 2 = 1 ∧ f.node ∈ w.markers)
           (¬ live ∨ w.owner ≠ f.owner → refused 7)
           ∧ (live → w.owner = f.owner → right w = false ∨ w.pages * 4096 < f.off + f.width → refused 8)))

/-- R25, R219, R237, R378, R381, R388: what a response does for the request with its tag, which then is no longer
outstanding. For a thread data gives its result, and REVOKED or ERROR its result with an ECC mark; for a copy or a
matrix command data is the line it waits for, and REVOKED or ERROR its failure; a refused write of a copy ends its
parts with status 2 or 4, one that met an old generation or a seal with 1 or 5, and what it names does not count as
written; an acknowledgement lets it go on; for a cluster data is the line of another chip; a core takes its value or
its exception. A tag that is not outstanding is counted and changes nothing more. Registers stay, and every byte of
memory. Stated for a response that a received frame has brought and whose turn it is (R382); the loss of an aperture
copy's token is counted (R229). -/
def Obligations.FabricResponses : Prop :=
  ∀ (f : Flit) (s : State),
    let taken (x : InFlit) : State := { s with fab := { s.fab with inbox := dropFirst s.fab.inbox x } }
    let flit : Instr → InFlit
      | .folakDataResponse _ => .data f
      | .folakAcknowledgement _ => .ack f
      | .folakRevoked _ => .revoked f
      | _ => .error f
    (s.reqOf f = none → ∀ i ∈ [Instr.folakDataResponse f, .folakAcknowledgement f, .folakRevoked f, .folakError f],
      mayAct s.fab.inbox (flit i) = true → exec i s = .next ((taken (flit i)).note .frame))
    ∧ ∀ r, s.reqOf f = some r → (∀ x ∈ s.fab.reqs, x.tag ≤ s.uids) →
      let ended (i : Instr) (p : State → Prop) : Prop := mayAct s.fab.inbox (flit i) = true →
        ∃ t, exec i s = .next t ∧ SameRegs s t
        ∧ (s.MemOk → s.Settled → ∀ a, t.byte a = s.byte a) ∧ (∀ x ∈ t.fab.reqs, x.tag ≠ r.tag)
        ∧ (∀ x ∈ s.fab.reqs, x.tag ≠ r.tag → ∃ y ∈ t.fab.reqs, y.tag = x.tag) ∧ p t
      let given (t : State) (k : Copy) (b : List Byte) : Prop := { k with far := k.far ++ [(r.pa / 128, b)] } ∈ t.copies
      let line (t : State) (k : MxCmd) (b : List Byte) (cls : Nat) : Prop :=
        { k with far := k.far ++ [(r.pa / 128, b, cls)] } ∈ t.fill ++ t.compute
      (f.op = 0 → ended (.folakAcknowledgement f) fun t => t.copies = s.copies)
      ∧ (r.copy = 0 → r.cls ≠ 64 → r.core = none → r.out ≠ 0 → f.op ≠ 1 → ended (.folakDataResponse f) fun t => ∀ gi g, s.groups[gi]? = some g →
          t.groupAt gi Group.outs = some (g.outs.map (Out.arrive r.out (leNat f.data))))
      ∧ (r.copy ≠ 0 → s.isMx r.copy = false → f.op ≠ 1 →
          ended (.folakDataResponse f) fun t => ∀ k ∈ s.copies, k.id = r.copy → given t k f.data)
      ∧ (r.copy ≠ 0 → s.isMx r.copy = true → f.op ≠ 1 →
          ended (.folakDataResponse f) fun t => ∀ k ∈ s.fill ++ s.compute, k.id = r.copy → line t k f.data 0)
      ∧ (r.copy = 0 → r.cls = 64 → f.op ≠ 1 → ended (.folakDataResponse f) fun t => ∀ gi g, s.groupOf r.group = some gi →
          s.groups[gi]? = some g → (s.vf g.vf).staleAt r.arena = false → s.farFill g.cl g.uid (r.pa / 128) r.key = none →
          (∀ p ∈ s.ms.pins, p.line ≠ r.pa / 128) →
          ∃ x ∈ t.ms.far, x.cl = g.cl ∧ x.group = g.uid ∧ x.key = r.key ∧ x.line = r.pa / 128 ∧ x.data = f.data)
      ∧ (∀ vf core, r.copy = 0 → r.cls ≠ 64 → r.core = some (vf, core) →
          (f.op ≠ 1 → ended (.folakDataResponse f) fun t => t.msgs = s.msgs ++ [.value vf core f.data])
          ∧ ∀ i ∈ [Instr.folakRevoked f, .folakError f], r.cls ≠ 256 → ended i fun t =>
              t.msgs = s.msgs ++ [.accessFault vf core (BitVec.ofNat 64 r.pa) false])
      ∧ (∀ i ∈ [Instr.folakRevoked f, .folakError f], r.copy = 0 → r.cls ≠ 64 → r.cls ≠ 256 → r.core = none → r.out ≠ 0 →
          ended i fun t => ∀ (gi : Nat) (g : Group) (j : Nat) (o : Out), s.groups[gi]? = some g → g.outs[j]? = some o →
            o.tag = r.out → o.ready = false →
            ∃ o' : Out, (t.groupAt gi Group.outs).bind (fun os => os[j]?) = some o' ∧ o'.ready = true ∧ o'.key = o.key
              ∧ o'.flag = o.flag ∧ ∀ x ∈ o'.regs, x.2.2 = some .ecc)
      ∧ (∀ i status, (i, status) = (Instr.folakRevoked f, 2) ∨ (i, status) = (Instr.folakError f, 4) → r.copy ≠ 0 → r.cls ≠ 256 → r.out = 1 →
          (s.isMx r.copy = false → ended i fun t => ∀ k ∈ s.copies, k.id = r.copy → given t k [BitVec.ofNat 8 status])
          ∧ (s.isMx r.copy = true → ended i fun t => ∀ k ∈ s.fill ++ s.compute, k.id = r.copy → line t k [] 16))
      ∧ (∀ i ∈ [Instr.folakRevoked f, .folakError f], r.cls = 256 → ended i fun t => s.Settled → t.tally = (s.note .status).tally)
      ∧ (r.cls = 256 → f.op = 1 ∨ f.op = 2 → ended (.folakAcknowledgement f) fun t => s.Settled → t.tally = (s.note .status).tally)
      ∧ ∀ i status, (i, status) = (Instr.folakRevoked f, 2) ∨ (i, status) = (Instr.folakError f, 4)
            ∨ ((i, status) = (Instr.folakAcknowledgement f, 1) ∧ f.op = 1) ∨ ((i, status) = (Instr.folakAcknowledgement f, 5) ∧ f.op = 2) →
          r.copy ≠ 0 → r.cls ≠ 256 → r.out ≠ 1 → s.isMx r.copy = false →
          ended i fun t => ∀ k ∈ s.copies, k.id = r.copy → ∃ k' ∈ t.copies, k'.id = k.id
            ∧ ∀ (j : Nat) (p : CPart), k.parts[j]? = some p → p.status = none ∨ p.status = some 0 → p.ended = false →
                r.out - 2 < p.unit → (k'.parts[j]?).map (fun q => (q.status, q.unit)) = some (some status, r.out - 2)

/-- R379 to R385: the link layer. A frame of 1 to 8 flits of a live secure channel with a new packet number is received,
and its LACK frees what it acknowledges; where it is the next in order its flits are delivered, under its owner;
another frame is dropped and counted by owner. Frames unacknowledged for 2 µs are sent again under fresh packet
numbers, and after 16 sendings the link goes DOWN; a trained port comes up again; a SAK is installed for a listed
owner.

R369, R378, R382, R388: 1 ms after a node's last route went, its imports count as revoked, none of its requests is
outstanding, and no revoking window waits for its marker. A write-back of a held line may ask it anew, with a tag of
its own. -/
def Obligations.LinkLayer : Prop :=
  (∀ (s : State) (port : Nat) (p : Port), s.fab.ports[port]? = some p →
       let after (i : Instr) (q : Port → Prop) : Prop := ∃ t x, exec i s = .next t ∧ SameRegs s t ∧ t.ms = s.ms
         ∧ t.fab.ports[port]? = some x ∧ q x
       let due (y : SentFrame) : Prop := y.last + 4800 ≤ s.clock
       (∀ f : Frame, f.port = port → Frame.owner f = none → exec (.folakFrame f) s = .next (s.dropFrame 256))
       ∧ (∀ (f : Frame) (o : Nat), f.port = port → Frame.owner f = some o →
         let top := (p.rpn.lookup o).getD 0
         let good : Prop := p.carries o = true ∧ f.secured = true ∧ top < f.pn ∧ 1 ≤ Frame.cells f ∧ Frame.cells f ≤ 8
         (good → ∃ t x, exec (.folakFrame f) s = .next t ∧ SameRegs s t ∧ t.ms = s.ms ∧ t.fab.ports[port]? = some x
             ∧ x.rpn.lookup o = some f.pn ∧ x.lack = (if f.lseq = (p.lack + 1) % 4096 then f.lseq else p.lack)
             ∧ (∀ y, y ∈ x.unacked ↔ y ∈ p.unacked ∧ 2048 ≤ (f.lack + 4096 - y.lseq) % 4096)
             ∧ t.fab.inbox = s.fab.inbox ++ (if f.lseq = (p.lack + 1) % 4096 then
                 f.flits.map fun z => { port := port, waits := false, flit := flitUnder o z } else []))
         ∧ (¬ good → exec (.folakFrame f) s = .next (s.dropFrame o)))
       ∧ (p.up = true → (∃ y ∈ p.unacked, due y) → (∀ y ∈ p.unacked, due y → y.sends < 16
             ∧ ∃ k ∈ p.saks, k.1 = y.owner ∧ p.pn + p.unacked.length + 1 < k.2.2 + 2 ^ 62) → after (.linkRetransmit port) fun x =>
           x.up = true ∧ x.pn = p.pn + (p.unacked.filter fun y => y.last + 4800 ≤ s.clock).length
             ∧ x.unacked.map (fun y => (y.lseq, y.owner, y.flits)) = p.unacked.map (fun y => (y.lseq, y.owner, y.flits))
             ∧ ∀ (j : Nat) (y z : SentFrame), p.unacked[j]? = some y → x.unacked[j]? = some z →
                 (due y → z.sends = y.sends + 1 ∧ z.last = s.clock ∧ p.pn < z.pn) ∧ (¬ due y → z = y))
       ∧ (p.up = true → (∃ y ∈ p.unacked, y.last + 4800 ≤ s.clock ∧ 16 ≤ y.sends) → after (.linkRetransmit port) fun x =>
           x.up = false ∧ x.unacked = [])
       ∧ (p.trained = true → p.up = false → after (.linkUp port) fun x => x.up = true ∧ x.saks = p.saks)
       ∧ ∀ owner sak r, s.chip.applied = some r → (port, owner) ∈ r.owners → p.trained = true →
           after (.mkaSakInstall port owner sak) fun x => x.saks.lookup owner = some (sak, p.pn) ∧ x.rpn.lookup owner = none ∧ x.up = p.up)
  ∧ (∀ (s : State) (node c : Nat), s.fab.lostSince.lookup node = some c → c + 2400000 ≤ s.clock → (∀ x ∈ s.fab.reqs, x.tag ≤ s.uids) →
       ∃ t, exec (.nodeLoss node) s = .next t ∧ SameRegs s t ∧ node ∈ t.fab.lost
         ∧ (∀ r ∈ t.fab.reqs, r.node = node → s.uids < r.tag)
         ∧ (s.ms.far = [] → t.fab.lostSince.lookup node = none ∧ ∀ r ∈ t.fab.reqs, r.node ≠ node)
         ∧ (∀ (j : Nat) (x : Import), s.fab.imports[j]? = some x → x.used = true → x.node = node →
             t.fab.imports[j]? = some { x with revoked := true })
         ∧ ∀ w < 256, ∀ x, t.fab.windows[w]? = some x → x.state = 2 → node ∉ x.markers)

/-- R386 to R388: windows and imports. A FREE window opens with the fields asked for, under the owner of its VF; a
confirmed import is installed; a revoke raises the generation and waits for each importer's marker; the marker of the
last importer frees the window; a revoke flit marks the import revoked. Flits are those that received frames have
brought, under their owners (R382, R385). -/
def Obligations.Windows : Prop :=
  (∀ (s : State) (w : Nat) (r : WindowReq) (x : Window), s.fab.windows[w]? = some x →
    (w < 256 → r.vf < 128 → r.owner < 256 → r.owner = (s.vf r.vf).owner → 1 ≤ r.pages → r.pages < 2 ^ 24 → r.base < 2 ^ 56 → x.state = 0 →
      (r.banks = true ∧ r.w = true ∧ r.r = false ∧ r.a = false) ∨ (r.banks = false ∧ r.base % 4096 = 0) →
      ∃ t, exec (.windowExport w r) s = .next t ∧ SameRegs s t ∧ t.ms = s.ms
        ∧ t.fab.windows[w]? = some { x with
            base := r.base, pages := r.pages, owner := r.owner, vf := r.vf, a := r.a, w := r.w, r := r.r, kind := r.banks
            state := 1, importers := r.importers, markers := [] })
    ∧ (x.state ≠ 0 → exec (.windowExport w r) s = .next (s.note .command))
    ∧ (x.state = 1 → (∃ n ∈ x.importers, n ∉ s.fab.lost) → ∃ t, exec (.windowRevoke w) s = .next t ∧ SameRegs s t ∧ t.ms = s.ms
        ∧ t.fab.windows[w]? = some { x with state := 2, gen := (x.gen + 1) % 256, markers := x.importers.filter fun n => n ∉ s.fab.lost })
    ∧ (x.state ≠ 1 → exec (.windowRevoke w) s = .next (s.note .command))
    ∧ (r.owner ≠ (s.vf r.vf).owner → exec (.windowExport w r) s = .next (s.note .command))
    ∧ ∀ node o, (∀ d ∈ s.fab.inbox, ∀ o', d.flit = .drain o' node w → o' = o) → mayAct s.fab.inbox (.drain o node w) = true →
      (o = x.owner → x.state = 2 → (∃ n ∈ x.markers, n ≠ node) → ∃ t, exec (.drainMarker w node) s = .next t ∧ SameRegs s t
        ∧ t.ms = s.ms ∧ t.fab.windows[w]? = some { x with markers := x.markers.filter fun n => n ≠ node })
      ∧ (o = x.owner → x.state = 2 → (∀ n ∈ x.markers, n = node) → ∃ t, exec (.drainMarker w node) s = .next t ∧ SameRegs s t
        ∧ ∃ y, t.fab.windows[w]? = some y ∧ y.state = 0 ∧ y.gen = x.gen)
      ∧ (o ≠ x.owner → ∃ t, exec (.drainMarker w node) s = .next t ∧ SameRegs s t ∧ t.ms = s.ms ∧ t.fab.windows = s.fab.windows
        ∧ t.tally = (s.note .frame).tally))
  ∧ (∀ (s : State) (j : Nat) (r : ImportReq) (x : Import), s.fab.imports[j]? = some x → r.confirmed = true →
      x.used = false ∨ x.revoked = true →
      ∃ t, exec (.windowImport j r) s = .next t ∧ SameRegs s t ∧ t.ms.mem = s.ms.mem
        ∧ (∀ y ∈ t.ms.far, y ∈ s.ms.far ∧ inImportOf j (y.line / 32) = false)
        ∧ (∀ e ∈ t.ms.tlb ++ t.ms.tlb2, inImportOf j e.pa = false) ∧ (∀ v ∈ t.vfs, ∀ m ∈ v.pmap, inImportOf j m.pa = false)
        ∧ t.fab.imports[j]? = some { used := true, vf := r.vf, node := r.node, win := r.win, gen := r.gen, pages := r.pages
                                     r := r.r, w := r.w, a := r.a, revoked := false })
  ∧ ∀ (s : State) (j node w o : Nat) (x : Import), s.fab.imports[j]? = some x → x.used = true → x.node = node → x.win = w →
      x.revoked = false → (s.vf x.vf).owner = o → (∀ d ∈ s.fab.inbox, ∀ o', d.flit = .revoke o' node w → o' = o) →
      mayAct s.fab.inbox (.revoke o node w) = true → ∃ t, exec (.revokeFlit node w) s = .next t ∧ SameRegs s t ∧ t.ms = s.ms
        ∧ t.fab.imports[j]? = some { x with revoked := true }

/-- R4, R134, R186, R292, R296, R366, R375, R376, R388, R391, R409: TREG registers or removes a target; an application
core's load or fetch answers the bytes at its translated address and its store writes them and no others; a page
without a mapping, a partition-stage miss, a denied access, an old arena generation, a SEALED arena, a revoked import
and an uncorrectable error each end it as stated, and a line that a pin refuses makes it wait. A register page answers
its words and takes 64-bit stores; a page that is not mapped for the core meets the partition stage. -/
def Obligations.CoresAndTargets : Prop :=
  (∀ (s : State) (vf : Nat) (data : BitVec 64),
    let x := data.toNat
    let tgt := field x 32 16
    let logn := field x 0 4
    (tgt ≠ 0 → field x 4 28 = 0 → vf < s.vfs.length → 4 ≤ logn → (s.vf vf).ring.toNat % 64 = 0 →
      ∃ t, exec (.treg vf data) s = .next t ∧ SameRegs s t ∧ t.ms = s.ms
        ∧ ∀ y, y ∈ (t.vf vf).targets ↔ (y ∈ (s.vf vf).targets ∧ y.tgt ≠ tgt)
            ∨ y = { tgt := tgt, hart := field x 48 16, ring := (s.vf vf).ring.toNat, logn := logn, pend := false })
    ∧ (tgt ≠ 0 → field x 4 28 = 0 → vf < s.vfs.length → logn = 0 →
        ∃ t, exec (.treg vf data) s = .next t ∧ SameRegs s t ∧ t.ms = s.ms
          ∧ ∀ y, y ∈ (t.vf vf).targets ↔ y ∈ (s.vf vf).targets ∧ y.tgt ≠ tgt)
    ∧ (tgt = 0 ∨ field x 4 28 ≠ 0 ∨ (logn ≠ 0 ∧ (logn < 4 ∨ (s.vf vf).ring.toNat % 64 ≠ 0)) →
        exec (.treg vf data) s = .next (s.note .store)))
  ∧ ∀ (s : State) (a : CoreAccess),
      let tells (m : CoreMsg) : Prop := exec (.applicationCoreAccess a) s = .next { s with msgs := s.msgs ++ [m] }
      let tr := s.xlateNow a.vf a.va.toNat (CoreAccess.need a)
      let off := a.va.toNat
      let word : BitVec 64 := BitVec.ofNat 64 (leNat (a.data.take 8))
      (s.pageIn a.vf a.core a.page = false → tells (.guestPageFault a.vf a.core a.va))
      ∧ (s.pageIn a.vf a.core a.page = true → a.page = .memory →
          (tr = .missing → tells (if a.fetch then .fetchPageFault a.vf a.core a.va else .pageFault a.vf a.core a.va a.store))
          ∧ (∀ g, tr = .pmiss g → tells (.guestPageFault a.vf a.core a.va))
          ∧ (tr = .denied → tells (CoreAccess.fault a))
          ∧ ∀ pa arena, tr = .ok pa arena →
              ((s.vf a.vf).staleAt arena = true →
                if a.store then exec (.applicationCoreAccess a) s = .next (s.note .store)
                else tells (CoreAccess.fault a))
              ∧ ((s.vf a.vf).staleAt arena = false → inImport pa = true → (a.store = true → (s.vf a.vf).sealedAt arena = false) →
                  ((s.importOf pa).revoked = true → tells (CoreAccess.fault a))
                  ∧ ((s.importOf pa).revoked = false → a.store = true →
                      exec (.applicationCoreAccess a) s = .next (s.ask a.vf 2 2 pa 0 a.width (a.data.take a.width) {}))
                  ∧ ((s.importOf pa).revoked = false → a.store = false → ∃ t, exec (.applicationCoreAccess a) s = .next t
                      ∧ SameRegs s t ∧ t.ms = s.ms ∧ ∃ r ∈ t.fab.reqs, r.core = some (a.vf, a.core) ∧ r.pa = pa))
              ∧ ((s.vf a.vf).staleAt arena = false → a.store = true → (s.vf a.vf).sealedAt arena = true →
                  tells (CoreAccess.fault a))
              ∧ ((s.vf a.vf).staleAt arena = false → inImport pa = false →
                  (a.store = true → (s.vf a.vf).sealedAt arena = false) →
                  (s.ms.refuses none (pa / 128) = true → exec (.applicationCoreAccess a) s =
                    .next (s.pinWait (pa / 128) { t := a.core, gl := 2 ^ 64 + a.vf }))
                  ∧ (s.ms.refuses none (pa / 128) = false → (∀ p ∈ s.ms.partials, p.pa / 128 ≠ pa / 128) →
                      let done (m : Memory) (q : State → Prop) : Prop := ∃ t, exec (.applicationCoreAccess a) s = .next t
                        ∧ SameRegs s t ∧ t.ms.mem = m ∧ t.ms.partials = s.ms.partials ∧ t.ms.errored = s.ms.errored ∧ q t
                      (a.store = false → s.errs pa = false → done s.ms.mem fun t =>
                          t.msgs = s.msgs ++ [.value a.vf a.core (Memory.readN s.ms.mem pa a.width)])
                      ∧ (a.store = false → s.errs pa = true → done s.ms.mem fun t =>
                          t.msgs = s.msgs ++ [CoreAccess.fault a])
                      ∧ (a.store = true → (s.errs pa = true → ∀ x ∈ s.hier.slices, x.line = pa / 128 → x.kind ≠ .dirty) →
                          done (Memory.writeN s.ms.mem pa (a.data.take a.width)) fun t => t.msgs = s.msgs)
                      ∧ (a.store = true → s.errs pa = true → (∃ x ∈ s.hier.slices, x.line = pa / 128 ∧ x.kind = .dirty) →
                          done s.ms.mem fun t => t.tally = (s.note .store).tally))))
      ∧ (s.pageIn a.vf a.core a.page = true → a.page = .capability →
          (a.store = true → exec (.applicationCoreAccess a) s = .next s)
          ∧ (a.store = false → a.width = 8 → off % 8 = 0 → off + 8 ≤ 4096 →
              ∃ t, exec (.applicationCoreAccess a) s = .next t ∧ SameRegs s t ∧ t.ms = s.ms
                ∧ t.msgs = s.msgs ++ [.value a.vf a.core (((s.capabilityPage a.vf).drop off).take 8)]))
      ∧ (s.pageIn a.vf a.core a.page = true → a.store = true → a.width = 8 →
          (a.page = .control → off = 0x18 → exec (.applicationCoreAccess a) s = exec (.treg a.vf word) s)
          ∧ (a.page = .lammas → 0x40 ≤ off → off < 0x80 → exec (.applicationCoreAccess a) s =
              .next (s.gangBytes a.vf (off - 0x40) (natBytes 8 word.toNat)))
          ∧ (a.page = .pager → off = 8 → exec (.applicationCoreAccess a) s = exec (.pagerInval a.vf word) s)
          ∧ (∀ q, a.page = .queue q → off = 0 → exec (.applicationCoreAccess a) s = exec (.queueSubmit a.vf q word) s)
          ∧ (∀ die chan, a.page = .channel die chan → off = 0 →
              exec (.applicationCoreAccess a) s = exec (.copyApertureStart die chan word) s))
      ∧ (s.pageIn a.vf a.core a.page = true → a.store = true → a.width ≠ 8 ∨ off % 8 ≠ 0 →
          a.page ≠ .memory → a.page ≠ .capability → a.page ≠ .lammas →
          exec (.applicationCoreAccess a) s = .next (s.note .store))
      ∧ (s.pageIn a.vf a.core a.page = true → a.store = false → a.width = 8 → a.page = .control → off = 0 →
          ∃ t, exec (.applicationCoreAccess a) s = .next t ∧ SameRegs s t ∧ t.ms = s.ms
            ∧ t.msgs = s.msgs ++ [.value a.vf a.core
                (natBytes 8 ((s.vf a.vf).groot % 2 ^ 40 * 4096 + if (s.vf a.vf).gen then 1 else 0))])

/-! ### Gangs -/

/-- R335 to R338: each gang command completes. GANG_REGISTER fills a FREE entry; GANG_STOP and GANG_RESUME on the
coordinator, in the state and with the lead that R337 asks for in every mode, order every other member and take
effect; GANG_ABORT on the coordinator aborts the gang; GANG_UNREGISTER frees an ARMED or an ABORTED entry. Each other
command, and each of a gang without an entry, posts REJECTED; for one without an entry the target is the command's
(log 123). -/
def Obligations.GangCommands : Prop :=
  (∀ (s : State) (vf e : Nat) (c : GangCmd), s.gangIndex vf c.gang = none →
    (s.vf vf).gangs.findIdx? (fun g => g.state = 0) = some e → 1 ≤ c.gmemb → c.gmemb ≤ 4096 → vf < s.vfs.length →
    ∃ t, exec (.gangRegister vf c) s = .next t ∧ SameRegs s t ∧ t.ms = s.ms
      ∧ let g := t.gang vf e
        g.state = 1 ∧ g.gang = c.gang ∧ g.gmemb = c.gmemb ∧ g.target = c.target ∧ g.member = c.member ∧ g.coord = c.coord
          ∧ g.policy = c.policy ∧ g.task = 0 ∧ g.mode = s.lam.loss
          ∧ g.members = (List.range c.gmemb).map fun i => s.devNat vf (c.list + 8 * i) 8)
  ∧ (∀ (s : State) (vf e : Nat) (c : GangCmd), s.gangIndex vf c.gang = some e →
    let g := s.gang vf e
    let guard := if c.guard = 0 then 30 else c.guard
    g.coord = true → g.state = 2 → 10 ≤ guard → guard ≤ 10000 → s.ns + 20000 ≤ c.time →
    ∃ t, exec (.gangStop vf c) s = .next t ∧ (t.gang vf e).state = (if g.mode then 4 else 3) ∧ (t.gang vf e).time = c.time
      ∧ (t.gang vf e).guard = guard
      ∧ (g.mode = false → SameRegs s t ∧ t.ms = s.ms
          ∧ t.fab = ((s.setGang vf e fun g => { g with guard := guard }).gangTell vf e .stop c.time).fab))
  ∧ (∀ (s : State) (vf e : Nat) (c : GangCmd), s.gangIndex vf c.gang = some e →
    let g := s.gang vf e
    g.coord = true → g.state = 5 → (∀ m < g.gmemb, m ∈ g.heardOf .saved) → s.ns + 100000 ≤ c.time →
    ∃ t, exec (.gangResume vf c) s = .next t ∧ SameRegs s t ∧ t.ms = s.ms
      ∧ (t.gang vf e).state = 6 ∧ (t.gang vf e).time = c.time ∧ t.fab = (s.gangTell vf e .resume c.time).fab)
  ∧ (∀ (s : State) (vf e : Nat) (c : GangCmd), s.gangIndex vf c.gang = some e → (s.gang vf e).coord = true →
    ∃ t, exec (.gangAbort vf c) s = .next t ∧ (t.gang vf e).state = 7 ∧ t.fab = (s.gangTell vf e .abort 0).fab)
  ∧ (∀ (s : State) (vf e : Nat) (c : GangCmd), s.gangIndex vf c.gang = some e → (s.gang vf e).state = 1 ∨ (s.gang vf e).state = 7 →
    ∃ t, exec (.gangUnregister vf c) s = .next t ∧ SameRegs s t ∧ t.ms = s.ms ∧ t.gang vf e = Gang.reset)
  ∧ (∀ (s : State) (vf e : Nat) (c : GangCmd), s.gangIndex vf c.gang = some e →
    let g := s.gang vf e
    let guard := if c.guard = 0 then 30 else c.guard
    let rejected (i : Instr) : Prop := exec i s = .next (s.gangNotice vf e 1 none)
    rejected (.gangRegister vf c)
    ∧ (g.coord = false ∨ g.state ≠ 2 ∨ guard < 10 ∨ 10000 < guard ∨ c.time < s.ns + 20000 → rejected (.gangStop vf c))
    ∧ (g.coord = false ∨ g.state ≠ 5 ∨ (∃ m < g.gmemb, m ∉ g.heardOf .saved) ∨ c.time < s.ns + 100000 →
        rejected (.gangResume vf c))
    ∧ (g.coord = false → rejected (.gangAbort vf c))
    ∧ (g.state ≠ 1 → g.state ≠ 7 → rejected (.gangUnregister vf c)))
  ∧ ∀ (s : State) (vf : Nat) (c : GangCmd), s.gangIndex vf c.gang = none →
    let rejected (i : Instr) : Prop := exec i s = .next (s.post vf c.target s.ns 4 1 c.gang (2 ^ 32 - 1))
    rejected (.gangStop vf c) ∧ rejected (.gangResume vf c) ∧ rejected (.gangAbort vf c) ∧ rejected (.gangUnregister vf c)
    ∧ ((∀ g ∈ (s.vf vf).gangs, g.state ≠ 0) ∨ c.gmemb = 0 ∨ 4096 < c.gmemb → rejected (.gangRegister vf c))

/-- R336, R340, R341, R344 to R348: what a gang does at its times, for an entry of its table: the launch at START, the
halt at T, the coordinator's stragglers after GUARD, the closing of the window, SAVED once every frame is complete,
the opening of issue at T′, the abort of late members and of a silent coordinator's members. -/
def Obligations.GangTimes : Prop :=
  ∀ (s : State) (vf e : Nat) (g : Gang), (s.vf vf).gangs[e]? = some g → vf < s.vfs.length →
    (g.state = 1 → g.task ≠ 0 → g.mode = false → g.start ≤ s.ns → s.tcbNat vf g.task 30 1 = 1 →
      s.tcbNat vf g.task 32 4 = 0 → ∃ t, exec (.gangStartTime vf e) s = .next t ∧ SameRegs s t ∧ (t.gang vf e).state = 2
        ∧ t.ms = (s.makeReady vf g.task).ms ∧ t.tasks = (s.makeReady vf g.task).tasks)
    ∧ (g.state = 3 → g.mode = false → g.time ≤ s.ns →
        ∃ t, exec (.gangStopTime vf e) s = .next t ∧ ((∀ h ∈ s.groups, h.gleans = []) → SameRegs s t) ∧ (t.gang vf e).state = 4
          ∧ ∀ k, s.gangTask vf e = some k → ∀ gi x, s.groups[gi]? = some x → x.task = k.uid →
              ∃ since ns, t.groupAt gi Group.stop = some (.halting since ns))
    ∧ (g.state = 4 → g.sent = false → g.coord = false → s.gangRests vf e = true →
        ∃ t, exec (.gangStopTime vf e) s = .next t ∧ SameRegs s t ∧ t.ms = s.ms ∧ (t.gang vf e).sent = true
          ∧ t.fab = ((if g.mode then s.gangFlush vf e else s).gangReport vf e .halted 0).fab)
    ∧ (g.coord = true → g.state = 3 ∨ g.state = 4 → g.late = [] → g.mode = false → g.time + g.guard * 1000 ≤ s.ns →
        g.missing ≠ [] → g.policy = true → ∃ t, exec (.gangGuardExpiry vf e) s = .next t ∧ SameRegs s t
          ∧ (t.gang vf e).late = g.missing ∧ (t.gang vf e).state = g.state
          ∧ t.msgs = (g.missing.foldl (fun s m => s.gangNotice vf e 2 (some m)) s).msgs)
    ∧ (g.coord = true → g.state = 3 ∨ g.state = 4 → g.late = [] → g.mode = false → g.time + g.guard * 1000 ≤ s.ns →
        g.missing ≠ [] → g.policy = false → ∃ t, exec (.gangGuardExpiry vf e) s = .next t ∧ (t.gang vf e).state = 7)
    ∧ (g.coord = false → g.state = 4 → g.sent = true → g.byTime = true → g.time + g.guard * 1000 ≤ s.ns →
        s.gangAsks vf e = false → ∃ t, exec (.gangGuardExpiry vf e) s = .next t ∧ SameRegs s t ∧ t.ms = s.ms
          ∧ (t.gang vf e).state = 5)
    ∧ (g.coord = false → g.state = 5 → g.sent = false → s.gangSaved vf e = true →
        ∃ t, exec (.gangGuardExpiry vf e) s = .next t ∧ SameRegs s t ∧ t.ms = s.ms ∧ (t.gang vf e).sent = true
          ∧ t.fab = (s.gangReport vf e .saved 0).fab)
    ∧ (g.coord = true → g.policy = true → g.state = 3 ∨ g.state = 4 ∨ g.state = 5 → g.late ≠ [] → g.mode = false →
        g.time + 2 * g.guard * 1000 ≤ s.ns → g.missing ≠ [] →
        ∃ t, exec (.stragglerPolicyExpiry vf e) s = .next t ∧ (t.gang vf e).state = 7)
    ∧ (g.state = 6 → g.mode = false → g.time ≤ s.ns → (∀ k, s.gangTask vf e = some k → k.saved = []) → g.member ∉ g.late →
        ∃ t, exec (.gangResumeTime vf e) s = .next t ∧ SameRegs s t ∧ (t.gang vf e).state = 2
          ∧ ∀ k, s.gangTask vf e = some k → ∀ gi x, s.groups[gi]? = some x → x.task = k.uid → x.stop = .closed →
              t.groupAt gi Group.stop = some .running)
    ∧ (g.state = 6 → g.mode = false → g.time < s.ns → (∀ k, s.gangTask vf e = some k → k.saved = []) → g.member ∈ g.late →
        g.coord = true → g.policy = false → ∃ t, exec (.gangResumeTime vf e) s = .next t ∧ (t.gang vf e).state = 7)
    ∧ (g.coord = false → 3 ≤ g.state → g.state ≤ 6 → g.heardAt + 1000000000 ≤ s.ns →
        ∃ t, exec (.gangSilenceTimeout vf e) s = .next t ∧ (t.gang vf e).state = 7)

/-- R335 to R337, R341, R344 to R348, R382, R385: what each gang control flit that a received frame has brought does at
the entry of its gang, and that one under another owner, or for no entry, is dropped and counted; one that no frame
has brought does nothing. -/
def Obligations.GangMessages : Prop :=
  ∀ (s : State) (vf : Nat) (m : GangMsg),
    (∀ i k, (i, k) ∈ [(Instr.gangMsgStop vf m, GangKind.stop), (.gangMsgResume vf m, .resume), (.gangMsgAbort vf m, .abort)
        , (.gangMsgHalted vf m, .halted), (.gangMsgSaved vf m, .saved), (.gangMsgResumed vf m, .resumed)
        , (.gangMsgMode vf m, .mode), (.gangMsgArrive vf m, .arrive), (.gangMsgRelease vf m, .release)
        , (.gangMsgReadyToGo vf m, .ready), (.gangMsgGo vf m, .go), (.gangMsgFlush vf m, .flush)] →
      let x : InFlit := .gang k.code vf m
      (mayAct s.fab.inbox x = false → exec i s = .next s)
      ∧ (mayAct s.fab.inbox x = true → s.gangIndex vf m.gang = none ∨ m.owner ≠ (s.vf vf).owner →
        exec i s = .next ({ s with fab := { s.fab with inbox := dropFirst s.fab.inbox x } }.note .frame)))
    ∧ ∀ e, s.gangIndex vf m.gang = some e → m.owner = (s.vf vf).owner → m.member < 65536 →
      let g := s.gang vf e
      let came (k : GangKind) : Prop := mayAct s.fab.inbox (.gang k.code vf m) = true
      let then_ (i : Instr) (p : Gang → Prop) : Prop := ∃ t, exec i s = .next t ∧ p (t.gang vf e)
      let heard (k : GangKind) (x : Gang) : Prop := m.member ∈ x.heardOf k
      let all (k : GangKind) : Prop := ∀ n < g.gmemb, n = m.member ∨ n ∈ g.heardOf k
      (g.state = 2 → g.mode = false → came .stop → then_ (.gangMsgStop vf m) fun x => x.state = 3 ∧ x.time = m.time ∧ x.guard = m.guard)
      ∧ (g.state = 2 → g.mode = true → came .stop → then_ (.gangMsgStop vf m) fun x => x.state = 4)
      ∧ (g.state = 5 → came .resume → then_ (.gangMsgResume vf m) fun x => x.state = 6 ∧ x.time = m.time)
      ∧ (came .abort → then_ (.gangMsgAbort vf m) fun x => x.state = 7)
      ∧ (g.coord = true → came .halted → then_ (.gangMsgHalted vf m) (heard .halted))
      ∧ (g.coord = true → came .saved → then_ (.gangMsgSaved vf m) (heard .saved))
      ∧ (g.coord = true → m.time = 0 → came .resumed → then_ (.gangMsgResumed vf m) (heard .resumed))
      ∧ (g.coord = true → m.time ≠ 0 → g.policy = false → came .resumed → then_ (.gangMsgResumed vf m) fun x => x.state = 7)
      ∧ (m.time = 0 → came .mode → then_ (.gangMsgMode vf m) fun x => x.mode = true)
      ∧ (m.time = 1 → came .mode → then_ (.gangMsgMode vf m) fun x => m.member ∈ x.locks ∧ x.mode = g.mode)
      ∧ (m.time = 2 → came .mode → then_ (.gangMsgMode vf m) fun x => x.mode = false)
      ∧ (g.coord = true → g.state = 1 → ¬ all .arrive → came .arrive → then_ (.gangMsgArrive vf m) (heard .arrive))
      ∧ (g.coord = true → g.mode = true → g.state = 1 → g.task ≠ 0 → all .arrive →
          came .arrive → then_ (.gangMsgArrive vf m) fun x => x.state = 2)
      ∧ (g.state = 1 → g.task ≠ 0 → came .release → then_ (.gangMsgRelease vf m) fun x => x.state = 2)
      ∧ (g.coord = true → g.state ≠ 2 → ¬ all .ready → came .ready → then_ (.gangMsgReadyToGo vf m) (heard .ready))
      ∧ (g.coord = true → g.mode = true → g.state = 6 → g.released = false → all .ready →
          came .ready → then_ (.gangMsgReadyToGo vf m) fun x => x.state = 2)
      ∧ (g.state = 6 → g.mode = true → (∀ k, s.gangTask vf e = some k → k.saved = []) →
          came .go → then_ (.gangMsgGo vf m) fun x => x.state = 2)
      ∧ (came .flush → then_ (.gangMsgFlush vf m) fun x => m.member ∈ x.flushed ∧ x.state = g.state)

/-- R331 to R333, R347: the clock. A message with supported options is timestamped; the first lock steps TAI forward, and
every other correction is left to be slewed; a loss of lock goes into HOLDOVER; once BOUND exceeds 1,000 ns, in
HOLDOVER after the time in which it grows so far, LOSS is set and every gang goes into message mode; an unsupported
message is counted. The domain that disciplines the clock is number 0 (log 17). -/
def Obligations.Timebase : Prop :=
  (∀ (s : State) (m : PtpMsg), PtpMsg.supported m = true →
    ∃ t, exec (.ptpMessage m) s = .next t ∧ SameRegs s t ∧ t.ms = s.ms ∧ (m.port, m.domain, s.lam.tai) ∈ t.lam.stamps
      ∧ (m.domain ≠ 0 → t.lam.tai = s.lam.tai ∧ t.lam.lock = s.lam.lock ∧ t.lam.slew = s.lam.slew)
      ∧ (m.domain = 0 →
        let first : Prop := s.lam.locked = false ∧ m.locked = true
        t.lam.tai = (if first then s.lam.tai + m.corr.toNat else s.lam.tai)
        ∧ t.lam.slew = (if first then min m.corr 0 else m.corr)
        ∧ (m.locked = true → t.lam.lock = 2 ∧ t.lam.loss = false ∧ t.lam.locked = true)
        ∧ t.lam.bound = (if s.lam.lock = 3 ∧ m.locked = false then s.lam.bound else Nat.min m.bound 65535)))
  ∧ (∀ (s : State) (m : PtpMsg), PtpMsg.supported m = false → exec (.ptpMessage m) s = .next (s.note .ptp))
  ∧ (∀ (s : State), s.lam.lock = 2 → ∃ t, exec .lossOfLock s = .next t ∧ SameRegs s t ∧ t.ms = s.ms ∧ t.lam.lock = 3
      ∧ t.lam.tai = s.lam.tai ∧ t.lam.lostAt = s.ns)
  ∧ ∀ (s : State), s.lam.loss = false → s.lam.locked = true →
      1000 < s.lam.bound ∨ (s.lam.lock = 3 ∧ 10000000 * (1001 - s.lam.bound) ≤ s.ns - s.lam.lostAt) →
      ∃ t, exec .clockLoss s = .next t ∧ ((∀ h ∈ s.groups, h.gleans = []) → SameRegs s t) ∧ t.lam.loss = true ∧ t.lam.bound = Nat.max s.lam.bound 1001
        ∧ ∀ vf < 128, ∀ e < 64, (s.gang vf e).state ≠ 0 → (t.gang vf e).mode = true

/-! ### The package -/

/-- R13, R26, R403 to R408, R411: bring-up. POWER_GOOD leaves no group, task or released cluster and keeps memory; stage B
trains the ports that are there; a verified record that is not older becomes the stored copy, and is applied where it
names available resources; a partition starts and its clusters are released, with CYCLE from 0 and every counter 0; a
quote names the measurements; Furze withholds issue, and in a clock that it withholds no slot issues, unless a halt is
pending (log 121); or it removes power, after which only POWER_GOOD acts.

R4, R391, R394, R395, R400: a plain register write gives the register's RW fields the written bits, and its other
bits, every other register, and memory stay as they were; a write to a reserved address changes nothing. The registers
of a cluster are those of the VF's saved copy while the VF does not run, and a write to a cluster outside the
partition is discarded.

R283, R376, R386, R390, R392, R393: VF_RESET gives the VF's tables their values at setup and takes its translations,
pins and windows, and clears the counters that are its own; RESHAPE changes the share, the weight and the
address-range table of a partition at one point, with no partial, no windrow entry and no line left in the slices that
quiesce but lines with errors; a pin on a line of such a partial delays it; what Furze may not install is refused. -/
def Obligations.Package : Prop :=
  (∀ (s : State),
       (∃ t, exec .powerGood s = .next t ∧ t.groups = [] ∧ t.tasks = [] ∧ t.copies = [] ∧ t.chip.stage = 1
         ∧ t.chip.stored = s.chip.stored ∧ t.ms.mem = s.ms.mem ∧ t.ms.tlb ++ t.ms.tlb2 = [] ∧ ∀ c ∈ t.clusters, c.part = none)
       ∧ (∀ quarters ports, s.chip.stage = 1 → s.chip.stored = none →
           ∃ t, exec (.stageBComplete quarters ports) s = .next t ∧ SameRegs s t ∧ t.ms = s.ms ∧ t.chip.stage = 2
             ∧ t.lam.lock = 1 ∧ t.chip.badQuarters = quarters ∧ t.chip.badPorts = ports
             ∧ ∀ i p, s.fab.ports[i]? = some p →
                 t.fab.ports[i]? = some (if i ∈ ports then p else { p with trained := true, up := true }))
       ∧ (∀ r, s.chip.stage ≠ 0 → r.verified = true → (∀ old, s.chip.stored = some old → old.seq ≤ r.seq) →
           ∃ t, exec (.provisioningRecord r) s = .next t ∧ t.chip.stored = some r
             ∧ (2 ≤ s.chip.stage → s.chip.allows r = true → (∀ p ∈ s.ms.partials, ∀ x ∈ s.ms.pins, x.line ≠ p.pa / 128) →
                 t.chip.applied = some r ∧ t.chip.ranges = rangeTable r.ranges ∧ t.fab.routes = r.routes ∧ t.chip.stage = 3)
             ∧ (s.chip.stage = 1 ∨ s.chip.allows r = false → SameRegs s t ∧ t.ms = s.ms ∧ t.chip.applied = s.chip.applied))
       ∧ (∀ r, s.chip.stage = 0 ∨ r.verified = false ∨ (∃ old, s.chip.stored = some old ∧ r.seq < old.seq) →
           exec (.provisioningRecord r) s = .next (s.note .record))
       ∧ (∀ part meas p, s.chip.partRec part = some p → s.chip.parts[part]? = some 0 → part < s.chip.meas.length →
           ∃ t, exec (.partitionStart part meas) s = .next t ∧ SameRegs s t ∧ t.ms = s.ms ∧ t.chip.parts[part]? = some 1
             ∧ t.chip.meas[part]? = some meas)
       ∧ (∀ part p, s.chip.partRec part = some p → s.chip.parts[part]? = some 1 →
           ∃ t, exec (.clusterRelease part) s = .next t ∧ SameRegs s t ∧ t.ms = s.ms ∧ t.chip.parts[part]? = some 2
             ∧ ∀ i c, s.clusters[i]? = some c → t.clusters[i]? =
                 some (if i / 8 ∈ p.groups then { Cluster.reset with part := some part, released := s.clock } else c))
       ∧ (∀ nonce, s.chip.stage ≠ 0 → ∃ t, exec (.attestationQuote nonce) s = .next t ∧ SameRegs s t ∧ t.ms = s.ms
           ∧ t.msgs = s.msgs ++
               [.quote ([nonce, s.chip.fw, (s.chip.applied.map ProvRecord.digest).getD 0] ++ s.chip.meas)])
       ∧ (∀ on, ∃ t, exec (.thermalThrottle on) s = .next t ∧ t.chip.throttled = on ∧ SameRegs s t ∧ t.ms = s.ms
           ∧ t.vfs = s.vfs)
       ∧ (∀ cl slot rest, s.chip.dead = false → s.schedule = .issue cl slot :: rest →
           let u : State := { s with schedule := rest }
           (s.chip.throttled = true → Config.withheld s.clock = true → (∀ g ∈ s.groups, g.leaving = false) → step s = .next u)
           ∧ (s.chip.throttled = false ∨ Config.withheld s.clock = false ∨ (∃ g ∈ s.groups, g.leaving = true) →
               step s = u.issueSlot cl slot))
       ∧ (∃ t, exec .thermalShutdown s = .next t ∧ t.chip.dead = true)
       ∧ (s.chip.dead = true → (s.schedule = [] → step s = .next s)
           ∧ ∀ m rest, s.schedule = m :: rest →
               step s = if m = .event .powerGood then exec .powerGood { s with schedule := rest } else .next { s with schedule := rest }))
  ∧ (∀ (s : State) (v : BitVec 64),
       let did (r : RegName) (t : State) : Prop := exec (.registerWrite r v) s = .next t
       did .reserved s
       ∧ (∀ vf x, s.vfs[vf]? = some x →
           (∀ i r y, (r, y) ∈ [(RegName.groot vf, { x with groot := v.toNat % 2 ^ 52 / 4096, gen := v.getLsbD 0 })
               , (.pager vf, { x with pager := v.toNat % 2 ^ 16 }), (.ring vf, if v.toNat % 64 = 0 then { x with ring := v } else x)
               , (.tbase vf, { x with tbase := v }), (.tctl vf, { x with tctl := v &&& 0x1FF })
               , (.tcons vf, { x with tcons := v.toNat }), (.shared vf i, { x with shared := x.shared.set i v.toNat })
               , (.sharedControl vf i, { x with sharedCtl := x.sharedCtl.set i (v &&& 0x800FFFFF) })] →
             ∃ t, did r t ∧ t.vfs = s.vfs.set vf y ∧ t.groups = s.groups ∧ t.ms = s.ms ∧ t.clusters = s.clusters
               ∧ t.chip = s.chip))
       ∧ (∀ vf cl i (c : Cluster), s.clusters[cl]? = some c → c.part = some (partOf vf) → (s.vf vf).saved = none →
           c.cnt.c.length = 16 → c.cnt.ctl.length = 16 →
           c.cnt.ranges.length = 16 → c.cnt.bkpt.length = 4 → i < 16 →
           let one (r : RegName) (d : Cluster) : Prop := ∃ t, did r t ∧ t.clusters = s.clusters.set cl d ∧ t.groups = s.groups
             ∧ t.ms = s.ms ∧ t.vfs = s.vfs ∧ t.chip = s.chip
           one (.counter vf cl i) { c with cnt := { c.cnt with c := c.cnt.c.set i v.toNat } }
           ∧ one (.control vf cl i) { c with cnt := { c.cnt with ctl := c.cnt.ctl.set i (v &&& 0x800FFFFF) } }
           ∧ one (.rbase vf cl i) { c with cnt := { c.cnt with ranges := c.cnt.ranges.set i (v, (c.cnt.ranges.getD i (0, 0)).2) } }
           ∧ one (.rlimit vf cl i) { c with cnt := { c.cnt with ranges := c.cnt.ranges.set i ((c.cnt.ranges.getD i (0, 0)).1, v) } }
           ∧ one (.lctl vf cl) { c with cnt := { c.cnt with lctl := v.getLsbD 0 } }
           ∧ (i < 4 → one (.bkpt vf cl i) { c with cnt := { c.cnt with bkpt := c.cnt.bkpt.set i (v &&& ~~~2#64) } }))
       ∧ (∀ vf cl i ks, (s.cluster cl).part = some (partOf vf) → (s.vf vf).saved = some ks → vf < s.vfs.length →
           let k := (ks.lookup cl).getD Counters.reset
           ∃ t, did (.counter vf cl i) t ∧ t.clusters = s.clusters ∧ t.groups = s.groups ∧ t.ms = s.ms ∧ t.chip = s.chip
             ∧ ((t.vf vf).saved.getD []).lookup cl = some { k with c := k.c.set i v.toNat }
             ∧ ∀ d, d ≠ cl → ((t.vf vf).saved.getD []).lookup d = ks.lookup d)
       ∧ (∀ vf cl i, (s.cluster cl).part ≠ some (partOf vf) →
           did (.counter vf cl i) s ∧ did (.control vf cl i) s ∧ did (.bkpt vf cl i) s))
  ∧ ((∀ (s : State) (vf : Nat), vf < 128 → vf < s.vfs.length →
       ∃ t, exec (.vfReset vf) s = .next t
         ∧ t.vf vf = (match s.chip.vfRec vf with
             | some r => { VF.setup r (s.vf vf).running with began := (s.vf vf).began }
             | none => VF.reset)
         ∧ (∀ x ∈ t.ms.tlb ++ t.ms.tlb2, x.vf ≠ vf) ∧ (∀ x ∈ t.ms.pins, x.vf ≠ vf) ∧ (∀ x ∈ t.ms.walks, x.vf ≠ vf)
         ∧ (∀ w ∈ t.fab.windows, w.state = 0 ∨ w.vf ≠ vf) ∧ (∀ x ∈ t.fab.imports, x.used = false ∨ x.vf ≠ vf)
         ∧ ((s.vf vf).saved = none → ∀ c ∈ t.clusters, c.part = some (partOf vf) → c.cnt = Counters.reset))
     ∧ ∀ (s : State) (r : ReshapeReq),
       let over_ := s.quiescing r
       let mine (p : Partial) : Prop := p ∈ s.ms.partials ∧ s.homeOf (p.vf / 16) p.pa ∈ over_
       let held (p : Partial) : Prop := ∃ x ∈ s.ms.pins, x.line = p.pa / 128
       let fits : Prop := s.chip.stage = 3 ∧ r.part < 8 ∧ unitsOk r.share Config.slices = true ∧ 1 ≤ r.weight ∧ r.weight ≤ 64
         ∧ rangesOk r.ranges = true
       (fits → (∀ p, mine p → ¬ held p) →
         ∃ t, exec (.reshape r) s = .next t ∧ SameRegs s t ∧ t.tasks = s.tasks ∧ (s.MemOk → ∀ a, t.byte a = s.byte a)
           ∧ t.chip = { s.chip with ranges := rangeTable r.ranges, shares := s.chip.shares.set r.part (sliceList r.share)
                                    weights := s.chip.weights.set r.part r.weight }
           ∧ (∀ p ∈ t.ms.partials, ¬ mine p) ∧ (∀ w ∈ t.ms.windrows, 48 * w.die + w.slice ∉ over_)
           ∧ (∀ w ∈ s.ms.windrows, w ∈ t.ms.windrows ∨ w.leave s.clock ∈ t.ms.pushes)
           ∧ ∀ x ∈ t.hier.slices, x.slice ∈ over_ → x.line ∈ t.ms.errored)
       ∧ (fits → (∃ p, mine p ∧ held p) →
           ∃ t, exec (.reshape r) s = .next t ∧ SameRegs s t ∧ t.chip = s.chip ∧ t.ms.windrows = s.ms.windrows)
       ∧ (¬ fits → exec (.reshape r) s = .next (s.note .command)))
end

