-- ==== Sys2Proof/Laws/State.lean ====
section
/-! SUPPORT. What the named updates of a state leave as it was, one lemma for each update and field, and what they put in
the field that they change. -/

namespace Sys2Proof.Machine

/-! ### Lists -/

@[simp] theorem length_modAt {α : Type} (l : List α) (i : Nat) (f : α → α) : (modAt l i f).length = l.length := by
  induction l generalizing i with
  | nil => rfl
  | cons x xs ih =>
    cases i with
    | zero => rfl
    | succ i => simp [modAt, ih]

theorem getElem?_modAt {α : Type} (l : List α) (i j : Nat) (f : α → α) :
    (modAt l i f)[j]? = if i = j then l[j]?.map f else l[j]? := by
  induction l generalizing i j with
  | nil => simp [modAt]
  | cons x xs ih =>
    cases i with
    | zero => cases j <;> simp [modAt]
    | succ i => cases j <;> simp [modAt, ih]

@[simp] theorem getElem?_modAt_same {α : Type} (l : List α) (i : Nat) (f : α → α) : (modAt l i f)[i]? = l[i]?.map f := by
  simp [getElem?_modAt]

theorem getElem?_modAt_other {α : Type} (l : List α) {i j : Nat} (f : α → α) (h : i ≠ j) : (modAt l i f)[j]? = l[j]? := by
  simp [getElem?_modAt, h]

/-! ### Fields that an update leaves -/

@[simp] theorem State.setGroup_clock (s : State) (i : Nat) (f : Group → Group) : (s.setGroup i f).clock = s.clock := rfl
@[simp] theorem State.setGroup_uids (s : State) (i : Nat) (f : Group → Group) : (s.setGroup i f).uids = s.uids := rfl
@[simp] theorem State.setGroup_nonce (s : State) (i : Nat) (f : Group → Group) : (s.setGroup i f).nonce = s.nonce := rfl
@[simp] theorem State.setGroup_schedule (s : State) (i : Nat) (f : Group → Group) : (s.setGroup i f).schedule = s.schedule := rfl
@[simp] theorem State.setGroup_cur (s : State) (i : Nat) (f : Group → Group) : (s.setGroup i f).cur = s.cur := rfl
@[simp] theorem State.setGroup_tasks (s : State) (i : Nat) (f : Group → Group) : (s.setGroup i f).tasks = s.tasks := rfl
@[simp] theorem State.setGroup_clusters (s : State) (i : Nat) (f : Group → Group) : (s.setGroup i f).clusters = s.clusters := rfl
@[simp] theorem State.setGroup_vfs (s : State) (i : Nat) (f : Group → Group) : (s.setGroup i f).vfs = s.vfs := rfl
@[simp] theorem State.setGroup_ms (s : State) (i : Nat) (f : Group → Group) : (s.setGroup i f).ms = s.ms := rfl
@[simp] theorem State.setGroup_hier (s : State) (i : Nat) (f : Group → Group) : (s.setGroup i f).hier = s.hier := rfl
@[simp] theorem State.setGroup_icache (s : State) (i : Nat) (f : Group → Group) : (s.setGroup i f).icache = s.icache := rfl
@[simp] theorem State.setGroup_copies (s : State) (i : Nat) (f : Group → Group) : (s.setGroup i f).copies = s.copies := rfl
@[simp] theorem State.setGroup_fill (s : State) (i : Nat) (f : Group → Group) : (s.setGroup i f).fill = s.fill := rfl
@[simp] theorem State.setGroup_compute (s : State) (i : Nat) (f : Group → Group) : (s.setGroup i f).compute = s.compute := rfl
@[simp] theorem State.setGroup_fab (s : State) (i : Nat) (f : Group → Group) : (s.setGroup i f).fab = s.fab := rfl
@[simp] theorem State.setGroup_lam (s : State) (i : Nat) (f : Group → Group) : (s.setGroup i f).lam = s.lam := rfl
@[simp] theorem State.setGroup_chip (s : State) (i : Nat) (f : Group → Group) : (s.setGroup i f).chip = s.chip := rfl
@[simp] theorem State.setGroup_msgs (s : State) (i : Nat) (f : Group → Group) : (s.setGroup i f).msgs = s.msgs := rfl
@[simp] theorem State.setGroup_tally (s : State) (i : Nat) (f : Group → Group) : (s.setGroup i f).tally = s.tally := rfl

@[simp] theorem State.setSheaf_clock (s : State) (gi si : Nat) (f : Sheaf → Sheaf) : (s.setSheaf gi si f).clock = s.clock := rfl
@[simp] theorem State.setSheaf_uids (s : State) (gi si : Nat) (f : Sheaf → Sheaf) : (s.setSheaf gi si f).uids = s.uids := rfl
@[simp] theorem State.setSheaf_nonce (s : State) (gi si : Nat) (f : Sheaf → Sheaf) : (s.setSheaf gi si f).nonce = s.nonce := rfl
@[simp] theorem State.setSheaf_schedule (s : State) (gi si : Nat) (f : Sheaf → Sheaf) : (s.setSheaf gi si f).schedule = s.schedule := rfl
@[simp] theorem State.setSheaf_cur (s : State) (gi si : Nat) (f : Sheaf → Sheaf) : (s.setSheaf gi si f).cur = s.cur := rfl
@[simp] theorem State.setSheaf_tasks (s : State) (gi si : Nat) (f : Sheaf → Sheaf) : (s.setSheaf gi si f).tasks = s.tasks := rfl
@[simp] theorem State.setSheaf_clusters (s : State) (gi si : Nat) (f : Sheaf → Sheaf) : (s.setSheaf gi si f).clusters = s.clusters := rfl
@[simp] theorem State.setSheaf_vfs (s : State) (gi si : Nat) (f : Sheaf → Sheaf) : (s.setSheaf gi si f).vfs = s.vfs := rfl
@[simp] theorem State.setSheaf_ms (s : State) (gi si : Nat) (f : Sheaf → Sheaf) : (s.setSheaf gi si f).ms = s.ms := rfl
@[simp] theorem State.setSheaf_hier (s : State) (gi si : Nat) (f : Sheaf → Sheaf) : (s.setSheaf gi si f).hier = s.hier := rfl
@[simp] theorem State.setSheaf_icache (s : State) (gi si : Nat) (f : Sheaf → Sheaf) : (s.setSheaf gi si f).icache = s.icache := rfl
@[simp] theorem State.setSheaf_copies (s : State) (gi si : Nat) (f : Sheaf → Sheaf) : (s.setSheaf gi si f).copies = s.copies := rfl
@[simp] theorem State.setSheaf_fill (s : State) (gi si : Nat) (f : Sheaf → Sheaf) : (s.setSheaf gi si f).fill = s.fill := rfl
@[simp] theorem State.setSheaf_compute (s : State) (gi si : Nat) (f : Sheaf → Sheaf) : (s.setSheaf gi si f).compute = s.compute := rfl
@[simp] theorem State.setSheaf_fab (s : State) (gi si : Nat) (f : Sheaf → Sheaf) : (s.setSheaf gi si f).fab = s.fab := rfl
@[simp] theorem State.setSheaf_lam (s : State) (gi si : Nat) (f : Sheaf → Sheaf) : (s.setSheaf gi si f).lam = s.lam := rfl
@[simp] theorem State.setSheaf_chip (s : State) (gi si : Nat) (f : Sheaf → Sheaf) : (s.setSheaf gi si f).chip = s.chip := rfl
@[simp] theorem State.setSheaf_msgs (s : State) (gi si : Nat) (f : Sheaf → Sheaf) : (s.setSheaf gi si f).msgs = s.msgs := rfl
@[simp] theorem State.setSheaf_tally (s : State) (gi si : Nat) (f : Sheaf → Sheaf) : (s.setSheaf gi si f).tally = s.tally := rfl

@[simp] theorem State.setVf_clock (s : State) (i : Nat) (f : VF → VF) : (s.setVf i f).clock = s.clock := rfl
@[simp] theorem State.setVf_uids (s : State) (i : Nat) (f : VF → VF) : (s.setVf i f).uids = s.uids := rfl
@[simp] theorem State.setVf_nonce (s : State) (i : Nat) (f : VF → VF) : (s.setVf i f).nonce = s.nonce := rfl
@[simp] theorem State.setVf_schedule (s : State) (i : Nat) (f : VF → VF) : (s.setVf i f).schedule = s.schedule := rfl
@[simp] theorem State.setVf_cur (s : State) (i : Nat) (f : VF → VF) : (s.setVf i f).cur = s.cur := rfl
@[simp] theorem State.setVf_groups (s : State) (i : Nat) (f : VF → VF) : (s.setVf i f).groups = s.groups := rfl
@[simp] theorem State.setVf_tasks (s : State) (i : Nat) (f : VF → VF) : (s.setVf i f).tasks = s.tasks := rfl
@[simp] theorem State.setVf_clusters (s : State) (i : Nat) (f : VF → VF) : (s.setVf i f).clusters = s.clusters := rfl
@[simp] theorem State.setVf_ms (s : State) (i : Nat) (f : VF → VF) : (s.setVf i f).ms = s.ms := rfl
@[simp] theorem State.setVf_hier (s : State) (i : Nat) (f : VF → VF) : (s.setVf i f).hier = s.hier := rfl
@[simp] theorem State.setVf_icache (s : State) (i : Nat) (f : VF → VF) : (s.setVf i f).icache = s.icache := rfl
@[simp] theorem State.setVf_copies (s : State) (i : Nat) (f : VF → VF) : (s.setVf i f).copies = s.copies := rfl
@[simp] theorem State.setVf_fill (s : State) (i : Nat) (f : VF → VF) : (s.setVf i f).fill = s.fill := rfl
@[simp] theorem State.setVf_compute (s : State) (i : Nat) (f : VF → VF) : (s.setVf i f).compute = s.compute := rfl
@[simp] theorem State.setVf_fab (s : State) (i : Nat) (f : VF → VF) : (s.setVf i f).fab = s.fab := rfl
@[simp] theorem State.setVf_lam (s : State) (i : Nat) (f : VF → VF) : (s.setVf i f).lam = s.lam := rfl
@[simp] theorem State.setVf_chip (s : State) (i : Nat) (f : VF → VF) : (s.setVf i f).chip = s.chip := rfl
@[simp] theorem State.setVf_msgs (s : State) (i : Nat) (f : VF → VF) : (s.setVf i f).msgs = s.msgs := rfl
@[simp] theorem State.setVf_tally (s : State) (i : Nat) (f : VF → VF) : (s.setVf i f).tally = s.tally := rfl

@[simp] theorem State.setTask_clock (s : State) (uid : Nat) (f : Task → Task) : (s.setTask uid f).clock = s.clock := rfl
@[simp] theorem State.setTask_uids (s : State) (uid : Nat) (f : Task → Task) : (s.setTask uid f).uids = s.uids := rfl
@[simp] theorem State.setTask_nonce (s : State) (uid : Nat) (f : Task → Task) : (s.setTask uid f).nonce = s.nonce := rfl
@[simp] theorem State.setTask_schedule (s : State) (uid : Nat) (f : Task → Task) : (s.setTask uid f).schedule = s.schedule := rfl
@[simp] theorem State.setTask_cur (s : State) (uid : Nat) (f : Task → Task) : (s.setTask uid f).cur = s.cur := rfl
@[simp] theorem State.setTask_groups (s : State) (uid : Nat) (f : Task → Task) : (s.setTask uid f).groups = s.groups := rfl
@[simp] theorem State.setTask_clusters (s : State) (uid : Nat) (f : Task → Task) : (s.setTask uid f).clusters = s.clusters := rfl
@[simp] theorem State.setTask_vfs (s : State) (uid : Nat) (f : Task → Task) : (s.setTask uid f).vfs = s.vfs := rfl
@[simp] theorem State.setTask_ms (s : State) (uid : Nat) (f : Task → Task) : (s.setTask uid f).ms = s.ms := rfl
@[simp] theorem State.setTask_hier (s : State) (uid : Nat) (f : Task → Task) : (s.setTask uid f).hier = s.hier := rfl
@[simp] theorem State.setTask_icache (s : State) (uid : Nat) (f : Task → Task) : (s.setTask uid f).icache = s.icache := rfl
@[simp] theorem State.setTask_copies (s : State) (uid : Nat) (f : Task → Task) : (s.setTask uid f).copies = s.copies := rfl
@[simp] theorem State.setTask_fill (s : State) (uid : Nat) (f : Task → Task) : (s.setTask uid f).fill = s.fill := rfl
@[simp] theorem State.setTask_compute (s : State) (uid : Nat) (f : Task → Task) : (s.setTask uid f).compute = s.compute := rfl
@[simp] theorem State.setTask_fab (s : State) (uid : Nat) (f : Task → Task) : (s.setTask uid f).fab = s.fab := rfl
@[simp] theorem State.setTask_lam (s : State) (uid : Nat) (f : Task → Task) : (s.setTask uid f).lam = s.lam := rfl
@[simp] theorem State.setTask_chip (s : State) (uid : Nat) (f : Task → Task) : (s.setTask uid f).chip = s.chip := rfl
@[simp] theorem State.setTask_msgs (s : State) (uid : Nat) (f : Task → Task) : (s.setTask uid f).msgs = s.msgs := rfl
@[simp] theorem State.setTask_tally (s : State) (uid : Nat) (f : Task → Task) : (s.setTask uid f).tally = s.tally := rfl

@[simp] theorem State.setCopy_clock (s : State) (id : Nat) (f : Copy → Copy) : (s.setCopy id f).clock = s.clock := rfl
@[simp] theorem State.setCopy_uids (s : State) (id : Nat) (f : Copy → Copy) : (s.setCopy id f).uids = s.uids := rfl
@[simp] theorem State.setCopy_nonce (s : State) (id : Nat) (f : Copy → Copy) : (s.setCopy id f).nonce = s.nonce := rfl
@[simp] theorem State.setCopy_schedule (s : State) (id : Nat) (f : Copy → Copy) : (s.setCopy id f).schedule = s.schedule := rfl
@[simp] theorem State.setCopy_cur (s : State) (id : Nat) (f : Copy → Copy) : (s.setCopy id f).cur = s.cur := rfl
@[simp] theorem State.setCopy_groups (s : State) (id : Nat) (f : Copy → Copy) : (s.setCopy id f).groups = s.groups := rfl
@[simp] theorem State.setCopy_tasks (s : State) (id : Nat) (f : Copy → Copy) : (s.setCopy id f).tasks = s.tasks := rfl
@[simp] theorem State.setCopy_clusters (s : State) (id : Nat) (f : Copy → Copy) : (s.setCopy id f).clusters = s.clusters := rfl
@[simp] theorem State.setCopy_vfs (s : State) (id : Nat) (f : Copy → Copy) : (s.setCopy id f).vfs = s.vfs := rfl
@[simp] theorem State.setCopy_ms (s : State) (id : Nat) (f : Copy → Copy) : (s.setCopy id f).ms = s.ms := rfl
@[simp] theorem State.setCopy_hier (s : State) (id : Nat) (f : Copy → Copy) : (s.setCopy id f).hier = s.hier := rfl
@[simp] theorem State.setCopy_icache (s : State) (id : Nat) (f : Copy → Copy) : (s.setCopy id f).icache = s.icache := rfl
@[simp] theorem State.setCopy_fill (s : State) (id : Nat) (f : Copy → Copy) : (s.setCopy id f).fill = s.fill := rfl
@[simp] theorem State.setCopy_compute (s : State) (id : Nat) (f : Copy → Copy) : (s.setCopy id f).compute = s.compute := rfl
@[simp] theorem State.setCopy_fab (s : State) (id : Nat) (f : Copy → Copy) : (s.setCopy id f).fab = s.fab := rfl
@[simp] theorem State.setCopy_lam (s : State) (id : Nat) (f : Copy → Copy) : (s.setCopy id f).lam = s.lam := rfl
@[simp] theorem State.setCopy_chip (s : State) (id : Nat) (f : Copy → Copy) : (s.setCopy id f).chip = s.chip := rfl
@[simp] theorem State.setCopy_msgs (s : State) (id : Nat) (f : Copy → Copy) : (s.setCopy id f).msgs = s.msgs := rfl
@[simp] theorem State.setCopy_tally (s : State) (id : Nat) (f : Copy → Copy) : (s.setCopy id f).tally = s.tally := rfl

@[simp] theorem State.note_clock (s : State) (t : Tally) : (s.note t).clock = s.clock := rfl
@[simp] theorem State.note_uids (s : State) (t : Tally) : (s.note t).uids = s.uids := rfl
@[simp] theorem State.note_nonce (s : State) (t : Tally) : (s.note t).nonce = s.nonce := rfl
@[simp] theorem State.note_schedule (s : State) (t : Tally) : (s.note t).schedule = s.schedule := rfl
@[simp] theorem State.note_cur (s : State) (t : Tally) : (s.note t).cur = s.cur := rfl
@[simp] theorem State.note_groups (s : State) (t : Tally) : (s.note t).groups = s.groups := rfl
@[simp] theorem State.note_tasks (s : State) (t : Tally) : (s.note t).tasks = s.tasks := rfl
@[simp] theorem State.note_clusters (s : State) (t : Tally) : (s.note t).clusters = s.clusters := rfl
@[simp] theorem State.note_vfs (s : State) (t : Tally) : (s.note t).vfs = s.vfs := rfl
@[simp] theorem State.note_ms (s : State) (t : Tally) : (s.note t).ms = s.ms := rfl
@[simp] theorem State.note_hier (s : State) (t : Tally) : (s.note t).hier = s.hier := rfl
@[simp] theorem State.note_icache (s : State) (t : Tally) : (s.note t).icache = s.icache := rfl
@[simp] theorem State.note_copies (s : State) (t : Tally) : (s.note t).copies = s.copies := rfl
@[simp] theorem State.note_fill (s : State) (t : Tally) : (s.note t).fill = s.fill := rfl
@[simp] theorem State.note_compute (s : State) (t : Tally) : (s.note t).compute = s.compute := rfl
@[simp] theorem State.note_fab (s : State) (t : Tally) : (s.note t).fab = s.fab := rfl
@[simp] theorem State.note_lam (s : State) (t : Tally) : (s.note t).lam = s.lam := rfl
@[simp] theorem State.note_chip (s : State) (t : Tally) : (s.note t).chip = s.chip := rfl
@[simp] theorem State.note_msgs (s : State) (t : Tally) : (s.note t).msgs = s.msgs := rfl

@[simp] theorem State.count_clock (s : State) (cl event n : Nat) : (s.count cl event n).clock = s.clock := rfl
@[simp] theorem State.count_uids (s : State) (cl event n : Nat) : (s.count cl event n).uids = s.uids := rfl
@[simp] theorem State.count_nonce (s : State) (cl event n : Nat) : (s.count cl event n).nonce = s.nonce := rfl
@[simp] theorem State.count_schedule (s : State) (cl event n : Nat) : (s.count cl event n).schedule = s.schedule := rfl
@[simp] theorem State.count_cur (s : State) (cl event n : Nat) : (s.count cl event n).cur = s.cur := rfl
@[simp] theorem State.count_groups (s : State) (cl event n : Nat) : (s.count cl event n).groups = s.groups := rfl
@[simp] theorem State.count_tasks (s : State) (cl event n : Nat) : (s.count cl event n).tasks = s.tasks := rfl
@[simp] theorem State.count_vfs (s : State) (cl event n : Nat) : (s.count cl event n).vfs = s.vfs := rfl
@[simp] theorem State.count_ms (s : State) (cl event n : Nat) : (s.count cl event n).ms = s.ms := rfl
@[simp] theorem State.count_hier (s : State) (cl event n : Nat) : (s.count cl event n).hier = s.hier := rfl
@[simp] theorem State.count_icache (s : State) (cl event n : Nat) : (s.count cl event n).icache = s.icache := rfl
@[simp] theorem State.count_copies (s : State) (cl event n : Nat) : (s.count cl event n).copies = s.copies := rfl
@[simp] theorem State.count_fill (s : State) (cl event n : Nat) : (s.count cl event n).fill = s.fill := rfl
@[simp] theorem State.count_compute (s : State) (cl event n : Nat) : (s.count cl event n).compute = s.compute := rfl
@[simp] theorem State.count_fab (s : State) (cl event n : Nat) : (s.count cl event n).fab = s.fab := rfl
@[simp] theorem State.count_lam (s : State) (cl event n : Nat) : (s.count cl event n).lam = s.lam := rfl
@[simp] theorem State.count_chip (s : State) (cl event n : Nat) : (s.count cl event n).chip = s.chip := rfl
@[simp] theorem State.count_msgs (s : State) (cl event n : Nat) : (s.count cl event n).msgs = s.msgs := rfl
@[simp] theorem State.count_tally (s : State) (cl event n : Nat) : (s.count cl event n).tally = s.tally := rfl

@[simp] theorem State.countShared_clock (s : State) (vf event n : Nat) : (s.countShared vf event n).clock = s.clock := rfl
@[simp] theorem State.countShared_uids (s : State) (vf event n : Nat) : (s.countShared vf event n).uids = s.uids := rfl
@[simp] theorem State.countShared_nonce (s : State) (vf event n : Nat) : (s.countShared vf event n).nonce = s.nonce := rfl
@[simp] theorem State.countShared_schedule (s : State) (vf event n : Nat) : (s.countShared vf event n).schedule = s.schedule := rfl
@[simp] theorem State.countShared_cur (s : State) (vf event n : Nat) : (s.countShared vf event n).cur = s.cur := rfl
@[simp] theorem State.countShared_groups (s : State) (vf event n : Nat) : (s.countShared vf event n).groups = s.groups := rfl
@[simp] theorem State.countShared_tasks (s : State) (vf event n : Nat) : (s.countShared vf event n).tasks = s.tasks := rfl
@[simp] theorem State.countShared_clusters (s : State) (vf event n : Nat) : (s.countShared vf event n).clusters = s.clusters := rfl
@[simp] theorem State.countShared_ms (s : State) (vf event n : Nat) : (s.countShared vf event n).ms = s.ms := rfl
@[simp] theorem State.countShared_hier (s : State) (vf event n : Nat) : (s.countShared vf event n).hier = s.hier := rfl
@[simp] theorem State.countShared_icache (s : State) (vf event n : Nat) : (s.countShared vf event n).icache = s.icache := rfl
@[simp] theorem State.countShared_copies (s : State) (vf event n : Nat) : (s.countShared vf event n).copies = s.copies := rfl
@[simp] theorem State.countShared_fill (s : State) (vf event n : Nat) : (s.countShared vf event n).fill = s.fill := rfl
@[simp] theorem State.countShared_compute (s : State) (vf event n : Nat) : (s.countShared vf event n).compute = s.compute := rfl
@[simp] theorem State.countShared_fab (s : State) (vf event n : Nat) : (s.countShared vf event n).fab = s.fab := rfl
@[simp] theorem State.countShared_lam (s : State) (vf event n : Nat) : (s.countShared vf event n).lam = s.lam := rfl
@[simp] theorem State.countShared_chip (s : State) (vf event n : Nat) : (s.countShared vf event n).chip = s.chip := rfl
@[simp] theorem State.countShared_msgs (s : State) (vf event n : Nat) : (s.countShared vf event n).msgs = s.msgs := rfl
@[simp] theorem State.countShared_tally (s : State) (vf event n : Nat) : (s.countShared vf event n).tally = s.tally := rfl

@[simp] theorem State.tidy_clock (s : State) (gi : Nat) : (s.tidy gi).clock = s.clock := rfl
@[simp] theorem State.tidy_uids (s : State) (gi : Nat) : (s.tidy gi).uids = s.uids := rfl
@[simp] theorem State.tidy_nonce (s : State) (gi : Nat) : (s.tidy gi).nonce = s.nonce := rfl
@[simp] theorem State.tidy_schedule (s : State) (gi : Nat) : (s.tidy gi).schedule = s.schedule := rfl
@[simp] theorem State.tidy_cur (s : State) (gi : Nat) : (s.tidy gi).cur = s.cur := rfl
@[simp] theorem State.tidy_tasks (s : State) (gi : Nat) : (s.tidy gi).tasks = s.tasks := rfl
@[simp] theorem State.tidy_clusters (s : State) (gi : Nat) : (s.tidy gi).clusters = s.clusters := rfl
@[simp] theorem State.tidy_vfs (s : State) (gi : Nat) : (s.tidy gi).vfs = s.vfs := rfl
@[simp] theorem State.tidy_ms (s : State) (gi : Nat) : (s.tidy gi).ms = s.ms := rfl
@[simp] theorem State.tidy_hier (s : State) (gi : Nat) : (s.tidy gi).hier = s.hier := rfl
@[simp] theorem State.tidy_icache (s : State) (gi : Nat) : (s.tidy gi).icache = s.icache := rfl
@[simp] theorem State.tidy_copies (s : State) (gi : Nat) : (s.tidy gi).copies = s.copies := rfl
@[simp] theorem State.tidy_fill (s : State) (gi : Nat) : (s.tidy gi).fill = s.fill := rfl
@[simp] theorem State.tidy_compute (s : State) (gi : Nat) : (s.tidy gi).compute = s.compute := rfl
@[simp] theorem State.tidy_fab (s : State) (gi : Nat) : (s.tidy gi).fab = s.fab := rfl
@[simp] theorem State.tidy_lam (s : State) (gi : Nat) : (s.tidy gi).lam = s.lam := rfl
@[simp] theorem State.tidy_chip (s : State) (gi : Nat) : (s.tidy gi).chip = s.chip := rfl
@[simp] theorem State.tidy_msgs (s : State) (gi : Nat) : (s.tidy gi).msgs = s.msgs := rfl
@[simp] theorem State.tidy_tally (s : State) (gi : Nat) : (s.tidy gi).tally = s.tally := rfl

@[simp] theorem State.wakeLine_clock (s : State) (line : Nat) : (s.wakeLine line).clock = s.clock := rfl
@[simp] theorem State.wakeLine_uids (s : State) (line : Nat) : (s.wakeLine line).uids = s.uids := rfl
@[simp] theorem State.wakeLine_nonce (s : State) (line : Nat) : (s.wakeLine line).nonce = s.nonce := rfl
@[simp] theorem State.wakeLine_schedule (s : State) (line : Nat) : (s.wakeLine line).schedule = s.schedule := rfl
@[simp] theorem State.wakeLine_cur (s : State) (line : Nat) : (s.wakeLine line).cur = s.cur := rfl
@[simp] theorem State.wakeLine_tasks (s : State) (line : Nat) : (s.wakeLine line).tasks = s.tasks := rfl
@[simp] theorem State.wakeLine_clusters (s : State) (line : Nat) : (s.wakeLine line).clusters = s.clusters := rfl
@[simp] theorem State.wakeLine_vfs (s : State) (line : Nat) : (s.wakeLine line).vfs = s.vfs := rfl
@[simp] theorem State.wakeLine_ms (s : State) (line : Nat) : (s.wakeLine line).ms = s.ms := rfl
@[simp] theorem State.wakeLine_hier (s : State) (line : Nat) : (s.wakeLine line).hier = s.hier := rfl
@[simp] theorem State.wakeLine_icache (s : State) (line : Nat) : (s.wakeLine line).icache = s.icache := rfl
@[simp] theorem State.wakeLine_copies (s : State) (line : Nat) : (s.wakeLine line).copies = s.copies := rfl
@[simp] theorem State.wakeLine_fill (s : State) (line : Nat) : (s.wakeLine line).fill = s.fill := rfl
@[simp] theorem State.wakeLine_compute (s : State) (line : Nat) : (s.wakeLine line).compute = s.compute := rfl
@[simp] theorem State.wakeLine_fab (s : State) (line : Nat) : (s.wakeLine line).fab = s.fab := rfl
@[simp] theorem State.wakeLine_lam (s : State) (line : Nat) : (s.wakeLine line).lam = s.lam := rfl
@[simp] theorem State.wakeLine_chip (s : State) (line : Nat) : (s.wakeLine line).chip = s.chip := rfl
@[simp] theorem State.wakeLine_msgs (s : State) (line : Nat) : (s.wakeLine line).msgs = s.msgs := rfl
@[simp] theorem State.wakeLine_tally (s : State) (line : Nat) : (s.wakeLine line).tally = s.tally := rfl

@[simp] theorem State.tick_uids (s : State) (clocks tai : Nat) : (s.tick clocks tai).uids = s.uids := rfl
@[simp] theorem State.tick_nonce (s : State) (clocks tai : Nat) : (s.tick clocks tai).nonce = s.nonce := rfl
@[simp] theorem State.tick_schedule (s : State) (clocks tai : Nat) : (s.tick clocks tai).schedule = s.schedule := rfl
@[simp] theorem State.tick_cur (s : State) (clocks tai : Nat) : (s.tick clocks tai).cur = s.cur := rfl
@[simp] theorem State.tick_tasks (s : State) (clocks tai : Nat) : (s.tick clocks tai).tasks = s.tasks := rfl
@[simp] theorem State.tick_vfs (s : State) (clocks tai : Nat) : (s.tick clocks tai).vfs = s.vfs := rfl
@[simp] theorem State.tick_ms (s : State) (clocks tai : Nat) : (s.tick clocks tai).ms = s.ms := rfl
@[simp] theorem State.tick_hier (s : State) (clocks tai : Nat) : (s.tick clocks tai).hier = s.hier := rfl
@[simp] theorem State.tick_icache (s : State) (clocks tai : Nat) : (s.tick clocks tai).icache = s.icache := rfl
@[simp] theorem State.tick_copies (s : State) (clocks tai : Nat) : (s.tick clocks tai).copies = s.copies := rfl
@[simp] theorem State.tick_fill (s : State) (clocks tai : Nat) : (s.tick clocks tai).fill = s.fill := rfl
@[simp] theorem State.tick_compute (s : State) (clocks tai : Nat) : (s.tick clocks tai).compute = s.compute := rfl
@[simp] theorem State.tick_fab (s : State) (clocks tai : Nat) : (s.tick clocks tai).fab = s.fab := rfl
@[simp] theorem State.tick_chip (s : State) (clocks tai : Nat) : (s.tick clocks tai).chip = s.chip := rfl
@[simp] theorem State.tick_msgs (s : State) (clocks tai : Nat) : (s.tick clocks tai).msgs = s.msgs := rfl
@[simp] theorem State.tick_tally (s : State) (clocks tai : Nat) : (s.tick clocks tai).tally = s.tally := rfl

@[simp] theorem State.gap_clock (s : State) : (s.gap).clock = s.clock := rfl
@[simp] theorem State.gap_uids (s : State) : (s.gap).uids = s.uids := rfl
@[simp] theorem State.gap_schedule (s : State) : (s.gap).schedule = s.schedule := rfl
@[simp] theorem State.gap_cur (s : State) : (s.gap).cur = s.cur := rfl
@[simp] theorem State.gap_groups (s : State) : (s.gap).groups = s.groups := rfl
@[simp] theorem State.gap_tasks (s : State) : (s.gap).tasks = s.tasks := rfl
@[simp] theorem State.gap_clusters (s : State) : (s.gap).clusters = s.clusters := rfl
@[simp] theorem State.gap_vfs (s : State) : (s.gap).vfs = s.vfs := rfl
@[simp] theorem State.gap_ms (s : State) : (s.gap).ms = s.ms := rfl
@[simp] theorem State.gap_hier (s : State) : (s.gap).hier = s.hier := rfl
@[simp] theorem State.gap_icache (s : State) : (s.gap).icache = s.icache := rfl
@[simp] theorem State.gap_copies (s : State) : (s.gap).copies = s.copies := rfl
@[simp] theorem State.gap_fill (s : State) : (s.gap).fill = s.fill := rfl
@[simp] theorem State.gap_compute (s : State) : (s.gap).compute = s.compute := rfl
@[simp] theorem State.gap_fab (s : State) : (s.gap).fab = s.fab := rfl
@[simp] theorem State.gap_lam (s : State) : (s.gap).lam = s.lam := rfl
@[simp] theorem State.gap_chip (s : State) : (s.gap).chip = s.chip := rfl
@[simp] theorem State.gap_msgs (s : State) : (s.gap).msgs = s.msgs := rfl
@[simp] theorem State.gap_tally (s : State) : (s.gap).tally = s.tally := rfl

@[simp] theorem State.setSlot_clock (s : State) (cl slot : Nat) (f : IssueSlot → IssueSlot) : (s.setSlot cl slot f).clock = s.clock := rfl
@[simp] theorem State.setSlot_uids (s : State) (cl slot : Nat) (f : IssueSlot → IssueSlot) : (s.setSlot cl slot f).uids = s.uids := rfl
@[simp] theorem State.setSlot_nonce (s : State) (cl slot : Nat) (f : IssueSlot → IssueSlot) : (s.setSlot cl slot f).nonce = s.nonce := rfl
@[simp] theorem State.setSlot_schedule (s : State) (cl slot : Nat) (f : IssueSlot → IssueSlot) : (s.setSlot cl slot f).schedule = s.schedule := rfl
@[simp] theorem State.setSlot_cur (s : State) (cl slot : Nat) (f : IssueSlot → IssueSlot) : (s.setSlot cl slot f).cur = s.cur := rfl
@[simp] theorem State.setSlot_groups (s : State) (cl slot : Nat) (f : IssueSlot → IssueSlot) : (s.setSlot cl slot f).groups = s.groups := rfl
@[simp] theorem State.setSlot_tasks (s : State) (cl slot : Nat) (f : IssueSlot → IssueSlot) : (s.setSlot cl slot f).tasks = s.tasks := rfl
@[simp] theorem State.setSlot_vfs (s : State) (cl slot : Nat) (f : IssueSlot → IssueSlot) : (s.setSlot cl slot f).vfs = s.vfs := rfl
@[simp] theorem State.setSlot_ms (s : State) (cl slot : Nat) (f : IssueSlot → IssueSlot) : (s.setSlot cl slot f).ms = s.ms := rfl
@[simp] theorem State.setSlot_hier (s : State) (cl slot : Nat) (f : IssueSlot → IssueSlot) : (s.setSlot cl slot f).hier = s.hier := rfl
@[simp] theorem State.setSlot_icache (s : State) (cl slot : Nat) (f : IssueSlot → IssueSlot) : (s.setSlot cl slot f).icache = s.icache := rfl
@[simp] theorem State.setSlot_copies (s : State) (cl slot : Nat) (f : IssueSlot → IssueSlot) : (s.setSlot cl slot f).copies = s.copies := rfl
@[simp] theorem State.setSlot_fill (s : State) (cl slot : Nat) (f : IssueSlot → IssueSlot) : (s.setSlot cl slot f).fill = s.fill := rfl
@[simp] theorem State.setSlot_compute (s : State) (cl slot : Nat) (f : IssueSlot → IssueSlot) : (s.setSlot cl slot f).compute = s.compute := rfl
@[simp] theorem State.setSlot_fab (s : State) (cl slot : Nat) (f : IssueSlot → IssueSlot) : (s.setSlot cl slot f).fab = s.fab := rfl
@[simp] theorem State.setSlot_lam (s : State) (cl slot : Nat) (f : IssueSlot → IssueSlot) : (s.setSlot cl slot f).lam = s.lam := rfl
@[simp] theorem State.setSlot_chip (s : State) (cl slot : Nat) (f : IssueSlot → IssueSlot) : (s.setSlot cl slot f).chip = s.chip := rfl
@[simp] theorem State.setSlot_msgs (s : State) (cl slot : Nat) (f : IssueSlot → IssueSlot) : (s.setSlot cl slot f).msgs = s.msgs := rfl
@[simp] theorem State.setSlot_tally (s : State) (cl slot : Nat) (f : IssueSlot → IssueSlot) : (s.setSlot cl slot f).tally = s.tally := rfl

@[simp] theorem State.issues_clock (s : State) (cl slot major busy : Nat) : (s.issues cl slot major busy).clock = s.clock := rfl
@[simp] theorem State.issues_uids (s : State) (cl slot major busy : Nat) : (s.issues cl slot major busy).uids = s.uids := rfl
@[simp] theorem State.issues_nonce (s : State) (cl slot major busy : Nat) : (s.issues cl slot major busy).nonce = s.nonce := rfl
@[simp] theorem State.issues_schedule (s : State) (cl slot major busy : Nat) : (s.issues cl slot major busy).schedule = s.schedule := rfl
@[simp] theorem State.issues_cur (s : State) (cl slot major busy : Nat) : (s.issues cl slot major busy).cur = s.cur := rfl
@[simp] theorem State.issues_groups (s : State) (cl slot major busy : Nat) : (s.issues cl slot major busy).groups = s.groups := rfl
@[simp] theorem State.issues_tasks (s : State) (cl slot major busy : Nat) : (s.issues cl slot major busy).tasks = s.tasks := rfl
@[simp] theorem State.issues_vfs (s : State) (cl slot major busy : Nat) : (s.issues cl slot major busy).vfs = s.vfs := rfl
@[simp] theorem State.issues_ms (s : State) (cl slot major busy : Nat) : (s.issues cl slot major busy).ms = s.ms := rfl
@[simp] theorem State.issues_hier (s : State) (cl slot major busy : Nat) : (s.issues cl slot major busy).hier = s.hier := rfl
@[simp] theorem State.issues_icache (s : State) (cl slot major busy : Nat) : (s.issues cl slot major busy).icache = s.icache := rfl
@[simp] theorem State.issues_copies (s : State) (cl slot major busy : Nat) : (s.issues cl slot major busy).copies = s.copies := rfl
@[simp] theorem State.issues_fill (s : State) (cl slot major busy : Nat) : (s.issues cl slot major busy).fill = s.fill := rfl
@[simp] theorem State.issues_compute (s : State) (cl slot major busy : Nat) : (s.issues cl slot major busy).compute = s.compute := rfl
@[simp] theorem State.issues_fab (s : State) (cl slot major busy : Nat) : (s.issues cl slot major busy).fab = s.fab := rfl
@[simp] theorem State.issues_lam (s : State) (cl slot major busy : Nat) : (s.issues cl slot major busy).lam = s.lam := rfl
@[simp] theorem State.issues_chip (s : State) (cl slot major busy : Nat) : (s.issues cl slot major busy).chip = s.chip := rfl
@[simp] theorem State.issues_msgs (s : State) (cl slot major busy : Nat) : (s.issues cl slot major busy).msgs = s.msgs := rfl
@[simp] theorem State.issues_tally (s : State) (cl slot major busy : Nat) : (s.issues cl slot major busy).tally = s.tally := rfl

@[simp] theorem State.mark_clock (s : State) (c : Cx) : (s.mark c).clock = s.clock := rfl
@[simp] theorem State.mark_uids (s : State) (c : Cx) : (s.mark c).uids = s.uids := rfl
@[simp] theorem State.mark_schedule (s : State) (c : Cx) : (s.mark c).schedule = s.schedule := rfl
@[simp] theorem State.mark_cur (s : State) (c : Cx) : (s.mark c).cur = s.cur := rfl
@[simp] theorem State.mark_groups (s : State) (c : Cx) : (s.mark c).groups = s.groups := rfl
@[simp] theorem State.mark_tasks (s : State) (c : Cx) : (s.mark c).tasks = s.tasks := rfl
@[simp] theorem State.mark_vfs (s : State) (c : Cx) : (s.mark c).vfs = s.vfs := rfl
@[simp] theorem State.mark_ms (s : State) (c : Cx) : (s.mark c).ms = s.ms := rfl
@[simp] theorem State.mark_hier (s : State) (c : Cx) : (s.mark c).hier = s.hier := rfl
@[simp] theorem State.mark_icache (s : State) (c : Cx) : (s.mark c).icache = s.icache := rfl
@[simp] theorem State.mark_copies (s : State) (c : Cx) : (s.mark c).copies = s.copies := rfl
@[simp] theorem State.mark_fill (s : State) (c : Cx) : (s.mark c).fill = s.fill := rfl
@[simp] theorem State.mark_compute (s : State) (c : Cx) : (s.mark c).compute = s.compute := rfl
@[simp] theorem State.mark_fab (s : State) (c : Cx) : (s.mark c).fab = s.fab := rfl
@[simp] theorem State.mark_lam (s : State) (c : Cx) : (s.mark c).lam = s.lam := rfl
@[simp] theorem State.mark_chip (s : State) (c : Cx) : (s.mark c).chip = s.chip := rfl
@[simp] theorem State.mark_msgs (s : State) (c : Cx) : (s.mark c).msgs = s.msgs := rfl
@[simp] theorem State.mark_tally (s : State) (c : Cx) : (s.mark c).tally = s.tally := rfl

@[simp] theorem State.setFar_clock (s : State) (x : FarLine) (data : List Byte) : (s.setFar x data).clock = s.clock := rfl
@[simp] theorem State.setFar_uids (s : State) (x : FarLine) (data : List Byte) : (s.setFar x data).uids = s.uids := rfl
@[simp] theorem State.setFar_nonce (s : State) (x : FarLine) (data : List Byte) : (s.setFar x data).nonce = s.nonce := rfl
@[simp] theorem State.setFar_schedule (s : State) (x : FarLine) (data : List Byte) : (s.setFar x data).schedule = s.schedule := rfl
@[simp] theorem State.setFar_cur (s : State) (x : FarLine) (data : List Byte) : (s.setFar x data).cur = s.cur := rfl
@[simp] theorem State.setFar_groups (s : State) (x : FarLine) (data : List Byte) : (s.setFar x data).groups = s.groups := rfl
@[simp] theorem State.setFar_tasks (s : State) (x : FarLine) (data : List Byte) : (s.setFar x data).tasks = s.tasks := rfl
@[simp] theorem State.setFar_clusters (s : State) (x : FarLine) (data : List Byte) : (s.setFar x data).clusters = s.clusters := rfl
@[simp] theorem State.setFar_vfs (s : State) (x : FarLine) (data : List Byte) : (s.setFar x data).vfs = s.vfs := rfl
@[simp] theorem State.setFar_hier (s : State) (x : FarLine) (data : List Byte) : (s.setFar x data).hier = s.hier := rfl
@[simp] theorem State.setFar_icache (s : State) (x : FarLine) (data : List Byte) : (s.setFar x data).icache = s.icache := rfl
@[simp] theorem State.setFar_copies (s : State) (x : FarLine) (data : List Byte) : (s.setFar x data).copies = s.copies := rfl
@[simp] theorem State.setFar_fill (s : State) (x : FarLine) (data : List Byte) : (s.setFar x data).fill = s.fill := rfl
@[simp] theorem State.setFar_compute (s : State) (x : FarLine) (data : List Byte) : (s.setFar x data).compute = s.compute := rfl
@[simp] theorem State.setFar_fab (s : State) (x : FarLine) (data : List Byte) : (s.setFar x data).fab = s.fab := rfl
@[simp] theorem State.setFar_lam (s : State) (x : FarLine) (data : List Byte) : (s.setFar x data).lam = s.lam := rfl
@[simp] theorem State.setFar_chip (s : State) (x : FarLine) (data : List Byte) : (s.setFar x data).chip = s.chip := rfl
@[simp] theorem State.setFar_msgs (s : State) (x : FarLine) (data : List Byte) : (s.setFar x data).msgs = s.msgs := rfl
@[simp] theorem State.setFar_tally (s : State) (x : FarLine) (data : List Byte) : (s.setFar x data).tally = s.tally := rfl

@[simp] theorem State.wakeNarrow_clock (s : State) (cl line : Nat) : (s.wakeNarrow cl line).clock = s.clock := rfl
@[simp] theorem State.wakeNarrow_uids (s : State) (cl line : Nat) : (s.wakeNarrow cl line).uids = s.uids := rfl
@[simp] theorem State.wakeNarrow_nonce (s : State) (cl line : Nat) : (s.wakeNarrow cl line).nonce = s.nonce := rfl
@[simp] theorem State.wakeNarrow_schedule (s : State) (cl line : Nat) : (s.wakeNarrow cl line).schedule = s.schedule := rfl
@[simp] theorem State.wakeNarrow_cur (s : State) (cl line : Nat) : (s.wakeNarrow cl line).cur = s.cur := rfl
@[simp] theorem State.wakeNarrow_tasks (s : State) (cl line : Nat) : (s.wakeNarrow cl line).tasks = s.tasks := rfl
@[simp] theorem State.wakeNarrow_clusters (s : State) (cl line : Nat) : (s.wakeNarrow cl line).clusters = s.clusters := rfl
@[simp] theorem State.wakeNarrow_vfs (s : State) (cl line : Nat) : (s.wakeNarrow cl line).vfs = s.vfs := rfl
@[simp] theorem State.wakeNarrow_ms (s : State) (cl line : Nat) : (s.wakeNarrow cl line).ms = s.ms := rfl
@[simp] theorem State.wakeNarrow_hier (s : State) (cl line : Nat) : (s.wakeNarrow cl line).hier = s.hier := rfl
@[simp] theorem State.wakeNarrow_icache (s : State) (cl line : Nat) : (s.wakeNarrow cl line).icache = s.icache := rfl
@[simp] theorem State.wakeNarrow_copies (s : State) (cl line : Nat) : (s.wakeNarrow cl line).copies = s.copies := rfl
@[simp] theorem State.wakeNarrow_fill (s : State) (cl line : Nat) : (s.wakeNarrow cl line).fill = s.fill := rfl
@[simp] theorem State.wakeNarrow_compute (s : State) (cl line : Nat) : (s.wakeNarrow cl line).compute = s.compute := rfl
@[simp] theorem State.wakeNarrow_fab (s : State) (cl line : Nat) : (s.wakeNarrow cl line).fab = s.fab := rfl
@[simp] theorem State.wakeNarrow_lam (s : State) (cl line : Nat) : (s.wakeNarrow cl line).lam = s.lam := rfl
@[simp] theorem State.wakeNarrow_chip (s : State) (cl line : Nat) : (s.wakeNarrow cl line).chip = s.chip := rfl
@[simp] theorem State.wakeNarrow_msgs (s : State) (cl line : Nat) : (s.wakeNarrow cl line).msgs = s.msgs := rfl
@[simp] theorem State.wakeNarrow_tally (s : State) (cl line : Nat) : (s.wakeNarrow cl line).tally = s.tally := rfl

@[simp] theorem State.invalidate_clock (s : State) (cl : Option Nat) (line : Nat) : (s.invalidate cl line).clock = s.clock := rfl
@[simp] theorem State.invalidate_uids (s : State) (cl : Option Nat) (line : Nat) : (s.invalidate cl line).uids = s.uids := rfl
@[simp] theorem State.invalidate_nonce (s : State) (cl : Option Nat) (line : Nat) : (s.invalidate cl line).nonce = s.nonce := rfl
@[simp] theorem State.invalidate_schedule (s : State) (cl : Option Nat) (line : Nat) : (s.invalidate cl line).schedule = s.schedule := rfl
@[simp] theorem State.invalidate_cur (s : State) (cl : Option Nat) (line : Nat) : (s.invalidate cl line).cur = s.cur := rfl
@[simp] theorem State.invalidate_groups (s : State) (cl : Option Nat) (line : Nat) : (s.invalidate cl line).groups = s.groups := rfl
@[simp] theorem State.invalidate_tasks (s : State) (cl : Option Nat) (line : Nat) : (s.invalidate cl line).tasks = s.tasks := rfl
@[simp] theorem State.invalidate_clusters (s : State) (cl : Option Nat) (line : Nat) : (s.invalidate cl line).clusters = s.clusters := rfl
@[simp] theorem State.invalidate_vfs (s : State) (cl : Option Nat) (line : Nat) : (s.invalidate cl line).vfs = s.vfs := rfl
@[simp] theorem State.invalidate_ms (s : State) (cl : Option Nat) (line : Nat) : (s.invalidate cl line).ms = s.ms := rfl
@[simp] theorem State.invalidate_icache (s : State) (cl : Option Nat) (line : Nat) : (s.invalidate cl line).icache = s.icache := rfl
@[simp] theorem State.invalidate_copies (s : State) (cl : Option Nat) (line : Nat) : (s.invalidate cl line).copies = s.copies := rfl
@[simp] theorem State.invalidate_fill (s : State) (cl : Option Nat) (line : Nat) : (s.invalidate cl line).fill = s.fill := rfl
@[simp] theorem State.invalidate_compute (s : State) (cl : Option Nat) (line : Nat) : (s.invalidate cl line).compute = s.compute := rfl
@[simp] theorem State.invalidate_fab (s : State) (cl : Option Nat) (line : Nat) : (s.invalidate cl line).fab = s.fab := rfl
@[simp] theorem State.invalidate_lam (s : State) (cl : Option Nat) (line : Nat) : (s.invalidate cl line).lam = s.lam := rfl
@[simp] theorem State.invalidate_chip (s : State) (cl : Option Nat) (line : Nat) : (s.invalidate cl line).chip = s.chip := rfl
@[simp] theorem State.invalidate_msgs (s : State) (cl : Option Nat) (line : Nat) : (s.invalidate cl line).msgs = s.msgs := rfl
@[simp] theorem State.invalidate_tally (s : State) (cl : Option Nat) (line : Nat) : (s.invalidate cl line).tally = s.tally := rfl

@[simp] theorem State.dropFills_clock (s : State) (group : Nat) : (s.dropFills group).clock = s.clock := rfl
@[simp] theorem State.dropFills_uids (s : State) (group : Nat) : (s.dropFills group).uids = s.uids := rfl
@[simp] theorem State.dropFills_nonce (s : State) (group : Nat) : (s.dropFills group).nonce = s.nonce := rfl
@[simp] theorem State.dropFills_schedule (s : State) (group : Nat) : (s.dropFills group).schedule = s.schedule := rfl
@[simp] theorem State.dropFills_cur (s : State) (group : Nat) : (s.dropFills group).cur = s.cur := rfl
@[simp] theorem State.dropFills_groups (s : State) (group : Nat) : (s.dropFills group).groups = s.groups := rfl
@[simp] theorem State.dropFills_tasks (s : State) (group : Nat) : (s.dropFills group).tasks = s.tasks := rfl
@[simp] theorem State.dropFills_clusters (s : State) (group : Nat) : (s.dropFills group).clusters = s.clusters := rfl
@[simp] theorem State.dropFills_vfs (s : State) (group : Nat) : (s.dropFills group).vfs = s.vfs := rfl
@[simp] theorem State.dropFills_hier (s : State) (group : Nat) : (s.dropFills group).hier = s.hier := rfl
@[simp] theorem State.dropFills_icache (s : State) (group : Nat) : (s.dropFills group).icache = s.icache := rfl
@[simp] theorem State.dropFills_copies (s : State) (group : Nat) : (s.dropFills group).copies = s.copies := rfl
@[simp] theorem State.dropFills_fill (s : State) (group : Nat) : (s.dropFills group).fill = s.fill := rfl
@[simp] theorem State.dropFills_compute (s : State) (group : Nat) : (s.dropFills group).compute = s.compute := rfl
@[simp] theorem State.dropFills_fab (s : State) (group : Nat) : (s.dropFills group).fab = s.fab := rfl
@[simp] theorem State.dropFills_lam (s : State) (group : Nat) : (s.dropFills group).lam = s.lam := rfl
@[simp] theorem State.dropFills_chip (s : State) (group : Nat) : (s.dropFills group).chip = s.chip := rfl
@[simp] theorem State.dropFills_msgs (s : State) (group : Nat) : (s.dropFills group).msgs = s.msgs := rfl
@[simp] theorem State.dropFills_tally (s : State) (group : Nat) : (s.dropFills group).tally = s.tally := rfl

@[simp] theorem State.dropTags_clock (s : State) (gone : Nat → Nat → Bool) : (s.dropTags gone).clock = s.clock := rfl
@[simp] theorem State.dropTags_uids (s : State) (gone : Nat → Nat → Bool) : (s.dropTags gone).uids = s.uids := rfl
@[simp] theorem State.dropTags_nonce (s : State) (gone : Nat → Nat → Bool) : (s.dropTags gone).nonce = s.nonce := rfl
@[simp] theorem State.dropTags_schedule (s : State) (gone : Nat → Nat → Bool) : (s.dropTags gone).schedule = s.schedule := rfl
@[simp] theorem State.dropTags_cur (s : State) (gone : Nat → Nat → Bool) : (s.dropTags gone).cur = s.cur := rfl
@[simp] theorem State.dropTags_groups (s : State) (gone : Nat → Nat → Bool) : (s.dropTags gone).groups = s.groups := rfl
@[simp] theorem State.dropTags_tasks (s : State) (gone : Nat → Nat → Bool) : (s.dropTags gone).tasks = s.tasks := rfl
@[simp] theorem State.dropTags_clusters (s : State) (gone : Nat → Nat → Bool) : (s.dropTags gone).clusters = s.clusters := rfl
@[simp] theorem State.dropTags_vfs (s : State) (gone : Nat → Nat → Bool) : (s.dropTags gone).vfs = s.vfs := rfl
@[simp] theorem State.dropTags_copies (s : State) (gone : Nat → Nat → Bool) : (s.dropTags gone).copies = s.copies := rfl
@[simp] theorem State.dropTags_fill (s : State) (gone : Nat → Nat → Bool) : (s.dropTags gone).fill = s.fill := rfl
@[simp] theorem State.dropTags_compute (s : State) (gone : Nat → Nat → Bool) : (s.dropTags gone).compute = s.compute := rfl
@[simp] theorem State.dropTags_fab (s : State) (gone : Nat → Nat → Bool) : (s.dropTags gone).fab = s.fab := rfl
@[simp] theorem State.dropTags_lam (s : State) (gone : Nat → Nat → Bool) : (s.dropTags gone).lam = s.lam := rfl
@[simp] theorem State.dropTags_chip (s : State) (gone : Nat → Nat → Bool) : (s.dropTags gone).chip = s.chip := rfl
@[simp] theorem State.dropTags_msgs (s : State) (gone : Nat → Nat → Bool) : (s.dropTags gone).msgs = s.msgs := rfl
@[simp] theorem State.dropTags_tally (s : State) (gone : Nat → Nat → Bool) : (s.dropTags gone).tally = s.tally := rfl

@[simp] theorem State.countIssue_clock (s : State) (c : Cx) : (s.countIssue c).clock = s.clock := rfl
@[simp] theorem State.countIssue_uids (s : State) (c : Cx) : (s.countIssue c).uids = s.uids := rfl
@[simp] theorem State.countIssue_nonce (s : State) (c : Cx) : (s.countIssue c).nonce = s.nonce := rfl
@[simp] theorem State.countIssue_schedule (s : State) (c : Cx) : (s.countIssue c).schedule = s.schedule := rfl
@[simp] theorem State.countIssue_cur (s : State) (c : Cx) : (s.countIssue c).cur = s.cur := rfl
@[simp] theorem State.countIssue_tasks (s : State) (c : Cx) : (s.countIssue c).tasks = s.tasks := rfl
@[simp] theorem State.countIssue_vfs (s : State) (c : Cx) : (s.countIssue c).vfs = s.vfs := rfl
@[simp] theorem State.countIssue_ms (s : State) (c : Cx) : (s.countIssue c).ms = s.ms := rfl
@[simp] theorem State.countIssue_hier (s : State) (c : Cx) : (s.countIssue c).hier = s.hier := rfl
@[simp] theorem State.countIssue_icache (s : State) (c : Cx) : (s.countIssue c).icache = s.icache := rfl
@[simp] theorem State.countIssue_copies (s : State) (c : Cx) : (s.countIssue c).copies = s.copies := rfl
@[simp] theorem State.countIssue_fill (s : State) (c : Cx) : (s.countIssue c).fill = s.fill := rfl
@[simp] theorem State.countIssue_compute (s : State) (c : Cx) : (s.countIssue c).compute = s.compute := rfl
@[simp] theorem State.countIssue_fab (s : State) (c : Cx) : (s.countIssue c).fab = s.fab := rfl
@[simp] theorem State.countIssue_lam (s : State) (c : Cx) : (s.countIssue c).lam = s.lam := rfl
@[simp] theorem State.countIssue_chip (s : State) (c : Cx) : (s.countIssue c).chip = s.chip := rfl
@[simp] theorem State.countIssue_msgs (s : State) (c : Cx) : (s.countIssue c).msgs = s.msgs := rfl
@[simp] theorem State.countIssue_tally (s : State) (c : Cx) : (s.countIssue c).tally = s.tally := rfl

/-! ### What an update puts in -/

theorem State.setGroup_get (s : State) (i j : Nat) (f : Group → Group) :
    (s.setGroup i f).groups[j]? = if i = j then s.groups[j]?.map f else s.groups[j]? := getElem?_modAt _ _ _ _

theorem State.setVf_get (s : State) (i j : Nat) (f : VF → VF) :
    (s.setVf i f).vfs[j]? = if i = j then s.vfs[j]?.map f else s.vfs[j]? := getElem?_modAt _ _ _ _

@[simp] theorem State.setGroup_length (s : State) (i : Nat) (f : Group → Group) :
    (s.setGroup i f).groups.length = s.groups.length := length_modAt _ _ _

@[simp] theorem State.setVf_length (s : State) (i : Nat) (f : VF → VF) : (s.setVf i f).vfs.length = s.vfs.length :=
  length_modAt _ _ _

/-! ### Updates that may leave everything -/

/-- A slot clock changes counters and the slot's own record alone. -/
theorem State.countSlot_fields (s : State) (cl slot event : Nat) : ∃ cs, s.countSlot cl slot event = { s with clusters := cs } := by
  unfold State.countSlot
  dsimp only
  split
  · split
    · exact ⟨s.clusters, rfl⟩
    · exact ⟨_, rfl⟩
  · split
    · exact ⟨s.clusters, rfl⟩
    · exact ⟨_, rfl⟩

@[simp] theorem State.countSlot_clock (s : State) (cl slot event : Nat) : (s.countSlot cl slot event).clock = s.clock := by
  obtain ⟨cs, h⟩ := s.countSlot_fields cl slot event; rw [h]
@[simp] theorem State.countSlot_uids (s : State) (cl slot event : Nat) : (s.countSlot cl slot event).uids = s.uids := by
  obtain ⟨cs, h⟩ := s.countSlot_fields cl slot event; rw [h]
@[simp] theorem State.countSlot_nonce (s : State) (cl slot event : Nat) : (s.countSlot cl slot event).nonce = s.nonce := by
  obtain ⟨cs, h⟩ := s.countSlot_fields cl slot event; rw [h]
@[simp] theorem State.countSlot_schedule (s : State) (cl slot event : Nat) : (s.countSlot cl slot event).schedule = s.schedule := by
  obtain ⟨cs, h⟩ := s.countSlot_fields cl slot event; rw [h]
@[simp] theorem State.countSlot_cur (s : State) (cl slot event : Nat) : (s.countSlot cl slot event).cur = s.cur := by
  obtain ⟨cs, h⟩ := s.countSlot_fields cl slot event; rw [h]
@[simp] theorem State.countSlot_groups (s : State) (cl slot event : Nat) : (s.countSlot cl slot event).groups = s.groups := by
  obtain ⟨cs, h⟩ := s.countSlot_fields cl slot event; rw [h]
@[simp] theorem State.countSlot_tasks (s : State) (cl slot event : Nat) : (s.countSlot cl slot event).tasks = s.tasks := by
  obtain ⟨cs, h⟩ := s.countSlot_fields cl slot event; rw [h]
@[simp] theorem State.countSlot_vfs (s : State) (cl slot event : Nat) : (s.countSlot cl slot event).vfs = s.vfs := by
  obtain ⟨cs, h⟩ := s.countSlot_fields cl slot event; rw [h]
@[simp] theorem State.countSlot_ms (s : State) (cl slot event : Nat) : (s.countSlot cl slot event).ms = s.ms := by
  obtain ⟨cs, h⟩ := s.countSlot_fields cl slot event; rw [h]
@[simp] theorem State.countSlot_hier (s : State) (cl slot event : Nat) : (s.countSlot cl slot event).hier = s.hier := by
  obtain ⟨cs, h⟩ := s.countSlot_fields cl slot event; rw [h]
@[simp] theorem State.countSlot_icache (s : State) (cl slot event : Nat) : (s.countSlot cl slot event).icache = s.icache := by
  obtain ⟨cs, h⟩ := s.countSlot_fields cl slot event; rw [h]
@[simp] theorem State.countSlot_copies (s : State) (cl slot event : Nat) : (s.countSlot cl slot event).copies = s.copies := by
  obtain ⟨cs, h⟩ := s.countSlot_fields cl slot event; rw [h]
@[simp] theorem State.countSlot_fill (s : State) (cl slot event : Nat) : (s.countSlot cl slot event).fill = s.fill := by
  obtain ⟨cs, h⟩ := s.countSlot_fields cl slot event; rw [h]
@[simp] theorem State.countSlot_compute (s : State) (cl slot event : Nat) : (s.countSlot cl slot event).compute = s.compute := by
  obtain ⟨cs, h⟩ := s.countSlot_fields cl slot event; rw [h]
@[simp] theorem State.countSlot_fab (s : State) (cl slot event : Nat) : (s.countSlot cl slot event).fab = s.fab := by
  obtain ⟨cs, h⟩ := s.countSlot_fields cl slot event; rw [h]
@[simp] theorem State.countSlot_lam (s : State) (cl slot event : Nat) : (s.countSlot cl slot event).lam = s.lam := by
  obtain ⟨cs, h⟩ := s.countSlot_fields cl slot event; rw [h]
@[simp] theorem State.countSlot_chip (s : State) (cl slot event : Nat) : (s.countSlot cl slot event).chip = s.chip := by
  obtain ⟨cs, h⟩ := s.countSlot_fields cl slot event; rw [h]
@[simp] theorem State.countSlot_msgs (s : State) (cl slot event : Nat) : (s.countSlot cl slot event).msgs = s.msgs := by
  obtain ⟨cs, h⟩ := s.countSlot_fields cl slot event; rw [h]
@[simp] theorem State.countSlot_tally (s : State) (cl slot event : Nat) : (s.countSlot cl slot event).tally = s.tally := by
  obtain ⟨cs, h⟩ := s.countSlot_fields cl slot event; rw [h]

@[simp] theorem State.stalled_clock (s : State) (c : Cx) : (s.stalled c).clock = s.clock := State.countSlot_clock _ _ _ _
@[simp] theorem State.stalled_uids (s : State) (c : Cx) : (s.stalled c).uids = s.uids := State.countSlot_uids _ _ _ _
@[simp] theorem State.stalled_nonce (s : State) (c : Cx) : (s.stalled c).nonce = s.nonce := State.countSlot_nonce _ _ _ _
@[simp] theorem State.stalled_schedule (s : State) (c : Cx) : (s.stalled c).schedule = s.schedule := State.countSlot_schedule _ _ _ _
@[simp] theorem State.stalled_cur (s : State) (c : Cx) : (s.stalled c).cur = s.cur := State.countSlot_cur _ _ _ _
@[simp] theorem State.stalled_groups (s : State) (c : Cx) : (s.stalled c).groups = s.groups := State.countSlot_groups _ _ _ _
@[simp] theorem State.stalled_tasks (s : State) (c : Cx) : (s.stalled c).tasks = s.tasks := State.countSlot_tasks _ _ _ _
@[simp] theorem State.stalled_vfs (s : State) (c : Cx) : (s.stalled c).vfs = s.vfs := State.countSlot_vfs _ _ _ _
@[simp] theorem State.stalled_ms (s : State) (c : Cx) : (s.stalled c).ms = s.ms := State.countSlot_ms _ _ _ _
@[simp] theorem State.stalled_hier (s : State) (c : Cx) : (s.stalled c).hier = s.hier := State.countSlot_hier _ _ _ _
@[simp] theorem State.stalled_icache (s : State) (c : Cx) : (s.stalled c).icache = s.icache := State.countSlot_icache _ _ _ _
@[simp] theorem State.stalled_copies (s : State) (c : Cx) : (s.stalled c).copies = s.copies := State.countSlot_copies _ _ _ _
@[simp] theorem State.stalled_fill (s : State) (c : Cx) : (s.stalled c).fill = s.fill := State.countSlot_fill _ _ _ _
@[simp] theorem State.stalled_compute (s : State) (c : Cx) : (s.stalled c).compute = s.compute := State.countSlot_compute _ _ _ _
@[simp] theorem State.stalled_fab (s : State) (c : Cx) : (s.stalled c).fab = s.fab := State.countSlot_fab _ _ _ _
@[simp] theorem State.stalled_lam (s : State) (c : Cx) : (s.stalled c).lam = s.lam := State.countSlot_lam _ _ _ _
@[simp] theorem State.stalled_chip (s : State) (c : Cx) : (s.stalled c).chip = s.chip := State.countSlot_chip _ _ _ _
@[simp] theorem State.stalled_msgs (s : State) (c : Cx) : (s.stalled c).msgs = s.msgs := State.countSlot_msgs _ _ _ _
@[simp] theorem State.stalled_tally (s : State) (c : Cx) : (s.stalled c).tally = s.tally := State.countSlot_tally _ _ _ _

/-- What a write at a home leaves: memory's bytes, the partials, the pins, the clock. -/
def State.Keeps (s t : State) : Prop :=
  t.ms.mem = s.ms.mem ∧ t.ms.partials = s.ms.partials ∧ t.ms.pins = s.ms.pins ∧ t.clock = s.clock

theorem State.Keeps.refl (s : State) : s.Keeps s := ⟨rfl, rfl, rfl, rfl⟩

theorem State.Keeps.trans {s t u : State} (h : s.Keeps t) (h' : t.Keeps u) : s.Keeps u :=
  ⟨h'.1.trans h.1, h'.2.1.trans h.2.1, h'.2.2.1.trans h.2.2.1, h'.2.2.2.trans h.2.2.2⟩

theorem State.spillLine_keeps (s : State) (vf : Nat) (x : SLine) : s.Keeps (s.spillLine vf x) := by
  unfold State.spillLine
  dsimp only
  split <;> exact ⟨rfl, rfl, rfl, rfl⟩

theorem State.fillSlice_keeps (s : State) (vf slice line arena : Nat) (kind : SliceKind) :
    s.Keeps (s.fillSlice vf slice line arena kind) := by
  unfold State.fillSlice
  split
  · exact (s.spillLine_keeps _ _).trans ⟨rfl, rfl, rfl, rfl⟩
  · exact ⟨rfl, rfl, rfl, rfl⟩

theorem State.soil_keeps (s : State) (line : Nat) : s.Keeps (s.soil line) := by
  unfold State.soil
  split <;> exact ⟨rfl, rfl, rfl, rfl⟩

theorem State.atHome_keeps (s : State) (vf arena pa : Nat) (write : Bool) : s.Keeps (s.atHome vf arena pa write) := by
  unfold State.atHome
  dsimp only
  split
  · split <;> exact ⟨rfl, rfl, rfl, rfl⟩
  · have h0 : s.Keeps ((s.countShared vf 0x101 1).countShared vf 0x104 1) := ⟨rfl, rfl, rfl, rfl⟩
    split
    · exact (h0.trans (State.soil_keeps _ _)).trans (State.fillSlice_keeps _ _ _ _ _ _)
    · split
      · exact h0
      · exact h0.trans (State.fillSlice_keeps _ _ _ _ _ _)

theorem State.writeHome_keeps (s : State) (cl : Option Nat) (vf arena line : Nat) : s.Keeps (s.writeHome cl vf arena line) :=
  (s.atHome_keeps vf arena (line * 128) true).trans ⟨rfl, rfl, rfl, rfl⟩

theorem State.writeLine_keeps (s : State) (cl : Option Nat) (vf arena line : Nat) : s.Keeps (s.writeLine cl vf arena line) := by
  unfold State.writeLine
  split
  · exact ⟨rfl, rfl, rfl, rfl⟩
  · exact s.writeHome_keeps _ _ _ _


/-! ### The passing of time -/

@[simp] theorem Group.tick_s (ws : List Walk) (n : Nat) (g : Group) : (g.tick ws n).s = g.s := rfl
@[simp] theorem Group.tick_sheaves (ws : List Walk) (n : Nat) (g : Group) : (g.tick ws n).sheaves = g.sheaves := rfl
@[simp] theorem Group.tick_outs (ws : List Walk) (n : Nat) (g : Group) : (g.tick ws n).outs = g.outs := rfl
@[simp] theorem Group.tick_launch (ws : List Walk) (n : Nat) (g : Group) : (g.tick ws n).launch = g.launch := rfl
@[simp] theorem Group.tick_uid (ws : List Walk) (n : Nat) (g : Group) : (g.tick ws n).uid = g.uid := rfl

end Sys2Proof.Machine
end

