-- ==== Sys2Proof/Laws/Memory.lean ====
section
/-! SUPPORT. Reading after writing in a memory, that every operation that writes memory keeps its canonical form, and the
little-endian values of bytes. -/

namespace Sys2Proof.Machine

namespace Memory

@[simp] theorem read_nil (a : Nat) : read [] a = unlisted := rfl
@[simp] theorem writeN_nil (m : Memory) (a : Nat) : writeN m a [] = m := rfl
theorem writeN_cons (m : Memory) (a : Nat) (x : Byte) (xs : List Byte) :
    writeN m a (x :: xs) = writeN (m.write a x) (a + 1) xs := rfl
@[simp] theorem readN_zero (m : Memory) (a : Nat) : readN m a 0 = [] := rfl
theorem readN_succ (m : Memory) (a n : Nat) : readN m a (n + 1) = m.read a :: readN m (a + 1) n := rfl

@[simp] theorem length_readN (m : Memory) (a n : Nat) : (readN m a n).length = n := by
  induction n generalizing a with
  | zero => rfl
  | succ n ih => simp [readN_succ, ih]

/-- A lower bound on the addresses of a canonical memory may be lowered. -/
theorem wfFrom_mono {lo lo' : Nat} (h : lo' ≤ lo) : ∀ {m : Memory}, wfFrom lo m = true → wfFrom lo' m = true
  | [], _ => rfl
  | (a, x) :: m, hm => by
    simp only [wfFrom, Bool.and_eq_true, decide_eq_true_eq] at hm ⊢
    exact ⟨⟨Nat.le_trans h hm.1.1, hm.1.2⟩, hm.2⟩

/-- Below its bound a canonical memory lists nothing. -/
theorem read_below {lo a : Nat} (h : a < lo) : ∀ {m : Memory}, wfFrom lo m = true → read m a = unlisted
  | [], _ => rfl
  | (b, x) :: m, hm => by
    simp only [wfFrom, Bool.and_eq_true, decide_eq_true_eq] at hm
    have hb : a ≠ b := by omega
    rw [read, if_neg hb]
    exact read_below (by omega : a < b + 1) hm.2

/-- A write keeps the canonical form. -/
theorem write_wfFrom {lo a : Nat} (x : Byte) (ha : lo ≤ a) :
    ∀ {m : Memory}, wfFrom lo m = true → wfFrom lo (write m a x) = true
  | [], _ => by
    by_cases hx : x = unlisted <;> simp [write, wfFrom, hx, ha]
  | (b, y) :: m, hm => by
    have hm' := hm
    simp only [wfFrom, Bool.and_eq_true, decide_eq_true_eq] at hm
    obtain ⟨⟨hb, hy⟩, ht⟩ := hm
    rw [write]
    split
    · next hab =>
      split
      · exact hm'
      · next hx =>
        simp only [wfFrom, Bool.and_eq_true, decide_eq_true_eq, bne_iff_ne]
        exact ⟨⟨ha, hx⟩, ⟨by omega, by simpa using hy⟩, ht⟩
    · split
      · next hab =>
        split
        · exact wfFrom_mono (by omega) ht
        · next hx =>
          simp only [wfFrom, Bool.and_eq_true, decide_eq_true_eq, bne_iff_ne]
          exact ⟨⟨ha, hx⟩, by rw [hab]; exact ht⟩
      · next h1 h2 =>
        simp only [wfFrom, Bool.and_eq_true, decide_eq_true_eq]
        exact ⟨⟨hb, hy⟩, write_wfFrom x (by omega) ht⟩

theorem write_wf {m : Memory} (a : Nat) (x : Byte) (h : wf m = true) : wf (write m a x) = true :=
  write_wfFrom x (Nat.zero_le a) h

/-- A write of several bytes keeps the canonical form. -/
theorem writeN_wf {m : Memory} (a : Nat) (xs : List Byte) (h : wf m = true) : wf (writeN m a xs) = true := by
  induction xs generalizing m a with
  | nil => exact h
  | cons x xs ih => exact ih (a + 1) (write_wf a x h)

/-- The byte written is the byte that is read. -/
theorem read_write_same {lo : Nat} (a : Nat) (x : Byte) :
    ∀ {m : Memory}, wfFrom lo m = true → read (write m a x) a = x
  | [], _ => by
    by_cases hx : x = unlisted <;> simp [write, read, hx]
  | (b, y) :: m, hm => by
    simp only [wfFrom, Bool.and_eq_true, decide_eq_true_eq] at hm
    obtain ⟨⟨_, _⟩, ht⟩ := hm
    rw [write]
    split
    · next hab =>
      split
      · next hx =>
        rw [read, if_neg (by omega), hx]
        exact read_below (by omega : a < b + 1) ht
      · simp [read]
    · split
      · next hab =>
        split
        · next hx =>
          rw [hx]
          exact read_below (by omega : a < b + 1) ht
        · simp [read]
      · next h1 h2 =>
        rw [read, if_neg h2]
        exact read_write_same a x ht

/-- A write leaves every other address as it was. -/
theorem read_write_other {lo a b : Nat} (x : Byte) (h : b ≠ a) :
    ∀ {m : Memory}, wfFrom lo m = true → read (write m a x) b = read m b
  | [], _ => by
    by_cases hx : x = unlisted <;> simp [write, read, hx, h]
  | (c, y) :: m, hm => by
    simp only [wfFrom, Bool.and_eq_true, decide_eq_true_eq] at hm
    obtain ⟨_, ht⟩ := hm
    rw [write]
    split
    · split
      · rfl
      · rw [read, if_neg h]
    · split
      · next hac =>
        have hbc : b ≠ c := hac ▸ h
        split
        · rw [read, if_neg hbc]
        · rw [read, if_neg h, read, if_neg hbc]
      · rw [read, read, read_write_other x h ht]

end Memory

/-! ### Bytes -/

@[simp] theorem length_natBytes (n x : Nat) : (natBytes n x).length = n := by
  induction n generalizing x with
  | zero => rfl
  | succ n ih => simp [natBytes, ih]

theorem leNat_natBytes (n x : Nat) : leNat (natBytes n x) = x % 256 ^ n := by
  induction n generalizing x with
  | zero => simp [natBytes, leNat, Nat.mod_one]
  | succ n ih =>
    have h8 : (BitVec.ofNat 8 x).toNat = x % 256 := BitVec.toNat_ofNat x 8
    have h : x % (256 * 256 ^ n) = x % 256 + 256 * (x / 256 % 256 ^ n) := Nat.mod_mul
    rw [natBytes, leNat, ih, h8, Nat.pow_succ, Nat.mul_comm (256 ^ n), h]

theorem leNat_lt : ∀ l : List Byte, leNat l < 256 ^ l.length
  | [] => by simp [leNat]
  | b :: bs => by
    have h := leNat_lt bs
    have hb := b.isLt
    rw [leNat, List.length_cons, Nat.pow_succ]
    omega

theorem natBytes_leNat : ∀ l : List Byte, natBytes l.length (leNat l) = l
  | [] => rfl
  | b :: bs => by
    have hb := b.isLt
    have h1 : (b.toNat + 256 * leNat bs) / 256 = leNat bs := by omega
    have h2 : BitVec.ofNat 8 (b.toNat + 256 * leNat bs) = b := by
      apply BitVec.eq_of_toNat_eq
      rw [BitVec.toNat_ofNat]
      omega
    rw [List.length_cons, leNat, natBytes, h1, h2, natBytes_leNat bs]

/-! ### The operations of the memory side -/

/-- Combining a line's partials keeps the canonical form (R170, R188). -/
theorem MemSide.combine_wf {m : MemSide} (line : Nat) (h : Memory.wf m.mem = true) :
    Memory.wf (m.combine line).mem = true := by
  have fold : ∀ (ps : List Partial) (a : Memory), Memory.wf a = true → Memory.wf (ps.foldl (fun a p =>
      if p.pa / 128 = line then
        Memory.writeN a p.pa (natBytes p.width (atomNew p.op p.ty (leNat (Memory.readN a p.pa p.width)) p.val 0))
      else a) a) = true := by
    intro ps
    induction ps with
    | nil => exact fun _ ha => ha
    | cons p ps ih =>
      intro a ha
      refine ih _ ?_
      dsimp only
      split
      · exact Memory.writeN_wf _ _ ha
      · exact ha
  unfold MemSide.combine
  split
  · exact h
  · exact fold _ _ h

/-- Without a partial of the line, combining changes no byte. -/
theorem MemSide.combine_mem {m : MemSide} {line : Nat} (h : ∀ p ∈ m.partials, p.pa / 128 ≠ line) :
    (m.combine line).mem = m.mem := by
  have fold : ∀ (ps : List Partial), (∀ p ∈ ps, p.pa / 128 ≠ line) → ∀ a : Memory, ps.foldl (fun a p =>
      if p.pa / 128 = line then
        Memory.writeN a p.pa (natBytes p.width (atomNew p.op p.ty (leNat (Memory.readN a p.pa p.width)) p.val 0))
      else a) a = a := by
    intro ps
    induction ps with
    | nil => exact fun _ _ => rfl
    | cons p ps ih =>
      intro hp a
      rw [List.foldl_cons, if_neg (hp p List.mem_cons_self)]
      exact ih (fun q hq => hp q (List.mem_cons_of_mem _ hq)) a
  unfold MemSide.combine
  split
  · rfl
  · exact fold _ h _

@[simp] theorem MemSide.noteDirty_mem (m : MemSide) (vf arena line : Nat) : (m.noteDirty vf arena line).mem = m.mem := by
  unfold MemSide.noteDirty
  split
  · rfl
  · split <;> rfl

@[simp] theorem MemSide.noteDirty_partials (m : MemSide) (vf arena line : Nat) :
    (m.noteDirty vf arena line).partials = m.partials := by
  unfold MemSide.noteDirty
  split
  · rfl
  · split <;> rfl

@[simp] theorem MemSide.noteRefused_mem (m : MemSide) (line who : Nat) (k : Key) : (m.noteRefused line who k).mem = m.mem := by
  unfold MemSide.noteRefused
  split <;> rfl

@[simp] theorem MemSide.served_mem (m : MemSide) (who : Nat) (k : Key) : (m.served who k).mem = m.mem := rfl
@[simp] theorem MemSide.served_partials (m : MemSide) (who : Nat) (k : Key) : (m.served who k).partials = m.partials := rfl
@[simp] theorem MemSide.served_pins (m : MemSide) (who : Nat) (k : Key) : (m.served who k).pins = m.pins := rfl

@[simp] theorem MemSide.noteDirty_pins (m : MemSide) (vf arena line : Nat) : (m.noteDirty vf arena line).pins = m.pins := by
  unfold MemSide.noteDirty
  split
  · rfl
  · split <;> rfl

@[simp] theorem MemSide.combine_pins (m : MemSide) (line : Nat) : (m.combine line).pins = m.pins := by
  unfold MemSide.combine
  split <;> rfl

theorem MemSide.combine_partials {m : MemSide} {line : Nat} (h : ∀ p ∈ m.partials, p.pa / 128 ≠ line) :
    (m.combine line).partials = m.partials := by
  unfold MemSide.combine
  split
  · rfl
  · exact List.filter_eq_self.mpr fun p hp => by simpa using h p hp

theorem MemSide.combine_pinned {m : MemSide} {line : Nat} (h : m.pins.any (fun p => p.line = line) = true) :
    m.combine line = m := by
  unfold MemSide.combine
  rw [if_pos h]

/-- Combining a line leaves no new partial. -/
theorem MemSide.mem_combine_partials {m : MemSide} {line : Nat} {p : Partial} (h : p ∈ (m.combine line).partials) :
    p ∈ m.partials := by
  unfold MemSide.combine at h
  split at h
  · exact h
  · exact (List.mem_filter.mp h).1

/-! ### Loads and stores at the home -/

theorem State.notePartials_keeps (line : Nat) : ∀ (ps : List Partial) (s : State), s.Keeps (s.notePartials line ps)
  | [], s => State.Keeps.refl s
  | p :: ps, s => by
    have h : s.Keeps ({ s with ms := s.ms.noteDirty p.vf p.arena line }.countShared p.vf 0x103 1) :=
      ⟨MemSide.noteDirty_mem _ _ _ _, MemSide.noteDirty_partials _ _ _ _, MemSide.noteDirty_pins _ _ _ _, rfl⟩
    exact h.trans (State.notePartials_keeps line ps _)

/-- WHAT A RECALL DOES (R170, R188): memory and the partials as combining leaves them; the pins and the clock stay. -/
theorem State.recall_ms (s : State) (line : Nat) :
    (s.recall line).ms.mem = (s.ms.combine line).mem ∧ (s.recall line).ms.partials = (s.ms.combine line).partials
      ∧ (s.recall line).ms.pins = s.ms.pins ∧ (s.recall line).clock = s.clock := by
  unfold State.recall
  dsimp only
  split
  · next h =>
    refine ⟨?_, ?_, rfl, rfl⟩ <;>
    · unfold MemSide.recallable at h
      split at h
      · next hp => rw [MemSide.combine_pinned hp]
      · have hn : ∀ p ∈ s.ms.partials, p.pa / 128 ≠ line := fun p hp he => by
          have hm : p ∈ s.ms.partials.filter fun p => p.pa / 128 = line := List.mem_filter.mpr ⟨hp, decide_eq_true he⟩
          rw [List.getLast?_eq_none_iff.mp h] at hm
          exact absurd hm List.not_mem_nil
        first
        | exact (MemSide.combine_mem hn).symm
        | exact (MemSide.combine_partials hn).symm
  · next p h =>
    have hk := State.notePartials_keeps line (s.ms.recallable line) s
    have hw := State.writeHome_keeps { (s.notePartials line (s.ms.recallable line)) with
      ms := (s.notePartials line (s.ms.recallable line)).ms.combine line
      hier := (s.notePartials line (s.ms.recallable line)).hier.recalled line } none p.vf p.arena line
    have hc : (((s.notePartials line (s.ms.recallable line)).ms.combine line).mem = (s.ms.combine line).mem)
        ∧ (((s.notePartials line (s.ms.recallable line)).ms.combine line).partials = (s.ms.combine line).partials) := by
      unfold MemSide.combine
      rw [hk.1, hk.2.1, hk.2.2.1]
      split
      · exact ⟨hk.1, hk.2.1⟩
      · exact ⟨rfl, rfl⟩
    refine ⟨hw.1.trans hc.1, hw.2.1.trans hc.2, hw.2.2.1.trans ?_, hw.2.2.2.trans hk.2.2.2⟩
    exact (MemSide.combine_pins _ _).trans hk.2.2.1

/-- A recall keeps the canonical form and the place of partials. -/
theorem State.recall_memOk {s : State} (line : Nat) (h : s.MemOk) : (s.recall line).MemOk := by
  obtain ⟨hm, hp, -, -⟩ := s.recall_ms line
  unfold State.MemOk
  rw [hm, hp]
  exact ⟨MemSide.combine_wf _ h.1, fun p hp => h.2 p (MemSide.mem_combine_partials hp)⟩

/-- A load keeps the canonical form. -/
theorem State.load_memOk {s : State} (pa n : Nat) (h : s.MemOk) : (s.load pa n).1.MemOk := State.recall_memOk _ h

/-- A load of a line without partials gives the bytes there and changes none. -/
theorem State.load_bytes {s : State} {pa : Nat} (n : Nat) (h : ∀ p ∈ s.ms.partials, p.pa / 128 ≠ pa / 128) :
    (s.load pa n).2 = Memory.readN s.ms.mem pa n ∧ (s.load pa n).1.ms.mem = s.ms.mem := by
  have hm := (s.recall_ms (pa / 128)).1.trans (MemSide.combine_mem h)
  exact ⟨by simp only [State.load]; rw [hm], hm⟩

/-- What a store does to memory and to the partials: nothing to an ERRORED line (R376), else the bytes after a recall. -/
theorem State.store_ms (s : State) (cl : Option Nat) (vf arena pa : Nat) (bytes : List Byte) :
    (s.store cl vf arena pa bytes).ms.mem = (if s.ms.errored.contains (pa / 128) then s.ms.mem
        else Memory.writeN (s.recall (pa / 128)).ms.mem pa bytes)
      ∧ (s.store cl vf arena pa bytes).ms.partials = (if s.ms.errored.contains (pa / 128) then s.ms.partials
        else (s.recall (pa / 128)).ms.partials) := by
  unfold State.store
  dsimp only
  split
  · exact ⟨rfl, rfl⟩
  · have hw (u : State) := State.writeLine_keeps u cl vf arena (pa / 128)
    refine ⟨(hw _).1.trans ?_, (hw _).2.1.trans ?_⟩
    · exact congrArg (fun m => Memory.writeN m pa bytes) (MemSide.noteDirty_mem _ _ _ _)
    · exact MemSide.noteDirty_partials _ _ _ _

/-- A store keeps the canonical form. -/
theorem State.store_memOk {s : State} (cl : Option Nat) (vf arena pa : Nat) (bytes : List Byte) (h : s.MemOk) :
    (s.store cl vf arena pa bytes).MemOk := by
  have hr := State.recall_memOk (pa / 128) h
  obtain ⟨hm, hp⟩ := s.store_ms cl vf arena pa bytes
  unfold State.MemOk
  rw [hm, hp]
  split
  · exact h
  · exact ⟨Memory.writeN_wf _ _ hr.1, hr.2⟩

/-- A store to a line without an error or a partial puts its bytes there. -/
theorem State.store_mem {s : State} {pa : Nat} (cl : Option Nat) (vf arena : Nat) (bytes : List Byte)
    (he : s.ms.errored.contains (pa / 128) = false) (h : ∀ p ∈ s.ms.partials, p.pa / 128 ≠ pa / 128) :
    (s.store cl vf arena pa bytes).ms.mem = Memory.writeN s.ms.mem pa bytes := by
  rw [(s.store_ms cl vf arena pa bytes).1, if_neg (by rw [he]; exact Bool.false_ne_true), (s.recall_ms _).1,
    MemSide.combine_mem h]

/-- A byte of the device's write keeps the canonical form, whether it performs or waits for a pin. -/
theorem State.putAs_memOk {s : State} (who : Option (Nat × Nat)) (vf arena pa : Nat) (b : Byte) (h : s.MemOk) :
    (s.putAs who vf arena pa b).MemOk := by
  unfold State.putAs
  split
  · exact h
  · split
    · exact h
    · exact State.store_memOk _ _ _ _ _ h

/-- The device's write keeps the canonical form. -/
theorem State.devWrite_memOk {s : State} (vf va : Nat) (bytes : List Byte) (h : s.MemOk) :
    (s.devWrite vf va bytes).MemOk := by
  unfold State.devWrite
  induction bytes generalizing s va with
  | nil => exact h
  | cons b bs ih =>
    rw [State.writeAs]
    refine ih _ ?_
    split
    · exact State.putAs_memOk _ _ _ _ _ h
    · exact h

/-- A TCB field's write keeps the canonical form. -/
theorem State.tcbPut_memOk {s : State} (vf i off n x : Nat) (h : s.MemOk) : (s.tcbPut vf i off n x).MemOk :=
  State.devWrite_memOk _ _ _ h

/-! ### The view of a byte -/

/-- Where no partial stands on a byte's line, the byte is the one in memory. -/
theorem State.byte_raw {s : State} {a : Nat} (h : ∀ p ∈ s.ms.partials, p.pa / 128 ≠ a / 128) :
    s.byte a = Memory.read s.ms.mem a := by
  unfold State.byte
  rw [MemSide.combine_mem (m := { s.ms with pins := [] }) h]

/-- The byte seen depends on the memory side alone. -/
theorem State.byte_congr {s t : State} (h : t.ms = s.ms) (a : Nat) : t.byte a = s.byte a := by
  unfold State.byte
  rw [h]

/-- The memory after the partials of a list that lie in a line. -/
def combined (line : Nat) (ps : List Partial) (m : Memory) : Memory :=
  ps.foldl (fun a p =>
    if p.pa / 128 = line then
      Memory.writeN a p.pa (natBytes p.width (atomNew p.op p.ty (leNat (Memory.readN a p.pa p.width)) p.val 0))
    else a) m

theorem combined_cons (line : Nat) (p : Partial) (ps : List Partial) (m : Memory) :
    combined line (p :: ps) m = combined line ps (if p.pa / 128 = line then
      Memory.writeN m p.pa (natBytes p.width (atomNew p.op p.ty (leNat (Memory.readN m p.pa p.width)) p.val 0)) else m) := rfl

theorem State.byte_eq (s : State) (a : Nat) : s.byte a = Memory.read (combined (a / 128) s.ms.partials s.ms.mem) a := rfl

/-- Pins change no byte that is seen. -/
theorem State.byte_pins {s t : State} (hm : t.ms.mem = s.ms.mem) (hp : t.ms.partials = s.ms.partials) (a : Nat) :
    t.byte a = s.byte a := by
  rw [State.byte_eq, State.byte_eq, hm, hp]

theorem MemSide.combine_free {m : MemSide} {line : Nat} (h : ¬ m.pins.any (fun p => p.line = line) = true) :
    (m.combine line).mem = combined line m.partials m.mem
      ∧ (m.combine line).partials = m.partials.filter fun p => p.pa / 128 != line := by
  unfold MemSide.combine
  rw [if_neg h]
  exact ⟨rfl, rfl⟩

/-- Reading several bytes looks at those bytes alone. -/
theorem Memory.readN_congr {m m' : Memory} {a n : Nat} (h : ∀ b, a ≤ b → b < a + n → read m b = read m' b) :
    readN m a n = readN m' a n := by
  induction n generalizing a with
  | zero => rfl
  | succ n ih =>
    rw [readN_succ, readN_succ, h a (by omega) (by omega), ih fun b h1 h2 => h b (by omega) (by omega)]

/-- What a byte reads as after the same bytes have been written to two memories. -/
theorem Memory.read_writeN_congr {m m' : Memory} (hm : wf m = true) (hm' : wf m' = true) {b : Nat} (a : Nat)
    (xs : List Byte) (h : read m b = read m' b) : read (writeN m a xs) b = read (writeN m' a xs) b := by
  induction xs generalizing m m' a with
  | nil => exact h
  | cons x xs ih =>
    rw [writeN_cons, writeN_cons]
    refine ih (write_wf a x hm) (write_wf a x hm') (a + 1) ?_
    by_cases hb : b = a
    · subst hb
      rw [read_write_same b x hm, read_write_same b x hm']
    · rw [read_write_other x hb hm, read_write_other x hb hm', h]

/-- A byte outside the bytes written reads as before. -/
theorem Memory.read_writeN_other {m : Memory} (hm : wf m = true) {b : Nat} (a : Nat) (xs : List Byte)
    (h : b < a ∨ a + xs.length ≤ b) : read (writeN m a xs) b = read m b := by
  induction xs generalizing m a with
  | nil => rfl
  | cons x xs ih =>
    rw [List.length_cons] at h
    rw [writeN_cons, ih (write_wf a x hm) (a + 1) (by omega), read_write_other x (by omega) hm]

theorem combined_wf (line : Nat) (ps : List Partial) {m : Memory} (h : Memory.wf m = true) :
    Memory.wf (combined line ps m) = true := by
  induction ps generalizing m with
  | nil => exact h
  | cons p ps ih =>
    rw [combined_cons]
    refine ih ?_
    split
    · exact Memory.writeN_wf _ _ h
    · exact h

/-- Combining a line changes no byte of another. -/
theorem combined_other {line : Nat} {ps : List Partial} (hp : ∀ p ∈ ps, p.pa % 128 + p.width ≤ 128) {m : Memory}
    (h : Memory.wf m = true) {b : Nat} (hb : b / 128 ≠ line) : Memory.read (combined line ps m) b = Memory.read m b := by
  induction ps generalizing m with
  | nil => rfl
  | cons p ps ih =>
    have hq := hp p List.mem_cons_self
    rw [combined_cons, ih fun q hq => hp q (List.mem_cons_of_mem _ hq)]
    · split
      · next hl =>
        refine Memory.read_writeN_other h _ _ ?_
        rw [length_natBytes]
        omega
      · rfl
    · split
      · exact Memory.writeN_wf _ _ h
      · exact h

/-- Two memories that agree on a line agree on it once its partials are combined. -/
theorem combined_congr {line : Nat} {ps : List Partial} (hp : ∀ p ∈ ps, p.pa % 128 + p.width ≤ 128) {m m' : Memory}
    (hm : Memory.wf m = true) (hm' : Memory.wf m' = true)
    (h : ∀ b, b / 128 = line → Memory.read m b = Memory.read m' b) {b : Nat} (hb : b / 128 = line) :
    Memory.read (combined line ps m) b = Memory.read (combined line ps m') b := by
  induction ps generalizing m m' with
  | nil => exact h b hb
  | cons p ps ih =>
    have hq := hp p List.mem_cons_self
    have hps : ∀ q ∈ ps, q.pa % 128 + q.width ≤ 128 := fun q hq => hp q (List.mem_cons_of_mem _ hq)
    rw [combined_cons, combined_cons]
    split
    · next hl =>
      have hr : Memory.readN m p.pa p.width = Memory.readN m' p.pa p.width :=
        Memory.readN_congr fun b h1 h2 => h b (by omega)
      rw [hr]
      exact ih hps (Memory.writeN_wf _ _ hm) (Memory.writeN_wf _ _ hm') fun b hb => Memory.read_writeN_congr hm hm' _ _ (h b hb)
    · exact ih hps hm hm' h

/-- The partials of other lines do not enter. -/
theorem combined_filter {line line' : Nat} (h : line' ≠ line) (ps : List Partial) (m : Memory) :
    combined line' (ps.filter fun p => p.pa / 128 != line) m = combined line' ps m := by
  induction ps generalizing m with
  | nil => rfl
  | cons p ps ih =>
    by_cases hl : p.pa / 128 = line
    · have hne : ¬ p.pa / 128 = line' := fun e => h (e.symm.trans hl)
      rw [List.filter_cons_of_neg (by simpa using hl), ih, combined_cons, if_neg hne]
    · rw [List.filter_cons_of_pos (by simpa using hl), combined_cons, combined_cons, ih]

/-- A RECALL CHANGES NO BYTE THAT IS SEEN (R188). -/
theorem State.recall_byte {s : State} (line a : Nat) (h : s.MemOk) : (s.recall line).byte a = s.byte a := by
  obtain ⟨hm, hq, -, -⟩ := s.recall_ms line
  rw [State.byte_eq, State.byte_eq, hm, hq]
  by_cases hp : s.ms.pins.any (fun p => p.line = line) = true
  · rw [MemSide.combine_pinned hp]
  · obtain ⟨hmem, hpart⟩ := MemSide.combine_free hp
    rw [hmem, hpart]
    by_cases hl : a / 128 = line
    · subst hl
      have none_left : ∀ (ps : List Partial) (m : Memory),
          combined (a / 128) (ps.filter fun p => p.pa / 128 != a / 128) m = m := by
        intro ps
        induction ps with
        | nil => exact fun _ => rfl
        | cons p ps ih =>
          intro m
          by_cases hp : p.pa / 128 = a / 128
          · rw [List.filter_cons_of_neg (by simpa using hp), ih]
          · rw [List.filter_cons_of_pos (by simpa using hp), combined_cons, if_neg hp, ih]
      rw [none_left]
    · rw [combined_filter hl]
      exact combined_congr h.2 (combined_wf _ _ h.1) h.1
        (fun b hb => combined_other h.2 h.1 (by rw [hb]; exact hl)) rfl

end Sys2Proof.Machine
end

