-- ==== Sys2Proof/Laws/Issue.lean ====
section
/-! SUPPORT. What issuing an instruction can do, said once: the outcome of `issue` by its cases, and, where the issue is
ready, the outcome by the act of its meaning; what the closing of an instruction leaves of memory; and how registers read
after a change of one group and after time. -/

namespace Sys2Proof.Machine

/-! ### Registers after a change of a group -/

theorem State.thr_of_groups {s t : State} {gi : Nat} {k : Key} {f : Group → Group}
    (h : t.groups[gi]? = (s.groups[gi]?).map f) (hf : ∀ g, (f g).find k = g.find k) : t.thr gi k = s.thr gi k := by
  unfold State.thr
  rw [h]
  cases s.groups[gi]? with
  | none => rfl
  | some g => exact hf g

/-- Where a change of a group keeps a thread's registers and the group's S registers, they read as before. -/
theorem State.reg_of_groups {s t : State} {gi : Nat} {k : Key} {f : Group → Group}
    (h : t.groups[gi]? = (s.groups[gi]?).map f) (hf : ∀ g, (f g).find k = g.find k) (hs : ∀ g, (f g).s = g.s) (r : Reg) :
    t.reg gi k r = s.reg gi k r := by
  have ht := State.thr_of_groups h hf
  cases r with
  | v i => simp only [State.reg]; rw [ht]
  | p i => simp only [State.reg]; rw [ht]
  | s i =>
    simp only [State.reg]
    rw [h]
    cases s.groups[gi]? with
    | none => rfl
    | some g => simp [hs]

@[simp] theorem State.gap_reg (s : State) (gi : Nat) (k : Key) (r : Reg) : s.gap.reg gi k r = s.reg gi k r := rfl
@[simp] theorem State.gap_byte (s : State) (a : Nat) : s.gap.byte a = s.byte a := rfl

/-- The mark of an issue changes no register and no byte. -/
@[simp] theorem State.mark_reg (s : State) (c : Cx) (gi : Nat) (k : Key) (r : Reg) : (s.mark c).reg gi k r = s.reg gi k r :=
  State.reg_of_groups (f := id) (by simp) (fun _ => rfl) (fun _ => rfl) r
@[simp] theorem State.mark_byte (s : State) (c : Cx) (a : Nat) : (s.mark c).byte a = s.byte a := rfl

/-- A stall changes no register and no byte. -/
@[simp] theorem State.stalled_reg (s : State) (c : Cx) (gi : Nat) (k : Key) (r : Reg) :
    (s.stalled c).reg gi k r = s.reg gi k r :=
  State.reg_of_groups (f := id) (by simp) (fun _ => rfl) (fun _ => rfl) r
@[simp] theorem State.stalled_byte (s : State) (c : Cx) (a : Nat) : (s.stalled c).byte a = s.byte a :=
  State.byte_congr (by simp) a

/-- A change of one group leaves the registers of the others. -/
theorem State.setGroup_reg_other (s : State) {i gi : Nat} (f : Group → Group) (h : i ≠ gi) (k : Key) (r : Reg) :
    (s.setGroup i f).reg gi k r = s.reg gi k r :=
  State.reg_of_groups (f := id) (by rw [State.setGroup_get, if_neg h, Option.map_id, id]) (fun _ => rfl) (fun _ => rfl) r

/-! ### The closing of an instruction -/

@[simp] theorem State.fallThrough_ms (s : State) (gi si : Nat) (pc : Addr) : (s.fallThrough gi si pc).ms = s.ms := by
  unfold State.fallThrough
  split
  · rfl
  · split <;> rfl

@[simp] theorem State.advance_ms (s : State) (c : Cx) : (s.advance c).ms = s.ms := by
  unfold State.advance
  dsimp only
  split
  · rfl
  · rw [State.fallThrough_ms, State.setSheaf_ms]

/-- An act that goes on, stays or moves leaves memory as its own state has it. -/
theorem Act.close_done_ms (c : Cx) (s s' : State) : ((Act.done s').close c s).ms = s'.ms := by
  simp only [Act.close, State.tidy_ms, State.advance_ms, State.countIssue_ms]

theorem Act.close_moved_ms (c : Cx) (s s' : State) : ((Act.moved s').close c s).ms = s'.ms := by
  simp only [Act.close, State.tidy_ms, State.countIssue_ms]

/-! ### The issue of an instruction -/

/-- What a ready issue gives, by the act of the meaning. -/
def Act.outcome (c : Cx) (s : State) : Act → State
  | .fault fs => ((s.countIssue c).mark c).faulted c fs
  | .stay s' => s'
  | a => (a.close c s).mark c

/-- The context of a ready issue is that of the current sheaf. -/
theorem State.ready_cx {s : State} {word : Word} {len : Nat} {o : Op} {e : Ext} {c : Cx}
    (h : s.ready word len o e = some c) : s.cx word len o e = some c := by
  unfold State.ready at h
  split at h
  · exact absurd h (by simp)
  · next x hx =>
    split at h
    · rw [hx, h]
    · exact absurd h (by simp)

/-- A READY ISSUE ANSWERS A NEXT STATE, which the act of its meaning decides. -/
theorem issue_ready {s : State} {word : Word} {len : Nat} {o : Op} {e : Ext} {c : Cx} (body : Cx → State → Act)
    (h : s.ready word len o e = some c) : issue word len o e s body = .next ((body c s).outcome c s) := by
  unfold State.ready at h
  unfold issue
  split at h
  · exact absurd h (by simp)
  · next x hx =>
    split at h
    · next hc =>
      cases h
      simp only [Bool.and_eq_true, Bool.or_eq_true, Bool.not_eq_true', decide_eq_true_eq] at hc
      obtain ⟨⟨⟨⟨⟨ha, he⟩, hf⟩, hst⟩, hea⟩, hch⟩ := hc
      have h1 : ¬ (!allocOk c.g o e) = true := by simp [ha]
      have h2 : ¬ (o.endsClause && decide (c.sh.idx < c.sh.hdr.count.toNat)) = true := by
        simp only [Bool.and_eq_true, decide_eq_true_eq, not_and, Nat.not_lt]
        intro ho
        cases he with
        | inl h => rw [ho] at h; exact absurd h (by simp)
        | inr h => exact h
      have h3 : ¬ (e.flag != 15 && e.flag != c.sh.hdr.set1 && e.flag != c.sh.hdr.set2) = true := by
        simp only [Bool.and_eq_true, bne_iff_ne, not_and, not_not]
        simp only [beq_iff_eq] at hf
        tauto
      have h4 : c.todo.filterMap (fun t => (c.early t).map fun f => (t.key, f)) = [] := by
        rw [List.filterMap_eq_nil_iff]
        intro t ht
        have := List.all_eq_true.mp hea t ht
        rw [Option.isNone_iff_eq_none] at this
        rw [this]; rfl
      try rw [hx]
      try dsimp only
      rw [if_neg h1, if_neg h2, if_neg h3, if_neg (by simp [hst]), h4]
      simp only [List.isEmpty_nil, Bool.not_true, Bool.false_eq_true, if_false]
      have hc : c.charged = [] := List.isEmpty_iff.mp hch
      cases body c s <;> simp [Act.outcome, Cx.chargedFirst, hc, State.noteN]
    · exact absurd h (by simp)

/-- Where a sheaf issues, an issue answers a next state. -/
theorem issue_next {s : State} {word : Word} {len : Nat} {o : Op} {e : Ext} {c : Cx} (body : Cx → State → Act)
    (h : s.cx word len o e = some c) : ∃ t, issue word len o e s body = .next t := by
  unfold issue
  rw [h]
  dsimp only
  split
  · exact ⟨_, rfl⟩
  · split
    · exact ⟨_, rfl⟩
    · split
      · exact ⟨_, rfl⟩
      · split
        · exact ⟨_, rfl⟩
        · split
          · exact ⟨_, rfl⟩
          · split
            · exact ⟨_, rfl⟩
            · split
              · exact ⟨_, rfl⟩
              · split <;> exact ⟨_, rfl⟩

/-- Without a sheaf that issues, an issue is refused. -/
theorem issue_refused {s : State} {word : Word} {len : Nat} {o : Op} {e : Ext} (body : Cx → State → Act)
    (h : s.cx word len o e = none) : issue word len o e s body = .refused .noIssuingSheaf := by
  unfold issue
  rw [h]

/-- `issue_ready` for the extended form. -/
theorem issueE_ready {s : State} {o : Op} {e : Ext} {c : Cx} (body : Cx → State → Act) (h : s.readyE o e = some c) :
    issueE o e s body = .next ((body c s).outcome c s) := issue_ready body h

/-- `issue_ready` for the base form. -/
theorem issueB_ready {s : State} {major : Nat} {o : Op} {b : Base} {ty : BitVec 4} {addend : Bool} {c : Cx}
    (body : Cx → State → Act) (h : s.readyB major o b ty addend = some c) :
    issueB major o b ty addend s body = .next ((body c s).outcome c s) := issue_ready body h

end Sys2Proof.Machine
end

