-- ==== Sys2Proof/Laws/PerInstr.lean ====
section
/-! SUPPORT. For each constructor of `Instr`: it is one of a clause header, a base word, an extended instruction and an
event, the extended instruction of its operation and fields is that instruction again, and an event has no words. -/

namespace Sys2Proof.Laws.Codec

open Sys2Proof

/-- An instruction with an operation and fields is the one they name; one with a base word is no extended instruction; an
event has no words. -/
def Statement (i : Instr) : Prop :=
  (∀ o e, i.asExt = some (o, e) → Instr.ofOp o e = i ∧ i.asBase = none) ∧ (i.isEvent = true → encode i = [])

theorem runClause (h : Header) : Statement (.runClause h) := ⟨fun _ _ h => (nomatch h), fun h => nomatch h⟩
theorem addBase (b : Base) : Statement (.addBase b) := ⟨fun _ _ h => (nomatch h), fun h => nomatch h⟩
theorem subBase (b : Base) : Statement (.subBase b) := ⟨fun _ _ h => (nomatch h), fun h => nomatch h⟩
theorem mulBase (b : Base) : Statement (.mulBase b) := ⟨fun _ _ h => (nomatch h), fun h => nomatch h⟩
theorem andBase (b : Base) : Statement (.andBase b) := ⟨fun _ _ h => (nomatch h), fun h => nomatch h⟩
theorem orBase (b : Base) : Statement (.orBase b) := ⟨fun _ _ h => (nomatch h), fun h => nomatch h⟩
theorem xorBase (b : Base) : Statement (.xorBase b) := ⟨fun _ _ h => (nomatch h), fun h => nomatch h⟩
theorem andnBase (b : Base) : Statement (.andnBase b) := ⟨fun _ _ h => (nomatch h), fun h => nomatch h⟩
theorem shlBase (b : Base) : Statement (.shlBase b) := ⟨fun _ _ h => (nomatch h), fun h => nomatch h⟩
theorem shrlBase (b : Base) : Statement (.shrlBase b) := ⟨fun _ _ h => (nomatch h), fun h => nomatch h⟩
theorem shraBase (b : Base) : Statement (.shraBase b) := ⟨fun _ _ h => (nomatch h), fun h => nomatch h⟩
theorem minI32Base (b : Base) : Statement (.minI32Base b) := ⟨fun _ _ h => (nomatch h), fun h => nomatch h⟩
theorem maxI32Base (b : Base) : Statement (.maxI32Base b) := ⟨fun _ _ h => (nomatch h), fun h => nomatch h⟩
theorem minN32Base (b : Base) : Statement (.minN32Base b) := ⟨fun _ _ h => (nomatch h), fun h => nomatch h⟩
theorem maxN32Base (b : Base) : Statement (.maxN32Base b) := ⟨fun _ _ h => (nomatch h), fun h => nomatch h⟩
theorem faddBase (b : Base) : Statement (.faddBase b) := ⟨fun _ _ h => (nomatch h), fun h => nomatch h⟩
theorem fsubBase (b : Base) : Statement (.fsubBase b) := ⟨fun _ _ h => (nomatch h), fun h => nomatch h⟩
theorem fmulBase (b : Base) : Statement (.fmulBase b) := ⟨fun _ _ h => (nomatch h), fun h => nomatch h⟩
theorem fminBase (b : Base) : Statement (.fminBase b) := ⟨fun _ _ h => (nomatch h), fun h => nomatch h⟩
theorem fmaxBase (b : Base) : Statement (.fmaxBase b) := ⟨fun _ _ h => (nomatch h), fun h => nomatch h⟩
theorem ffmaBase (b : Base) : Statement (.ffmaBase b) := ⟨fun _ _ h => (nomatch h), fun h => nomatch h⟩
theorem pfmaBf16x2Base (b : Base) : Statement (.pfmaBf16x2Base b) := ⟨fun _ _ h => (nomatch h), fun h => nomatch h⟩
theorem pfmaF16x2Base (b : Base) : Statement (.pfmaF16x2Base b) := ⟨fun _ _ h => (nomatch h), fun h => nomatch h⟩
theorem madBase (b : Base) : Statement (.madBase b) := ⟨fun _ _ h => (nomatch h), fun h => nomatch h⟩
theorem rotBase (b : Base) : Statement (.rotBase b) := ⟨fun _ _ h => (nomatch h), fun h => nomatch h⟩
theorem add (e : Ext) : Statement (.add e) := ⟨fun _ _ h => by cases h; exact ⟨rfl, rfl⟩, fun h => nomatch h⟩
theorem sub (e : Ext) : Statement (.sub e) := ⟨fun _ _ h => by cases h; exact ⟨rfl, rfl⟩, fun h => nomatch h⟩
theorem mul (e : Ext) : Statement (.mul e) := ⟨fun _ _ h => by cases h; exact ⟨rfl, rfl⟩, fun h => nomatch h⟩
theorem mulh (e : Ext) : Statement (.mulh e) := ⟨fun _ _ h => by cases h; exact ⟨rfl, rfl⟩, fun h => nomatch h⟩
theorem mad (e : Ext) : Statement (.mad e) := ⟨fun _ _ h => by cases h; exact ⟨rfl, rfl⟩, fun h => nomatch h⟩
theorem div (e : Ext) : Statement (.div e) := ⟨fun _ _ h => by cases h; exact ⟨rfl, rfl⟩, fun h => nomatch h⟩
theorem min (e : Ext) : Statement (.min e) := ⟨fun _ _ h => by cases h; exact ⟨rfl, rfl⟩, fun h => nomatch h⟩
theorem max (e : Ext) : Statement (.max e) := ⟨fun _ _ h => by cases h; exact ⟨rfl, rfl⟩, fun h => nomatch h⟩
theorem abs (e : Ext) : Statement (.abs e) := ⟨fun _ _ h => by cases h; exact ⟨rfl, rfl⟩, fun h => nomatch h⟩
theorem neg (e : Ext) : Statement (.neg e) := ⟨fun _ _ h => by cases h; exact ⟨rfl, rfl⟩, fun h => nomatch h⟩
theorem lea (e : Ext) : Statement (.lea e) := ⟨fun _ _ h => by cases h; exact ⟨rfl, rfl⟩, fun h => nomatch h⟩
theorem cmp (e : Ext) : Statement (.cmp e) := ⟨fun _ _ h => by cases h; exact ⟨rfl, rfl⟩, fun h => nomatch h⟩
theorem sel (e : Ext) : Statement (.sel e) := ⟨fun _ _ h => by cases h; exact ⟨rfl, rfl⟩, fun h => nomatch h⟩
theorem mov (e : Ext) : Statement (.mov e) := ⟨fun _ _ h => by cases h; exact ⟨rfl, rfl⟩, fun h => nomatch h⟩
theorem movi (e : Ext) : Statement (.movi e) := ⟨fun _ _ h => by cases h; exact ⟨rfl, rfl⟩, fun h => nomatch h⟩
theorem cvti (e : Ext) : Statement (.cvti e) := ⟨fun _ _ h => by cases h; exact ⟨rfl, rfl⟩, fun h => nomatch h⟩
theorem and (e : Ext) : Statement (.and e) := ⟨fun _ _ h => by cases h; exact ⟨rfl, rfl⟩, fun h => nomatch h⟩
theorem or (e : Ext) : Statement (.or e) := ⟨fun _ _ h => by cases h; exact ⟨rfl, rfl⟩, fun h => nomatch h⟩
theorem xor (e : Ext) : Statement (.xor e) := ⟨fun _ _ h => by cases h; exact ⟨rfl, rfl⟩, fun h => nomatch h⟩
theorem andn (e : Ext) : Statement (.andn e) := ⟨fun _ _ h => by cases h; exact ⟨rfl, rfl⟩, fun h => nomatch h⟩
theorem not (e : Ext) : Statement (.not e) := ⟨fun _ _ h => by cases h; exact ⟨rfl, rfl⟩, fun h => nomatch h⟩
theorem shl (e : Ext) : Statement (.shl e) := ⟨fun _ _ h => by cases h; exact ⟨rfl, rfl⟩, fun h => nomatch h⟩
theorem shrl (e : Ext) : Statement (.shrl e) := ⟨fun _ _ h => by cases h; exact ⟨rfl, rfl⟩, fun h => nomatch h⟩
theorem shra (e : Ext) : Statement (.shra e) := ⟨fun _ _ h => by cases h; exact ⟨rfl, rfl⟩, fun h => nomatch h⟩
theorem rot (e : Ext) : Statement (.rot e) := ⟨fun _ _ h => by cases h; exact ⟨rfl, rfl⟩, fun h => nomatch h⟩
theorem bfe (e : Ext) : Statement (.bfe e) := ⟨fun _ _ h => by cases h; exact ⟨rfl, rfl⟩, fun h => nomatch h⟩
theorem bfi (e : Ext) : Statement (.bfi e) := ⟨fun _ _ h => by cases h; exact ⟨rfl, rfl⟩, fun h => nomatch h⟩
theorem popc (e : Ext) : Statement (.popc e) := ⟨fun _ _ h => by cases h; exact ⟨rfl, rfl⟩, fun h => nomatch h⟩
theorem clz (e : Ext) : Statement (.clz e) := ⟨fun _ _ h => by cases h; exact ⟨rfl, rfl⟩, fun h => nomatch h⟩
theorem ctz (e : Ext) : Statement (.ctz e) := ⟨fun _ _ h => by cases h; exact ⟨rfl, rfl⟩, fun h => nomatch h⟩
theorem brev (e : Ext) : Statement (.brev e) := ⟨fun _ _ h => by cases h; exact ⟨rfl, rfl⟩, fun h => nomatch h⟩
theorem permb (e : Ext) : Statement (.permb e) := ⟨fun _ _ h => by cases h; exact ⟨rfl, rfl⟩, fun h => nomatch h⟩
theorem plop (e : Ext) : Statement (.plop e) := ⟨fun _ _ h => by cases h; exact ⟨rfl, rfl⟩, fun h => nomatch h⟩
theorem pmov (e : Ext) : Statement (.pmov e) := ⟨fun _ _ h => by cases h; exact ⟨rfl, rfl⟩, fun h => nomatch h⟩
theorem fadd (e : Ext) : Statement (.fadd e) := ⟨fun _ _ h => by cases h; exact ⟨rfl, rfl⟩, fun h => nomatch h⟩
theorem fsub (e : Ext) : Statement (.fsub e) := ⟨fun _ _ h => by cases h; exact ⟨rfl, rfl⟩, fun h => nomatch h⟩
theorem fmul (e : Ext) : Statement (.fmul e) := ⟨fun _ _ h => by cases h; exact ⟨rfl, rfl⟩, fun h => nomatch h⟩
theorem ffma (e : Ext) : Statement (.ffma e) := ⟨fun _ _ h => by cases h; exact ⟨rfl, rfl⟩, fun h => nomatch h⟩
theorem fmin (e : Ext) : Statement (.fmin e) := ⟨fun _ _ h => by cases h; exact ⟨rfl, rfl⟩, fun h => nomatch h⟩
theorem fmax (e : Ext) : Statement (.fmax e) := ⟨fun _ _ h => by cases h; exact ⟨rfl, rfl⟩, fun h => nomatch h⟩
theorem fcmp (e : Ext) : Statement (.fcmp e) := ⟨fun _ _ h => by cases h; exact ⟨rfl, rfl⟩, fun h => nomatch h⟩
theorem fclass (e : Ext) : Statement (.fclass e) := ⟨fun _ _ h => by cases h; exact ⟨rfl, rfl⟩, fun h => nomatch h⟩
theorem fround (e : Ext) : Statement (.fround e) := ⟨fun _ _ h => by cases h; exact ⟨rfl, rfl⟩, fun h => nomatch h⟩
theorem fldexp (e : Ext) : Statement (.fldexp e) := ⟨fun _ _ h => by cases h; exact ⟨rfl, rfl⟩, fun h => nomatch h⟩
theorem ffrexp (e : Ext) : Statement (.ffrexp e) := ⟨fun _ _ h => by cases h; exact ⟨rfl, rfl⟩, fun h => nomatch h⟩
theorem pfma (e : Ext) : Statement (.pfma e) := ⟨fun _ _ h => by cases h; exact ⟨rfl, rfl⟩, fun h => nomatch h⟩
theorem fdot2 (e : Ext) : Statement (.fdot2 e) := ⟨fun _ _ h => by cases h; exact ⟨rfl, rfl⟩, fun h => nomatch h⟩
theorem frcp (e : Ext) : Statement (.frcp e) := ⟨fun _ _ h => by cases h; exact ⟨rfl, rfl⟩, fun h => nomatch h⟩
theorem frsq (e : Ext) : Statement (.frsq e) := ⟨fun _ _ h => by cases h; exact ⟨rfl, rfl⟩, fun h => nomatch h⟩
theorem fsqrt (e : Ext) : Statement (.fsqrt e) := ⟨fun _ _ h => by cases h; exact ⟨rfl, rfl⟩, fun h => nomatch h⟩
theorem fdiv (e : Ext) : Statement (.fdiv e) := ⟨fun _ _ h => by cases h; exact ⟨rfl, rfl⟩, fun h => nomatch h⟩
theorem fexp2 (e : Ext) : Statement (.fexp2 e) := ⟨fun _ _ h => by cases h; exact ⟨rfl, rfl⟩, fun h => nomatch h⟩
theorem flog2 (e : Ext) : Statement (.flog2 e) := ⟨fun _ _ h => by cases h; exact ⟨rfl, rfl⟩, fun h => nomatch h⟩
theorem fsinp (e : Ext) : Statement (.fsinp e) := ⟨fun _ _ h => by cases h; exact ⟨rfl, rfl⟩, fun h => nomatch h⟩
theorem fcosp (e : Ext) : Statement (.fcosp e) := ⟨fun _ _ h => by cases h; exact ⟨rfl, rfl⟩, fun h => nomatch h⟩
theorem cvt (e : Ext) : Statement (.cvt e) := ⟨fun _ _ h => by cases h; exact ⟨rfl, rfl⟩, fun h => nomatch h⟩
theorem cvtf (e : Ext) : Statement (.cvtf e) := ⟨fun _ _ h => by cases h; exact ⟨rfl, rfl⟩, fun h => nomatch h⟩
theorem cvtn (e : Ext) : Statement (.cvtn e) := ⟨fun _ _ h => by cases h; exact ⟨rfl, rfl⟩, fun h => nomatch h⟩
theorem qnt (e : Ext) : Statement (.qnt e) := ⟨fun _ _ h => by cases h; exact ⟨rfl, rfl⟩, fun h => nomatch h⟩
theorem dqn (e : Ext) : Statement (.dqn e) := ⟨fun _ _ h => by cases h; exact ⟨rfl, rfl⟩, fun h => nomatch h⟩
theorem qblk (e : Ext) : Statement (.qblk e) := ⟨fun _ _ h => by cases h; exact ⟨rfl, rfl⟩, fun h => nomatch h⟩
theorem qscl (e : Ext) : Statement (.qscl e) := ⟨fun _ _ h => by cases h; exact ⟨rfl, rfl⟩, fun h => nomatch h⟩
theorem pack (e : Ext) : Statement (.pack e) := ⟨fun _ _ h => by cases h; exact ⟨rfl, rfl⟩, fun h => nomatch h⟩
theorem unpk (e : Ext) : Statement (.unpk e) := ⟨fun _ _ h => by cases h; exact ⟨rfl, rfl⟩, fun h => nomatch h⟩
theorem rnd (e : Ext) : Statement (.rnd e) := ⟨fun _ _ h => by cases h; exact ⟨rfl, rfl⟩, fun h => nomatch h⟩
theorem rowMatch (e : Ext) : Statement (.rowMatch e) := ⟨fun _ _ h => by cases h; exact ⟨rfl, rfl⟩, fun h => nomatch h⟩
theorem bfly (e : Ext) : Statement (.bfly e) := ⟨fun _ _ h => by cases h; exact ⟨rfl, rfl⟩, fun h => nomatch h⟩
theorem shfl (e : Ext) : Statement (.shfl e) := ⟨fun _ _ h => by cases h; exact ⟨rfl, rfl⟩, fun h => nomatch h⟩
theorem vote (e : Ext) : Statement (.vote e) := ⟨fun _ _ h => by cases h; exact ⟨rfl, rfl⟩, fun h => nomatch h⟩
theorem rowred (e : Ext) : Statement (.rowred e) := ⟨fun _ _ h => by cases h; exact ⟨rfl, rfl⟩, fun h => nomatch h⟩
theorem elect (e : Ext) : Statement (.elect e) := ⟨fun _ _ h => by cases h; exact ⟨rfl, rfl⟩, fun h => nomatch h⟩
theorem braU (e : Ext) : Statement (.braU e) := ⟨fun _ _ h => by cases h; exact ⟨rfl, rfl⟩, fun h => nomatch h⟩
theorem braS (e : Ext) : Statement (.braS e) := ⟨fun _ _ h => by cases h; exact ⟨rfl, rfl⟩, fun h => nomatch h⟩
theorem braM (e : Ext) : Statement (.braM e) := ⟨fun _ _ h => by cases h; exact ⟨rfl, rfl⟩, fun h => nomatch h⟩
theorem brx (e : Ext) : Statement (.brx e) := ⟨fun _ _ h => by cases h; exact ⟨rfl, rfl⟩, fun h => nomatch h⟩
theorem call (e : Ext) : Statement (.call e) := ⟨fun _ _ h => by cases h; exact ⟨rfl, rfl⟩, fun h => nomatch h⟩
theorem ret (e : Ext) : Statement (.ret e) := ⟨fun _ _ h => by cases h; exact ⟨rfl, rfl⟩, fun h => nomatch h⟩
theorem reform (e : Ext) : Statement (.reform e) := ⟨fun _ _ h => by cases h; exact ⟨rfl, rfl⟩, fun h => nomatch h⟩
theorem exit (e : Ext) : Statement (.exit e) := ⟨fun _ _ h => by cases h; exact ⟨rfl, rfl⟩, fun h => nomatch h⟩
theorem yield (e : Ext) : Statement (.yield e) := ⟨fun _ _ h => by cases h; exact ⟨rfl, rfl⟩, fun h => nomatch h⟩
theorem nop (e : Ext) : Statement (.nop e) := ⟨fun _ _ h => by cases h; exact ⟨rfl, rfl⟩, fun h => nomatch h⟩
theorem trap (e : Ext) : Statement (.trap e) := ⟨fun _ _ h => by cases h; exact ⟨rfl, rfl⟩, fun h => nomatch h⟩
theorem brk (e : Ext) : Statement (.brk e) := ⟨fun _ _ h => by cases h; exact ⟨rfl, rfl⟩, fun h => nomatch h⟩
theorem sreg (e : Ext) : Statement (.sreg e) := ⟨fun _ _ h => by cases h; exact ⟨rfl, rfl⟩, fun h => nomatch h⟩
theorem swreg (e : Ext) : Statement (.swreg e) := ⟨fun _ _ h => by cases h; exact ⟨rfl, rfl⟩, fun h => nomatch h⟩
theorem icinv (e : Ext) : Statement (.icinv e) := ⟨fun _ _ h => by cases h; exact ⟨rfl, rfl⟩, fun h => nomatch h⟩
theorem ld (e : Ext) : Statement (.ld e) := ⟨fun _ _ h => by cases h; exact ⟨rfl, rfl⟩, fun h => nomatch h⟩
theorem st (e : Ext) : Statement (.st e) := ⟨fun _ _ h => by cases h; exact ⟨rfl, rfl⟩, fun h => nomatch h⟩
theorem lds (e : Ext) : Statement (.lds e) := ⟨fun _ _ h => by cases h; exact ⟨rfl, rfl⟩, fun h => nomatch h⟩
theorem sts (e : Ext) : Statement (.sts e) := ⟨fun _ _ h => by cases h; exact ⟨rfl, rfl⟩, fun h => nomatch h⟩
theorem ldt (e : Ext) : Statement (.ldt e) := ⟨fun _ _ h => by cases h; exact ⟨rfl, rfl⟩, fun h => nomatch h⟩
theorem stt (e : Ext) : Statement (.stt e) := ⟨fun _ _ h => by cases h; exact ⟨rfl, rfl⟩, fun h => nomatch h⟩
theorem ldc (e : Ext) : Statement (.ldc e) := ⟨fun _ _ h => by cases h; exact ⟨rfl, rfl⟩, fun h => nomatch h⟩
theorem pref (e : Ext) : Statement (.pref e) := ⟨fun _ _ h => by cases h; exact ⟨rfl, rfl⟩, fun h => nomatch h⟩
theorem stx (e : Ext) : Statement (.stx e) := ⟨fun _ _ h => by cases h; exact ⟨rfl, rfl⟩, fun h => nomatch h⟩
theorem ldf (e : Ext) : Statement (.ldf e) := ⟨fun _ _ h => by cases h; exact ⟨rfl, rfl⟩, fun h => nomatch h⟩
theorem ste (e : Ext) : Statement (.ste e) := ⟨fun _ _ h => by cases h; exact ⟨rfl, rfl⟩, fun h => nomatch h⟩
theorem feinit (e : Ext) : Statement (.feinit e) := ⟨fun _ _ h => by cases h; exact ⟨rfl, rfl⟩, fun h => nomatch h⟩
theorem waita (e : Ext) : Statement (.waita e) := ⟨fun _ _ h => by cases h; exact ⟨rfl, rfl⟩, fun h => nomatch h⟩
theorem atom (e : Ext) : Statement (.atom e) := ⟨fun _ _ h => by cases h; exact ⟨rfl, rfl⟩, fun h => nomatch h⟩
theorem red (e : Ext) : Statement (.red e) := ⟨fun _ _ h => by cases h; exact ⟨rfl, rfl⟩, fun h => nomatch h⟩
theorem atoms (e : Ext) : Statement (.atoms e) := ⟨fun _ _ h => by cases h; exact ⟨rfl, rfl⟩, fun h => nomatch h⟩
theorem barArv (e : Ext) : Statement (.barArv e) := ⟨fun _ _ h => by cases h; exact ⟨rfl, rfl⟩, fun h => nomatch h⟩
theorem barWait (e : Ext) : Statement (.barWait e) := ⟨fun _ _ h => by cases h; exact ⟨rfl, rfl⟩, fun h => nomatch h⟩
theorem barSync (e : Ext) : Statement (.barSync e) := ⟨fun _ _ h => by cases h; exact ⟨rfl, rfl⟩, fun h => nomatch h⟩
theorem barSet (e : Ext) : Statement (.barSet e) := ⟨fun _ _ h => by cases h; exact ⟨rfl, rfl⟩, fun h => nomatch h⟩
theorem barSwap (e : Ext) : Statement (.barSwap e) := ⟨fun _ _ h => by cases h; exact ⟨rfl, rfl⟩, fun h => nomatch h⟩
theorem barexp (e : Ext) : Statement (.barexp e) := ⟨fun _ _ h => by cases h; exact ⟨rfl, rfl⟩, fun h => nomatch h⟩
theorem fence (e : Ext) : Statement (.fence e) := ⟨fun _ _ h => by cases h; exact ⟨rfl, rfl⟩, fun h => nomatch h⟩
theorem cpy (e : Ext) : Statement (.cpy e) := ⟨fun _ _ h => by cases h; exact ⟨rfl, rfl⟩, fun h => nomatch h⟩
theorem cpym (e : Ext) : Statement (.cpym e) := ⟨fun _ _ h => by cases h; exact ⟨rfl, rfl⟩, fun h => nomatch h⟩
theorem qpop (e : Ext) : Statement (.qpop e) := ⟨fun _ _ h => by cases h; exact ⟨rfl, rfl⟩, fun h => nomatch h⟩
theorem qpeek (e : Ext) : Statement (.qpeek e) := ⟨fun _ _ h => by cases h; exact ⟨rfl, rfl⟩, fun h => nomatch h⟩
theorem qpush (e : Ext) : Statement (.qpush e) := ⟨fun _ _ h => by cases h; exact ⟨rfl, rfl⟩, fun h => nomatch h⟩
theorem qadv (e : Ext) : Statement (.qadv e) := ⟨fun _ _ h => by cases h; exact ⟨rfl, rfl⟩, fun h => nomatch h⟩
theorem qrst (e : Ext) : Statement (.qrst e) := ⟨fun _ _ h => by cases h; exact ⟨rfl, rfl⟩, fun h => nomatch h⟩
theorem wbld (e : Ext) : Statement (.wbld e) := ⟨fun _ _ h => by cases h; exact ⟨rfl, rfl⟩, fun h => nomatch h⟩
theorem mma (e : Ext) : Statement (.mma e) := ⟨fun _ _ h => by cases h; exact ⟨rfl, rfl⟩, fun h => nomatch h⟩
theorem azero (e : Ext) : Statement (.azero e) := ⟨fun _ _ h => by cases h; exact ⟨rfl, rfl⟩, fun h => nomatch h⟩
theorem adrain (e : Ext) : Statement (.adrain e) := ⟨fun _ _ h => by cases h; exact ⟨rfl, rfl⟩, fun h => nomatch h⟩
theorem aread (e : Ext) : Statement (.aread e) := ⟨fun _ _ h => by cases h; exact ⟨rfl, rfl⟩, fun h => nomatch h⟩
theorem aadd (e : Ext) : Statement (.aadd e) := ⟨fun _ _ h => by cases h; exact ⟨rfl, rfl⟩, fun h => nomatch h⟩
theorem glean (e : Ext) : Statement (.glean e) := ⟨fun _ _ h => by cases h; exact ⟨rfl, rfl⟩, fun h => nomatch h⟩
theorem nextit (e : Ext) : Statement (.nextit e) := ⟨fun _ _ h => by cases h; exact ⟨rfl, rfl⟩, fun h => nomatch h⟩
theorem glend (e : Ext) : Statement (.glend e) := ⟨fun _ _ h => by cases h; exact ⟨rfl, rfl⟩, fun h => nomatch h⟩
theorem gadd (e : Ext) : Statement (.gadd e) := ⟨fun _ _ h => by cases h; exact ⟨rfl, rfl⟩, fun h => nomatch h⟩
theorem glstat (e : Ext) : Statement (.glstat e) := ⟨fun _ _ h => by cases h; exact ⟨rfl, rfl⟩, fun h => nomatch h⟩
theorem arnew (e : Ext) : Statement (.arnew e) := ⟨fun _ _ h => by cases h; exact ⟨rfl, rfl⟩, fun h => nomatch h⟩
theorem ardrop (e : Ext) : Statement (.ardrop e) := ⟨fun _ _ h => by cases h; exact ⟨rfl, rfl⟩, fun h => nomatch h⟩
theorem arseal (e : Ext) : Statement (.arseal e) := ⟨fun _ _ h => by cases h; exact ⟨rfl, rfl⟩, fun h => nomatch h⟩
theorem arqry (e : Ext) : Statement (.arqry e) := ⟨fun _ _ h => by cases h; exact ⟨rfl, rfl⟩, fun h => nomatch h⟩
theorem aalloc (e : Ext) : Statement (.aalloc e) := ⟨fun _ _ h => by cases h; exact ⟨rfl, rfl⟩, fun h => nomatch h⟩
theorem statrd (e : Ext) : Statement (.statrd e) := ⟨fun _ _ h => by cases h; exact ⟨rfl, rfl⟩, fun h => nomatch h⟩
theorem statfl (e : Ext) : Statement (.statfl e) := ⟨fun _ _ h => by cases h; exact ⟨rfl, rfl⟩, fun h => nomatch h⟩
theorem statrst (e : Ext) : Statement (.statrst e) := ⟨fun _ _ h => by cases h; exact ⟨rfl, rfl⟩, fun h => nomatch h⟩
theorem task (e : Ext) : Statement (.task e) := ⟨fun _ _ h => by cases h; exact ⟨rfl, rfl⟩, fun h => nomatch h⟩
theorem tdep (e : Ext) : Statement (.tdep e) := ⟨fun _ _ h => by cases h; exact ⟨rfl, rfl⟩, fun h => nomatch h⟩
theorem tsig (e : Ext) : Statement (.tsig e) := ⟨fun _ _ h => by cases h; exact ⟨rfl, rfl⟩, fun h => nomatch h⟩
theorem uint (e : Ext) : Statement (.uint e) := ⟨fun _ _ h => by cases h; exact ⟨rfl, rfl⟩, fun h => nomatch h⟩
theorem pmrd (e : Ext) : Statement (.pmrd e) := ⟨fun _ _ h => by cases h; exact ⟨rfl, rfl⟩, fun h => nomatch h⟩
theorem mark (e : Ext) : Statement (.mark e) := ⟨fun _ _ h => by cases h; exact ⟨rfl, rfl⟩, fun h => nomatch h⟩
theorem clk (e : Ext) : Statement (.clk e) := ⟨fun _ _ h => by cases h; exact ⟨rfl, rfl⟩, fun h => nomatch h⟩
theorem rowCollectiveAct (g : Nat) (row : Nat) : Statement (.rowCollectiveAct g row) := ⟨fun _ _ h => (nomatch h), fun _ => rfl⟩
theorem rowStall (g : Nat) (row : Nat) : Statement (.rowStall g row) := ⟨fun _ _ h => (nomatch h), fun _ => rfl⟩
theorem flagCompletion (g : Nat) (i : Nat) : Statement (.flagCompletion g i) := ⟨fun _ _ h => (nomatch h), fun _ => rfl⟩
theorem scoreboardResult (g : Nat) (i : Nat) : Statement (.scoreboardResult g i) := ⟨fun _ _ h => (nomatch h), fun _ => rfl⟩
theorem feTimeout (g : Nat) (t : Nat) : Statement (.feTimeout g t) := ⟨fun _ _ h => (nomatch h), fun _ => rfl⟩
theorem waitaPoll (g : Nat) (t : Nat) : Statement (.waitaPoll g t) := ⟨fun _ _ h => (nomatch h), fun _ => rfl⟩
theorem setPhaseComplete (task : Nat) (set : Nat) : Statement (.setPhaseComplete task set) := ⟨fun _ _ h => (nomatch h), fun _ => rfl⟩
theorem copyUnitService (cl : Nat) : Statement (.copyUnitService cl) := ⟨fun _ _ h => (nomatch h), fun _ => rfl⟩
theorem copyComplete (cl : Nat) (i : Nat) : Statement (.copyComplete cl i) := ⟨fun _ _ h => (nomatch h), fun _ => rfl⟩
theorem qpushTileFilled (g : Nat) (q : Nat) (tile : Nat) : Statement (.qpushTileFilled g q tile) := ⟨fun _ _ h => (nomatch h), fun _ => rfl⟩
theorem qadvTileFree (g : Nat) (q : Nat) (tile : Nat) : Statement (.qadvTileFree g q tile) := ⟨fun _ _ h => (nomatch h), fun _ => rfl⟩
theorem qrstReset (g : Nat) (q : Nat) : Statement (.qrstReset g q) := ⟨fun _ _ h => (nomatch h), fun _ => rfl⟩
theorem copyApertureStart (die : Nat) (chan : Nat) (data : BitVec 64) : Statement (.copyApertureStart die chan data) := ⟨fun _ _ h => (nomatch h), fun _ => rfl⟩
theorem matrixCommandComplete (cl : Nat) (fill : Bool) : Statement (.matrixCommandComplete cl fill) := ⟨fun _ _ h => (nomatch h), fun _ => rfl⟩
theorem helperAbandon (g : Nat) (gl : Nat) (part : Nat) : Statement (.helperAbandon g gl part) := ⟨fun _ _ h => (nomatch h), fun _ => rfl⟩
theorem arenaChangePoint (vf : Nat) (i : Nat) : Statement (.arenaChangePoint vf i) := ⟨fun _ _ h => (nomatch h), fun _ => rfl⟩
theorem sealPoint (vf : Nat) (idx : Nat) : Statement (.sealPoint vf idx) := ⟨fun _ _ h => (nomatch h), fun _ => rfl⟩
theorem sweepEnd (vf : Nat) (idx : Nat) : Statement (.sweepEnd vf idx) := ⟨fun _ _ h => (nomatch h), fun _ => rfl⟩
theorem windrowPushTimer (i : Nat) : Statement (.windrowPushTimer i) := ⟨fun _ _ h => (nomatch h), fun _ => rfl⟩
theorem windrowMerge (i : Nat) : Statement (.windrowMerge i) := ⟨fun _ _ h => (nomatch h), fun _ => rfl⟩
theorem queueSubmit (vf : Nat) (q : Nat) (data : BitVec 64) : Statement (.queueSubmit vf q data) := ⟨fun _ _ h => (nomatch h), fun _ => rfl⟩
theorem placement (part : Nat) : Statement (.placement part) := ⟨fun _ _ h => (nomatch h), fun _ => rfl⟩
theorem agingTick (task : Nat) : Statement (.agingTick task) := ⟨fun _ _ h => (nomatch h), fun _ => rfl⟩
theorem coresidentSetTimeout (task : Nat) (set : Nat) : Statement (.coresidentSetTimeout task set) := ⟨fun _ _ h => (nomatch h), fun _ => rfl⟩
theorem groupExit (g : Nat) : Statement (.groupExit g) := ⟨fun _ _ h => (nomatch h), fun _ => rfl⟩
theorem taskRetire (task : Nat) : Statement (.taskRetire task) := ⟨fun _ _ h => (nomatch h), fun _ => rfl⟩
theorem sheafDraw (cl : Nat) (slot : Nat) : Statement (.sheafDraw cl slot) := ⟨fun _ _ h => (nomatch h), fun _ => rfl⟩
theorem binAgeExpiry (g : Nat) (pc : BitVec 64) : Statement (.binAgeExpiry g pc) := ⟨fun _ _ h => (nomatch h), fun _ => rfl⟩
theorem yieldDelayExpiry (g : Nat) (pc : BitVec 64) : Statement (.yieldDelayExpiry g pc) := ⟨fun _ _ h => (nomatch h), fun _ => rfl⟩
theorem pinTimeout (line : Nat) : Statement (.pinTimeout line) := ⟨fun _ _ h => (nomatch h), fun _ => rfl⟩
theorem saveFrame (g : Nat) : Statement (.saveFrame g) := ⟨fun _ _ h => (nomatch h), fun _ => rfl⟩
theorem resultDelivery (i : Nat) (j : Nat) : Statement (.resultDelivery i j) := ⟨fun _ _ h => (nomatch h), fun _ => rfl⟩
theorem restore (i : Nat) (cl : Nat) : Statement (.restore i cl) := ⟨fun _ _ h => (nomatch h), fun _ => rfl⟩
theorem worldSwitch (part : Nat) (vf : Nat) : Statement (.worldSwitch part vf) := ⟨fun _ _ h => (nomatch h), fun _ => rfl⟩
theorem counterLowRead (hart : Nat) (vf : Nat) (cl : Nat) (i : Nat) : Statement (.counterLowRead hart vf cl i) := ⟨fun _ _ h => (nomatch h), fun _ => rfl⟩
theorem counterHighRead (hart : Nat) (vf : Nat) (cl : Nat) (i : Nat) : Statement (.counterHighRead hart vf cl i) := ⟨fun _ _ h => (nomatch h), fun _ => rfl⟩
theorem debugHalt (g : Nat) : Statement (.debugHalt g) := ⟨fun _ _ h => (nomatch h), fun _ => rfl⟩
theorem pageWalk (i : Nat) : Statement (.pageWalk i) := ⟨fun _ _ h => (nomatch h), fun _ => rfl⟩
theorem pagerInval (vf : Nat) (data : BitVec 64) : Statement (.pagerInval vf data) := ⟨fun _ _ h => (nomatch h), fun _ => rfl⟩
theorem pagerReplay (vf : Nat) (data : BitVec 64) : Statement (.pagerReplay vf data) := ⟨fun _ _ h => (nomatch h), fun _ => rfl⟩
theorem pagerReplayFail (vf : Nat) (data : BitVec 64) : Statement (.pagerReplayFail vf data) := ⟨fun _ _ h => (nomatch h), fun _ => rfl⟩
theorem folakRead (f : Flit) : Statement (.folakRead f) := ⟨fun _ _ h => (nomatch h), fun _ => rfl⟩
theorem folakWrite (f : Flit) : Statement (.folakWrite f) := ⟨fun _ _ h => (nomatch h), fun _ => rfl⟩
theorem folakAtomic (f : Flit) : Statement (.folakAtomic f) := ⟨fun _ _ h => (nomatch h), fun _ => rfl⟩
theorem folakReduction (f : Flit) : Statement (.folakReduction f) := ⟨fun _ _ h => (nomatch h), fun _ => rfl⟩
theorem folakDataResponse (f : Flit) : Statement (.folakDataResponse f) := ⟨fun _ _ h => (nomatch h), fun _ => rfl⟩
theorem folakAcknowledgement (f : Flit) : Statement (.folakAcknowledgement f) := ⟨fun _ _ h => (nomatch h), fun _ => rfl⟩
theorem folakRevoked (f : Flit) : Statement (.folakRevoked f) := ⟨fun _ _ h => (nomatch h), fun _ => rfl⟩
theorem folakError (f : Flit) : Statement (.folakError f) := ⟨fun _ _ h => (nomatch h), fun _ => rfl⟩
theorem linkRetransmit (port : Nat) : Statement (.linkRetransmit port) := ⟨fun _ _ h => (nomatch h), fun _ => rfl⟩
theorem nodeLoss (node : Nat) : Statement (.nodeLoss node) := ⟨fun _ _ h => (nomatch h), fun _ => rfl⟩
theorem mkaSakInstall (port : Nat) (owner : Nat) (sak : Nat) : Statement (.mkaSakInstall port owner sak) := ⟨fun _ _ h => (nomatch h), fun _ => rfl⟩
theorem windowExport (w : Nat) (r : WindowReq) : Statement (.windowExport w r) := ⟨fun _ _ h => (nomatch h), fun _ => rfl⟩
theorem windowImport (j : Nat) (r : ImportReq) : Statement (.windowImport j r) := ⟨fun _ _ h => (nomatch h), fun _ => rfl⟩
theorem windowRevoke (w : Nat) : Statement (.windowRevoke w) := ⟨fun _ _ h => (nomatch h), fun _ => rfl⟩
theorem revokeFlit (node : Nat) (w : Nat) : Statement (.revokeFlit node w) := ⟨fun _ _ h => (nomatch h), fun _ => rfl⟩
theorem drainMarker (w : Nat) (node : Nat) : Statement (.drainMarker w node) := ⟨fun _ _ h => (nomatch h), fun _ => rfl⟩
theorem treg (vf : Nat) (data : BitVec 64) : Statement (.treg vf data) := ⟨fun _ _ h => (nomatch h), fun _ => rfl⟩
theorem reshape (r : ReshapeReq) : Statement (.reshape r) := ⟨fun _ _ h => (nomatch h), fun _ => rfl⟩
theorem ptpMessage (m : PtpMsg) : Statement (.ptpMessage m) := ⟨fun _ _ h => (nomatch h), fun _ => rfl⟩
theorem clockLoss : Statement (.clockLoss) := ⟨fun _ _ h => (nomatch h), fun _ => rfl⟩
theorem gangRegister (vf : Nat) (c : GangCmd) : Statement (.gangRegister vf c) := ⟨fun _ _ h => (nomatch h), fun _ => rfl⟩
theorem gangStop (vf : Nat) (c : GangCmd) : Statement (.gangStop vf c) := ⟨fun _ _ h => (nomatch h), fun _ => rfl⟩
theorem gangResume (vf : Nat) (c : GangCmd) : Statement (.gangResume vf c) := ⟨fun _ _ h => (nomatch h), fun _ => rfl⟩
theorem gangAbort (vf : Nat) (c : GangCmd) : Statement (.gangAbort vf c) := ⟨fun _ _ h => (nomatch h), fun _ => rfl⟩
theorem gangUnregister (vf : Nat) (c : GangCmd) : Statement (.gangUnregister vf c) := ⟨fun _ _ h => (nomatch h), fun _ => rfl⟩
theorem gangStartTime (vf : Nat) (e : Nat) : Statement (.gangStartTime vf e) := ⟨fun _ _ h => (nomatch h), fun _ => rfl⟩
theorem gangStopTime (vf : Nat) (e : Nat) : Statement (.gangStopTime vf e) := ⟨fun _ _ h => (nomatch h), fun _ => rfl⟩
theorem gangGuardExpiry (vf : Nat) (e : Nat) : Statement (.gangGuardExpiry vf e) := ⟨fun _ _ h => (nomatch h), fun _ => rfl⟩
theorem stragglerPolicyExpiry (vf : Nat) (e : Nat) : Statement (.stragglerPolicyExpiry vf e) := ⟨fun _ _ h => (nomatch h), fun _ => rfl⟩
theorem gangResumeTime (vf : Nat) (e : Nat) : Statement (.gangResumeTime vf e) := ⟨fun _ _ h => (nomatch h), fun _ => rfl⟩
theorem gangSilenceTimeout (vf : Nat) (e : Nat) : Statement (.gangSilenceTimeout vf e) := ⟨fun _ _ h => (nomatch h), fun _ => rfl⟩
theorem gangMsgStop (vf : Nat) (m : GangMsg) : Statement (.gangMsgStop vf m) := ⟨fun _ _ h => (nomatch h), fun _ => rfl⟩
theorem gangMsgResume (vf : Nat) (m : GangMsg) : Statement (.gangMsgResume vf m) := ⟨fun _ _ h => (nomatch h), fun _ => rfl⟩
theorem gangMsgAbort (vf : Nat) (m : GangMsg) : Statement (.gangMsgAbort vf m) := ⟨fun _ _ h => (nomatch h), fun _ => rfl⟩
theorem gangMsgHalted (vf : Nat) (m : GangMsg) : Statement (.gangMsgHalted vf m) := ⟨fun _ _ h => (nomatch h), fun _ => rfl⟩
theorem gangMsgSaved (vf : Nat) (m : GangMsg) : Statement (.gangMsgSaved vf m) := ⟨fun _ _ h => (nomatch h), fun _ => rfl⟩
theorem gangMsgResumed (vf : Nat) (m : GangMsg) : Statement (.gangMsgResumed vf m) := ⟨fun _ _ h => (nomatch h), fun _ => rfl⟩
theorem gangMsgMode (vf : Nat) (m : GangMsg) : Statement (.gangMsgMode vf m) := ⟨fun _ _ h => (nomatch h), fun _ => rfl⟩
theorem gangMsgArrive (vf : Nat) (m : GangMsg) : Statement (.gangMsgArrive vf m) := ⟨fun _ _ h => (nomatch h), fun _ => rfl⟩
theorem gangMsgRelease (vf : Nat) (m : GangMsg) : Statement (.gangMsgRelease vf m) := ⟨fun _ _ h => (nomatch h), fun _ => rfl⟩
theorem gangMsgReadyToGo (vf : Nat) (m : GangMsg) : Statement (.gangMsgReadyToGo vf m) := ⟨fun _ _ h => (nomatch h), fun _ => rfl⟩
theorem gangMsgGo (vf : Nat) (m : GangMsg) : Statement (.gangMsgGo vf m) := ⟨fun _ _ h => (nomatch h), fun _ => rfl⟩
theorem gangMsgFlush (vf : Nat) (m : GangMsg) : Statement (.gangMsgFlush vf m) := ⟨fun _ _ h => (nomatch h), fun _ => rfl⟩
theorem powerGood : Statement (.powerGood) := ⟨fun _ _ h => (nomatch h), fun _ => rfl⟩
theorem stageBComplete (quarters : List Nat) (ports : List Nat) : Statement (.stageBComplete quarters ports) := ⟨fun _ _ h => (nomatch h), fun _ => rfl⟩
theorem provisioningRecord (r : ProvRecord) : Statement (.provisioningRecord r) := ⟨fun _ _ h => (nomatch h), fun _ => rfl⟩
theorem partitionStart (part : Nat) (meas : BitVec 256) : Statement (.partitionStart part meas) := ⟨fun _ _ h => (nomatch h), fun _ => rfl⟩
theorem clusterRelease (part : Nat) : Statement (.clusterRelease part) := ⟨fun _ _ h => (nomatch h), fun _ => rfl⟩
theorem vfReset (vf : Nat) : Statement (.vfReset vf) := ⟨fun _ _ h => (nomatch h), fun _ => rfl⟩
theorem attestationQuote (nonce : BitVec 256) : Statement (.attestationQuote nonce) := ⟨fun _ _ h => (nomatch h), fun _ => rfl⟩
theorem thermalThrottle (on : Bool) : Statement (.thermalThrottle on) := ⟨fun _ _ h => (nomatch h), fun _ => rfl⟩
theorem thermalShutdown : Statement (.thermalShutdown) := ⟨fun _ _ h => (nomatch h), fun _ => rfl⟩
theorem registerWrite (r : RegName) (v : BitVec 64) : Statement (.registerWrite r v) := ⟨fun _ _ h => (nomatch h), fun _ => rfl⟩
theorem lossOfLock : Statement (.lossOfLock) := ⟨fun _ _ h => (nomatch h), fun _ => rfl⟩
theorem linkUp (port : Nat) : Statement (.linkUp port) := ⟨fun _ _ h => (nomatch h), fun _ => rfl⟩
theorem folakFrame (f : Frame) : Statement (.folakFrame f) := ⟨fun _ _ h => (nomatch h), fun _ => rfl⟩
theorem applicationCoreAccess (a : CoreAccess) : Statement (.applicationCoreAccess a) := ⟨fun _ _ h => (nomatch h), fun _ => rfl⟩
theorem partitionStageMiss (vf : Nat) (gpa : BitVec 64) (ans : PStageAnswer) : Statement (.partitionStageMiss vf gpa ans) := ⟨fun _ _ h => (nomatch h), fun _ => rfl⟩
theorem debuggerHold (g : Nat) (on : Bool) : Statement (.debuggerHold g on) := ⟨fun _ _ h => (nomatch h), fun _ => rfl⟩

end Sys2Proof.Laws.Codec
end

