-- ==== Sys2Proof/Laws/Registers.lean ====
section
/-! SUPPORT. Writing registers of a group: what a write leaves, that it keeps the group's shape, and the gate of an access
whose threads all reach memory. -/

namespace Sys2Proof.Machine

/-! ### Threads of a group -/

@[simp] theorem Thread.put_key (t : Thread) (r : Reg) (x : Word) : (t.put r x).key = t.key := by
  cases r with
  | v i => rfl
  | s i => rfl
  | p i => simp only [Thread.put]; split <;> rfl

@[simp] theorem Thread.put_place (t : Thread) (r : Reg) (x : Word) : (t.put r x).place = t.place := by
  cases r with
  | v i => rfl
  | s i => rfl
  | p i => simp only [Thread.put]; split <;> rfl

@[simp] theorem Thread.put_length (t : Thread) (r : Reg) (x : Word) : (t.put r x).v.length = t.v.length := by
  cases r with
  | v i => simp [Thread.put]
  | s i => rfl
  | p i => simp only [Thread.put]; split <;> rfl

@[simp] theorem Thread.put_flags (t : Thread) (r : Reg) (x : Word) : (t.put r x).flags = t.flags := by
  cases r with
  | v i => rfl
  | s i => rfl
  | p i => simp only [Thread.put]; split <;> rfl

/-- The V register written reads as the word; another reads as before. -/
theorem Thread.put_v (t : Thread) (i j : Nat) (x : Word) (h : i < t.v.length) :
    (t.put (.v i) x).v.getD j 0 = if i = j then x else t.v.getD j 0 := by
  by_cases hij : i = j
  · subst hij
    simp [Thread.put, h]
  · simp [Thread.put, hij, List.getD_eq_getElem?_getD]

/-- A change of the thread of a key that keeps its key: that thread is changed, the others are found as before. -/
theorem Group.find_modify (g : Group) (k j : Key) (f : Thread → Thread) (hf : ∀ t, (f t).key = t.key) :
    (g.modify k f).find j = if j = k then (g.find j).map f else g.find j := by
  unfold Group.find Group.modify
  dsimp only
  induction g.threads with
  | nil => simp
  | cons t ts ih =>
    have hkey : (if t.key = k then f t else t).key = t.key := by split <;> simp [hf]
    rw [List.map_cons, List.find?_cons, List.find?_cons, hkey]
    by_cases h : t.key = j
    · subst h
      by_cases hk : t.key = k <;> simp [hk]
    · simp only [h, decide_false]
      exact ih

/-- The keys stay, and with them the order of the threads. -/
theorem Group.keys_modify (g : Group) (k : Key) (f : Thread → Thread) (hf : ∀ t, (f t).key = t.key) :
    (g.modify k f).threads.map Thread.key = g.threads.map Thread.key := by
  unfold Group.modify
  simp only [List.map_map]
  refine List.map_congr_left fun t _ => ?_
  simp only [Function.comp]
  split <;> simp [hf]

/-- A write to an S register changes no thread. -/
@[simp] theorem Group.put_s_threads (g : Group) (k : Key) (i : Nat) (x : Word) : (g.put k (.s i) x).threads = g.threads := rfl

/-- A register write keeps the shape of a group. -/
theorem Group.put_shaped {g : Group} (k : Key) (r : Reg) (x : Word) (h : g.Shaped) : (g.put k r x).Shaped := by
  obtain ⟨hk, ht, hs, hb⟩ := h
  have modify : ∀ f : Thread → Thread, (∀ t, (f t).key = t.key) → (∀ t, (f t).v.length = t.v.length) →
      (∀ t, (f t).flags = t.flags) → (g.modify k f).Shaped := by
    intro f hf hv hl
    refine ⟨by rw [Group.keys_modify g k f hf]; exact hk, ?_, hs, hb⟩
    intro t hmem
    simp only [Group.modify, List.mem_map] at hmem ⊢
    obtain ⟨u, hu, rfl⟩ := hmem
    have := ht u hu
    split
    · exact ⟨by rw [hv]; exact this.1, by rw [hl]; exact this.2⟩
    · exact this
  cases r with
  | s i => exact ⟨hk, ht, by simpa [Group.put] using hs, hb⟩
  | v i => exact modify _ (fun t => Thread.put_key t _ x) (fun t => Thread.put_length t _ x) fun t => Thread.put_flags t _ x
  | p i => exact modify _ (fun t => Thread.put_key t _ x) (fun t => Thread.put_length t _ x) fun t => Thread.put_flags t _ x

theorem Group.putAll_shaped {g : Group} (k : Key) (ws : List (Reg × Word)) (h : g.Shaped) : (g.putAll k ws).Shaped := by
  unfold Group.putAll
  induction ws generalizing g with
  | nil => exact h
  | cons w ws ih => exact ih (Group.put_shaped k w.1 w.2 h)

/-- The writes of several threads keep the shape of a group. -/
theorem Group.apply_shaped {g : Group} (ws : List (Key × List (Reg × Word))) (h : g.Shaped) : (g.apply ws).Shaped := by
  unfold Group.apply
  induction ws generalizing g with
  | nil => exact h
  | cons w ws ih => exact ih (Group.putAll_shaped w.1 w.2 h)

/-! ### The gate of an access -/

/-- Where every thread's access reaches memory, the gate lets the instruction go on with those places. -/
theorem gate_reach {c : Cx} {s : State} {ts : List Thread} {chk : Thread → Chk} {pa arena : Thread → Nat} (w : Bool)
    (k : List Hit → State → Act) (h : Reach c s ts chk pa arena) :
    gate c s ts chk w k =
      k (ts.map fun t => { t := t, pa := pa t, arena := arena t })
        { s with ms := s.ms.served c.g.uid c.who } := by
  have hchk : (ts.map fun t => (t, chk t)) = ts.map fun t => (t, Chk.ok (pa t) (arena t)) :=
    List.map_congr_left fun t ht => by rw [(h.1 t ht).1]
  have hnone : ((ts.map fun t => ({ t := t, pa := pa t, arena := arena t } : Hit)).find? fun h => c.refused s h.pa) = none := by
    rw [List.find?_eq_none]
    intro x hx
    obtain ⟨t, ht, rfl⟩ := List.mem_map.mp hx
    simp [h.2 t ht]
  unfold gate
  simp only [hchk, List.filterMap_map, Function.comp_def]
  simp only [List.filterMap_none, List.isEmpty_nil, Bool.not_true, Bool.false_eq_true, if_false]
  have hhits : (ts.filterMap fun t => some ({ t := t, pa := pa t, arena := arena t } : Hit)) =
      ts.map fun t => ({ t := t, pa := pa t, arena := arena t } : Hit) := by rw [← List.filterMap_eq_map]; rfl
  rw [hhits, hnone]

end Sys2Proof.Machine
end

