-- ==== Sys2Proof/Tests/Slice0.lean ====
section
/-! SUPPORT. Tests, each on one step of a small state: ill-formed terms that WellFormed refuses, words written out from the
encoding tables, one or two effects for each family, with results from the spec's rules, and for each obligation states
and operands that meet its hypotheses. -/

namespace Sys2Proof.Tests

set_option Elab.async false

open Sys2Proof.Machine

/-! ### A small state -/

/-- A thread of the test group. -/
def thread (i : Nat) : Thread :=
  { key := { t := i, gl := 0 }, place := .sheaf, pc := 0x1000, v := List.replicate 16 0, p := 128
    flags := List.replicate 12 0, draws := 0, marks := [], seq := 0, tickets := [], part := none, solo := none, entered := false }

/-- A launch of two threads. -/
def launch : Launch :=
  { entry := 0x1000, handler := 0x2000, seed := 7, csize := 8192, threads := 2, nv := 16, argc := 4, scratch := 512
    exch := 128, ntiles := 2, nslots := 2, nbars := 2, cexp := 10, fexp := 10, ks := [0x081078C0, 0x001078C0, 0x021078C0, 0x041078C0, 0x001078C0, 0x001078C0, 0x001078C0, 0x001078C0]
    args := [5, 6, 7, 8], streams := List.replicate 16 0, sets := List.replicate 256 0, gx := 1, gy := 1, gz := 1
    exps := [2, 2], templates := [] }

/-- The sheaf of the threads, at the only instruction of a clause that sets flag 3. -/
def sheaf : Sheaf :=
  { members := [{ t := 0, gl := 0 }, { t := 1, gl := 0 }], pc := 0x1004, inClause := true
    hdr := { wait := 0, set1 := 3, set2 := 15, count := 0 }, hdrPc := 0x1000, idx := 0, regions := [], drawn := 0
    last := 0, hold := .free, code := [], acted := [] }

/-- The group. -/
def group : Group :=
  { uid := 9, vf := 0, task := 1, gidx := 0, cl := 0, slot := 0, s0 := 0, ways := [], launch := launch, lrec := 0x3000
    s := List.replicate 512 0, marksS := [], handler := 0x2000, threads := [thread 0, thread 1], sheaves := [sheaf]
    outs := [], insts := []
    bars := List.replicate 2 { c := 2, dflt := false, arrivals := 0, phase := 0, pending := 0, sets := [], sent := false }
    streams := List.replicate 16 { idx := [0, 0, 0, 0], r := 0, p := 0, a := 0, tiles := [] }, scratch := [], fe := [], spoilt := []
    swapped := false, swaps := false, tiles := List.replicate 2 (Tile.zero 0)
    weights := List.replicate 2 { sp24 := false, c := 8, p := 0, scratch := false, src := 0, data := [], mark := none, bad := false }
    gleans := [], fences := [], stx := [], arvs := [], stop := .running, dbg := false, started := 0, aged := [], sets := [] }

/-- A task with the group placed. -/
def task : Task :=
  { uid := 1, vf := 0, idx := 1, queue := 0, seq := 1, launch := launch, lrec := 0x3000, gx := 1, gy := 1, gz := 1
    save := 0x200000, timed := false, gang := 0, start := 0, notify := false, note := 0, dropArena := false, arena := 0
    placed := [0], finished := [], cursor := 0, readyAt := 0, agedAt := 0, saved := [], setStart := [], setFailed := []
    reserved := none, promised := [] }

/-- A VF with its first GiB mapped one to one by a table at 64 KiB, where the partition stage answers for a few pages. -/
def vf : VF :=
  { VF.reset with
    owner := 5, poolBase := 0x100000, poolN := 16, descBase := 0x110000, running := true, saved := none, groot := 0x10, gen := true
    pager := 7, ring := 0x8000
    targets := [{ tgt := 7, hart := 2, ring := 0x8000, logn := 4, pend := false }]
    arenas := [(0, { Arena.reset with state := 1, cstate := 1, base := 0x400000, bump := 0x400000, quota := 0x100000 })]
    pmap := ([1, 2, 3, 8, 0x10, 0x11, 0x12, 0x100, 0x110, 0x200, 0x201, 0x202, 0x203, 0x204, 0x205, 0x206, 0x207].map
      fun p => { gpa := p, pa := p, shift := 12, r := true, w := true, x := true }) }

/-- Memory with the table. -/
def mem : Memory := [(0x10000, 1), (0x10001, 0x11), (0x11000, 1), (0x11001, 0x12), (0x12000, 0x1F)]

/-- A TLB entry of cluster 0 for a page of the VF, mapped one to one. -/
def tlb (p : Nat) : Tlb := { cl := 0, vf := 0, page := p, pa := p, shift := 12, r := true, w := true, x := true, arena := 0 }

/-- The state: the group's sheaf issues. -/
def base : State :=
  { State.reset with
    uids := 9, cur := some (0, 0), groups := [group], tasks := [task]
    clusters := modAt State.reset.clusters 0 fun c => { c with part := some 0, started := 1 }
    vfs := modAt State.reset.vfs 0 fun _ => vf
    ms := { MemSide.reset with mem := mem, tlb := [tlb 1, tlb 2, tlb 3] } }

/-- The state with the group changed. -/
def with_ (f : Group → Group) : State := base.setGroup 0 f
/-- The state with one thread changed. -/
def withThread (i : Nat) (f : Thread → Thread) : State :=
  base.setGroup 0 fun g => { g with threads := modAt g.threads i f }
/-- Thread 1 has exited, so that thread 0 acts alone. -/
def alone (f : Group → Group) : State :=
  base.setGroup 0 fun g => f { g with threads := [thread 0, { thread 1 with place := .exited }]
                                      sheaves := [{ sheaf with members := [{ t := 0, gl := 0 }] }] }
/-- A thread with the first V registers given. -/
def vs (l : List Word) (t : Thread) : Thread := { t with v := l ++ t.v.drop l.length }

/-- The shape of a group as a test. -/
def shapedB (g : Group) : Bool :=
  decide (g.threads.map Thread.key).Nodup && g.threads.all (fun t => t.v.length == g.launch.nv && t.flags.length == 12)
    && g.s.length == 512 && g.bars.all fun b => decide (b.phase < 2 ^ 32)

theorem shaped_of {g : Group} (h : shapedB g = true) : g.Shaped := by
  simp only [shapedB, Bool.and_eq_true, decide_eq_true_eq, List.all_eq_true, beq_iff_eq] at h
  exact ⟨h.1.1.1, h.1.1.2, h.1.2, h.2⟩

/-- An issue is ready with a shaped group and a property of its instruction. -/
theorem ready_of {x : Option Cx} (p : Cx → Prop) [DecidablePred p]
    (h : x.any (fun c => shapedB c.g && decide (p c)) = true) : ∃ c, x = some c ∧ c.g.Shaped ∧ p c := by
  match x, h with
  | some c, h =>
    simp only [Option.any_some, Bool.and_eq_true, decide_eq_true_eq] at h
    exact ⟨c, rfl, shaped_of h.1, h.2⟩

/-- The threads' accesses reach memory, as a test. -/
def reachB (c : Cx) (s : State) (ts : List Thread) (chk : Thread → Chk) (pa arena : Thread → Nat) : Bool :=
  ts.all fun th => (match chk th with
    | .ok a b => a == pa th && b == arena th
    | _ => false) && !inImport (pa th) && !(s.vf c.g.vf).staleAt (arena th) && !s.ms.errored.contains (pa th / 128)
      && !s.ms.spoilt.contains (pa th / 128) && !c.refused s (pa th)

theorem reach_of {c : Cx} {s : State} {ts : List Thread} {chk : Thread → Chk} {pa arena : Thread → Nat}
    (h : reachB c s ts chk pa arena = true) : Reach c s ts chk pa arena := by
  have all (th : Thread) (ht : th ∈ ts) := List.all_eq_true.mp h th ht
  simp only [Bool.and_eq_true, Bool.not_eq_true'] at all
  refine ⟨fun th ht => ?_, fun th ht => (all th ht).2⟩
  have this := all th ht
  refine ⟨?_, this.1.1.1.1.2, this.1.1.1.2, this.1.1.2, this.1.2⟩
  have h1 := this.1.1.1.1.1
  split at h1
  · next a b e =>
    simp only [Bool.and_eq_true, beq_iff_eq] at h1
    rw [e, h1.1, h1.2]
  · exact absurd h1 (by decide)

/-- An issue is ready, its threads' accesses reach memory, and a property holds. -/
theorem reach_ready {x : Option Cx} {s : State} {ts : Cx → List Thread} {chk : Cx → Thread → Chk}
    {pa arena : Thread → Nat} (p : Cx → Prop) [DecidablePred p]
    (h : x.any (fun c => shapedB c.g && reachB c s (ts c) (chk c) pa arena && decide (p c)) = true) :
    ∃ c, x = some c ∧ c.g.Shaped ∧ Reach c s (ts c) (chk c) pa arena ∧ p c := by
  match x, h with
  | some c, h =>
    simp only [Option.any_some, Bool.and_eq_true, decide_eq_true_eq] at h
    exact ⟨c, rfl, shaped_of h.1.1, reach_of h.1.2, h.2⟩

/-- A group of a state is shaped and has a property. -/
theorem group_of {x : Option Group} (p : Group → Prop) [DecidablePred p]
    (h : x.any (fun g => shapedB g && decide (p g)) = true) : ∃ g, x = some g ∧ g.Shaped ∧ p g := by
  match x, h with
  | some g, h =>
    simp only [Option.any_some, Bool.and_eq_true, decide_eq_true_eq] at h
    exact ⟨g, rfl, shaped_of h.1, h.2⟩

/-- An outcome is a next state. -/
def isNext : Host.Outcome State Fault Refusal → Bool
  | .next _ => true
  | .fault _ => false
  | .refused _ => false

theorem next_of {x : Host.Outcome State Fault Refusal} (h : isNext x = true) : ∃ t, x = .next t := by
  match x, h with
  | .next t, _ => exact ⟨t, rfl⟩

/-! ### Hypotheses that are met: register instructions -/

/-- Three sources of a type. -/
def rrr (ty : BitVec 4) : Ext := { op0 := .v 4, op1 := .v 0, op2 := .v 2, op3 := .v 6, ty := ty }
/-- Two sources of a type. -/
def rr (ty : BitVec 4) : Ext := { op0 := .v 4, op1 := .v 0, op2 := .v 2, ty := ty }
/-- One source of a type. -/
def r1 (ty : BitVec 4) : Ext := { op0 := .v 4, op1 := .v 0, ty := ty }

/-- IntegersAndBits, MovesAndPredicates, FloatingPoint: an instruction of each table. -/
theorem witness_at_once :
    ((∃ f, arithmetic .add = some f)
      ∧ ∃ c, base.readyE .add (rr 6) = some c ∧ c.g.Shaped ∧ Op.add.wellFormed (rr 6) = true)
    ∧ ((∃ f, bitwise .bfe = some f) ∧ ∃ c, base.readyE .bfe (rr 3) = some c ∧ c.g.Shaped ∧ Op.bfe.wellFormed (rr 3) = true)
    ∧ ((∃ f, counting .popc = some f) ∧ ∃ c, base.readyE .popc (r1 6) = some c ∧ c.g.Shaped
        ∧ Op.popc.wellFormed (r1 6) = true)
    ∧ ((∃ f, moving .cmp = some f) ∧ ∃ c, base.readyE .cmp { rr 2 with op0 := .k 7, lo := 2 } = some c ∧ c.g.Shaped
        ∧ Op.cmp.wellFormed { rr 2 with op0 := .k 7, lo := 2 } = true)
    ∧ ((∃ f, floating .ffma = some f) ∧ later (rrr 9) .ffma = none
        ∧ ∃ c, base.readyE .ffma (rrr 9) = some c ∧ c.g.Shaped ∧ Op.ffma.wellFormed (rrr 9) = true) :=
  ⟨⟨⟨_, rfl⟩, ready_of _ (by decide +kernel)⟩, ⟨⟨_, rfl⟩, ready_of _ (by decide +kernel)⟩,
    ⟨⟨_, rfl⟩, ready_of _ (by decide +kernel)⟩, ⟨⟨_, rfl⟩, ready_of _ (by decide +kernel)⟩,
    ⟨⟨_, rfl⟩, rfl, ready_of _ (by decide +kernel)⟩⟩

/-- QNT of the first slot with a scale of 1. -/
def quant (slot : BitVec 3) : Ext := { op0 := .v 4, op1 := .v 0, ty := 14, sc := slot }

/-- ConversionsAndQuantising: a conversion, CVT, RND, and QNT without OVFT and with it on an overflow. -/
theorem witness_conversions :
    ((∃ f, converting .cvtf = some f) ∧ ∃ c, base.readyE .cvtf { r1 9 with lo := 2 } = some c ∧ c.g.Shaped
        ∧ Op.cvtf.wellFormed { r1 9 with lo := 2 } = true)
    ∧ (∃ c, base.readyE .cvt { r1 10 with lo := 9 } = some c ∧ c.g.Shaped
        ∧ (Op.cvt.wellFormed { r1 10 with lo := 9 } = true ∧ ∀ th ∈ c.act, th.part = none ∧ th.solo = none))
    ∧ (∃ c, base.readyE .rnd { op0 := .v 4 } = some c ∧ c.g.Shaped
        ∧ (Op.rnd.wellFormed { op0 := .v 4 } = true ∧ ∀ th ∈ c.act, th.part = none ∧ th.solo = none))
    ∧ (∃ c, base.readyE .qnt (quant 1) = some c ∧ c.g.Shaped
        ∧ (Op.qnt.wellFormed (quant 1) = true ∧ (quant 1).src ≠ 3 ∧ c.slot.ovft = false))
    ∧ ∃ c, (withThread 0 (vs [0x7F7FFFFF])).readyE .qnt (quant 0) = some c ∧ c.g.Shaped
        ∧ (c.slot.ovft = true ∧ ∃ th ∈ c.act, ∃ q ∈ c.quantise th (c.sigma th), q.2.1 = true) :=
  ⟨⟨⟨_, rfl⟩, ready_of _ (by decide +kernel)⟩, ready_of _ (by decide +kernel), ready_of _ (by decide +kernel),
    ready_of _ (by decide +kernel), ready_of _ (by decide +kernel)⟩

/-- A base word's operands. -/
def bops : Base := { vd := 4, va := 0, b := .reg 1 }

theorem next_add_base : isNext (exec (.addBase bops) base) = true := by decide +kernel
theorem next_add : isNext (exec (.add (rr 6)) base) = true := by decide +kernel

/-- BaseForms and RegisterFrame: ADD as a base word, and its next state. -/
theorem witness_base_forms :
    ((1, Instr.addBase, Op.add, (6 : BitVec 4), false) ∈ baseForms)
    ∧ (∃ f, atOnce (baseExt bops 6 false) .add = some f)
    ∧ (∃ c, base.readyB 1 .add bops 6 false = some c ∧ c.g.Shaped ∧ True)
    ∧ (∃ t, exec (.addBase bops) base = .next t) ∧ (∃ f, atOnce (rr 6) .add = some f) ∧ ∃ t, exec (.add (rr 6)) base = .next t :=
  ⟨by simp [baseForms], ⟨_, rfl⟩, ready_of _ (by decide +kernel), next_of next_add_base, ⟨_, rfl⟩,
    next_of next_add⟩

/-- LaterResultsAndReads: DIV under a flag, LDS and LDC at the last bytes of their spaces, CLK and PMRD. -/
theorem witness_later :
    ((∃ f, later (rr 6) .div = some f) ∧ ∃ c, base.readyE .div { rr 6 with flag := 3 } = some c ∧ c.g.Shaped
        ∧ (∃ th ∈ c.act, th.key.t = 0))
    ∧ (∃ c, base.readyE .lds { op0 := .v 4, op1 := .k 0, op2 := .k 0, imm := 636, ty := 2 } = some c ∧ c.g.Shaped
        ∧ ∀ th ∈ c.actS, c.sp th c.e.scale % c.width = 0 ∧ c.sp th c.e.scale + c.width ≤ c.g.launch.space
          ∧ c.g.spErrs (c.sp th c.e.scale) c.width = false)
    ∧ (∃ c, base.readyE .ldc { op0 := .v 4, op1 := .k 0, op2 := .k 0, imm := 8188, ty := 2 } = some c ∧ c.g.Shaped
        ∧ (let u : State := { base with ms := base.ms.served c.g.uid c.who }
          ∀ th ∈ c.actS, c.sp th c.e.scale % c.width = 0 ∧ c.sp th c.e.scale + c.width ≤ c.g.launch.csize
            ∧ base.readPin c.g.vf c.g.uid (c.g.lrec + c.sp th c.e.scale) c.width = none
            ∧ u.readMark c.g.vf (c.g.lrec + c.sp th c.e.scale) c.width = none
            ∧ u.devRecall c.g.vf (c.g.lrec + c.sp th c.e.scale) c.width = u))
    ∧ (∃ c, base.readyE .clk { op0 := .v 4, lo := 1 } = some c ∧ c.g.Shaped ∧ True)
    ∧ ∃ c, base.readyE .pmrd { op0 := .v 4, op1 := .k 15 } = some c ∧ c.g.Shaped ∧ True :=
  ⟨⟨⟨_, rfl⟩, ready_of _ (by decide +kernel)⟩, ready_of _ (by decide +kernel), ready_of _ (by decide +kernel),
    ready_of _ (by decide +kernel), ready_of _ (by decide +kernel)⟩

/-- A result of thread 0 under flag 3. -/
def out0 : Out := { key := { t := 0, gl := 0 }, flag := some 3, regs := [(.v 4, 5, none)], ready := true, tag := 0 }

/-- ResultArrives: for a running and for an exited thread. -/
theorem witness_result :
    (∃ g, (with_ fun g => { g with outs := [out0] }).groups[0]? = some g ∧ g.Shaped
      ∧ (g.outs[0]? = some out0 ∧ out0.ready = true ∧ g.find out0.key = some (thread 0) ∧ (thread 0).place ≠ .exited))
    ∧ ∃ g, (withThread 0 fun t => { t with place := .exited }).groups[0]? = some g ∧ g.Shaped
      ∧ g.find out0.key = some { thread 0 with place := .exited } :=
  ⟨group_of _ (by decide +kernel), group_of _ (by decide +kernel)⟩

/-! ### Hypotheses that are met: stepping, clauses and control -/

/-- A header. -/
def hdr8 : Header := { wait := 8, set1 := 3, set2 := 15, count := 0 }
/-- The sheaf stands at a header. -/
def atHeader : State := with_ fun g => { g with sheaves := [{ sheaf with pc := 0x1000, inClause := false }] }

/-- A result for V0 is pending. -/
def pending : State := with_ fun g => { g with outs := [{ out0 with flag := none, regs := [(.v 0, 5, none)] }] }

/-- ClauseRules: a header whose mask is clear, one that waits, one inside a clause; a register past the launch's, an EXIT
before the last place, and a source that is pending. -/
theorem witness_clause :
    (∃ g, atHeader.groups[0]? = some g ∧ g.Shaped ∧ (atHeader.cur = some (0, 0) ∧ ∃ sh ∈ g.sheaves[0]?, sh.inClause = false
      ∧ hdr8.wellFormed = true ∧ ∀ t ∈ g.members sh, ∀ f < 12, hdr8.wait.getLsbD f = true → t.flags.getD f 0 = 0))
    ∧ (∃ g, (with_ fun g => { g with
          threads := [{ thread 0 with flags := [0, 0, 0, 1, 0, 0, 0, 0, 0, 0, 0, 0] }, thread 1]
          sheaves := [{ sheaf with pc := 0x1000, inClause := false }] }).groups[0]? = some g ∧ g.Shaped
      ∧ ∃ sh ∈ g.sheaves[0]?, sh.inClause = false
        ∧ ∃ t ∈ g.members sh, ∃ f < 12, hdr8.wait.getLsbD f = true ∧ t.flags.getD f 0 ≠ 0)
    ∧ (∃ g, base.groups[0]? = some g ∧ g.Shaped ∧ ∃ sh ∈ g.sheaves[0]?, sh.inClause = true)
    ∧ (∃ c, base.cx ((rr 6).firstWord Op.add.code.1) 3 .add { rr 6 with op0 := .v 16 } = some c ∧ c.g.Shaped
        ∧ allocOk c.g .add { rr 6 with op0 := .v 16 } = false)
    ∧ (∃ c, (with_ fun g => { g with sheaves := [{ sheaf with hdr := { sheaf.hdr with count := 1 } }] }).cx
          (({} : Ext).firstWord Op.reform.code.1) 3 .reform {} = some c ∧ c.g.Shaped
        ∧ (allocOk c.g .reform {} = true ∧ Op.reform.endsClause = true ∧ c.sh.idx < c.sh.hdr.count.toNat))
    ∧ ∃ c, pending.cx ((rr 6).firstWord Op.add.code.1)
          3 .add (rr 6) = some c ∧ c.g.Shaped
        ∧ (allocOk c.g .add (rr 6) = true ∧ Op.add.endsClause = false ∧ (rr 6).flag = 15 ∧ c.stalls pending = true) :=
  ⟨group_of _ (by decide +kernel), group_of _ (by decide +kernel), group_of _ (by decide +kernel),
    ready_of _ (by decide +kernel), ready_of _ (by decide +kernel), ready_of _ (by decide +kernel)⟩

/-- NOP stands at the sheaf's PC. -/
def coded : State :=
  { base with
    schedule := [.issue 0 0]
    ms := { base.ms with mem := Memory.writeN base.ms.mem 0x1004 (bytesOfWords (encode (.nop {}))) } }

/-- A pin of another group on the line of the sheaf's instruction. -/
def fetchPinned : State :=
  { coded with ms := { coded.ms with pins := [{ cl := 0, group := 8, line := 0x1004 / 128, vf := 0, arena := 0, taken := 0 }] } }

/-- StepRunsDecoded: the fetch at a header place and in a clause, a step that runs NOP, one whose line another group has
pinned, and a clock that is withheld, if Furze withholds one. -/
theorem witness_step :
    (base.xlate 0 0 0x1000 { x := true } = .ok 0x1000 0 ∧ (base.vf 0).staleAt 0 = false ∧ base.errs 0x1000 = false)
    ∧ (∀ i < 5, coded.xlate 0 0 ((0x1004 : Addr) + 4 * BitVec.ofNat 64 i).toNat { x := true } = .ok (0x1004 + 4 * i) 0
        ∧ (coded.vf 0).staleAt 0 = false ∧ coded.errs (0x1004 + 4 * i) = false)
    ∧ majorOf (BitVec.ofNat 32 (leNat (Memory.readN coded.ms.mem 0x1004 4))) ≠ 0
    ∧ coded.chip.dead = false ∧ coded.waits group sheaf = false ∧ coded.withholds = false
    ∧ (let u := coded.atIssue 0 0 group sheaf
      let g := group.atIssue 0 sheaf
      (match u.fetchAt g (sheaf.atRc 9) with
        | .words ws => (match decodeWords ws with
            | .ok (i, rest) => i.asExt == some (Op.nop, {}) && rest.isEmpty && majorOf (ws.headD 0) != 0
            | .error _ => false)
        | _ => false) = true
      ∧ (u.fetched 0 0 group sheaf 3).breaks g (sheaf.atRc 9).pc = false ∧ u.fetchHeld g (sheaf.atRc 9) 3 = none)
    ∧ (fetchPinned.atIssue 0 0 group sheaf).fetchHeld (group.atIssue 0 sheaf) (sheaf.atRc 9) 3 = some (0x1004 / 128)
    ∧ coded.icache = []
    ∧ ∀ n, Config.withheld n = true →
        ({ coded with clock := n, chip := { coded.chip with throttled := true } } : State).withholds = true :=
  ⟨by decide +kernel, by decide +kernel, by decide +kernel, rfl, by decide +kernel, by decide +kernel, by decide +kernel,
    by decide +kernel, rfl, fun n h => by
      change (true && Config.withheld n && !base.groups.any Group.leaving) = true
      rw [h]
      decide +kernel⟩

theorem next_time : isNext (step { base with schedule := [.time 1 1] }) = true := by decide +kernel

/-- StepKeepsMemory, StepKeepsShape, MemoryWrite: time passes on a state with a group. -/
theorem witness_invariants :
    ({ base with schedule := [.time 1 1] }).MemOk ∧ ({ base with schedule := [.time 1 1] }).Shaped
    ∧ (∃ t, step { base with schedule := [.time 1 1] } = .next t) ∧ Memory.wf mem = true :=
  ⟨by unfold State.MemOk; decide +kernel,
    ⟨fun g hg => by rw [List.mem_singleton.mp hg]; exact shaped_of (by decide +kernel),
      fun t ht => by rw [List.mem_singleton.mp ht]; intro x hx; exact absurd hx (List.not_mem_nil)⟩,
    next_of next_time, by decide +kernel⟩

/-- A clause header of one instruction stands at the header place, and the sheaf at it. -/
def headed : State :=
  { atHeader with
    schedule := [.issue 0 0]
    ms := { base.ms with mem := Memory.writeN base.ms.mem 0x1000 (bytesOfWords [hdr8.toWord]) } }
/-- The slot has issued in this clock. -/
def spent : State := coded.setSlot 0 0 fun x => { x with last := some coded.clock }
/-- What stands first in the order of the slot. -/
def firstOffer (s : State) : Option (Nat × Nat) := (s.offers 0 0).head?.bind fun x => s.sheafAt x.group x.key

/-- StepRunsDecoded, OfferOrder: a slot with a sheaf at a header that goes on; one that has issued in this clock; one whose
first offer issues. -/
theorem witness_slot :
    (((headed.drawnAt 0 0 false).find? fun x => !headed.maskedAt x.1 x.2).bind fun x =>
        headed.sheafAt x.1.uid (x.2.members.headD { t := 0, gl := 0 })) = some (0, 0)
    ∧ ((spent.drawnAt 0 0 false).isEmpty = true ∧ spent.issued 0 0 = true)
    ∧ (coded.drawnAt 0 0 false).isEmpty = true ∧ coded.issued 0 0 = false ∧ firstOffer coded = some (0, 0)
    ∧ ((coded.offers 0 0).head?.map fun x => coded.accepts 0 0 x.engine) = some true
    ∧ (match coded.issueAt 0 0 with
        | .next t => t.issued 0 0
        | _ => false) = true :=
  ⟨by decide +kernel, by decide +kernel, by decide +kernel, by decide +kernel, by decide +kernel, by decide +kernel,
    by decide +kernel⟩

/-- HintsYieldAndExit: NOP, ICINV, YIELD with and without a guard-true thread, and EXIT. -/
theorem witness_hints :
    (∃ c, base.readyE .nop {} = some c ∧ c.g.Shaped ∧ c.pres ≠ [])
    ∧ (∃ c, base.readyE .pref { op1 := .slo 0, op2 := .k 0 } = some c ∧ c.g.Shaped ∧ c.pres ≠ [])
    ∧ (∃ c, base.readyE .icinv {} = some c ∧ c.g.Shaped ∧ (c.pres ≠ [] ∧ c.act ≠ [] ∧ base.fab.reqs = []))
    ∧ (∃ c, base.readyE .icinv { gp := 0 } = some c ∧ c.g.Shaped ∧ (c.pres ≠ [] ∧ c.act = []))
    ∧ (∃ c, base.readyE .yield {} = some c ∧ c.g.Shaped ∧ c.act ≠ [])
    ∧ (∃ c, base.readyE .yield { gp := 0 } = some c ∧ c.g.Shaped ∧ c.act = [])
    ∧ ∃ c, base.readyE .exit {} = some c ∧ c.g.Shaped
        ∧ (c.act ≠ [] ∧ (∀ th ∈ c.act, th.part = none ∧ th.solo = none ∧ ∀ m ∈ th.marks, m.2 ≠ .ecc)
          ∧ ∀ m ∈ c.g.marksS, m.2 ≠ .ecc) :=
  ⟨ready_of _ (by decide +kernel), ready_of _ (by decide +kernel), ready_of _ (by decide +kernel),
    ready_of _ (by decide +kernel), ready_of _ (by decide +kernel), ready_of _ (by decide +kernel), ready_of _ (by decide +kernel)⟩

/-- Thread 0 has P0 and thread 1 does not. -/
def halves (f : Group → Group) : State := with_ fun g => f { g with threads := [{ thread 0 with p := 129 }, thread 1] }

/-- BranchUniform: every thread takes, none takes, and one of two takes. -/
theorem witness_uniform :
    (∃ c, base.readyE .braU { lo := 1 } = some c ∧ c.g.Shaped ∧ (c.pres ≠ [] ∧ c.act.length = c.pres.length))
    ∧ (∃ c, base.readyE .braU { lo := 1, gp := 0 } = some c ∧ c.g.Shaped ∧ (c.pres ≠ [] ∧ c.act = []))
    ∧ ∃ c, (halves id).readyE .braU { lo := 1, gp := 0 } = some c ∧ c.g.Shaped ∧ (c.act ≠ [] ∧ c.act.length ≠ c.pres.length) :=
  ⟨ready_of _ (by decide +kernel), ready_of _ (by decide +kernel), ready_of _ (by decide +kernel)⟩

/-- Four open regions. -/
def regions4 : List Region := List.replicate 4 { rc := 0x9000, target := 0x8000, taking := [], cont := [], stage := 1 }
/-- BRA `.m` under P0 with a distance of 1. -/
def braM : Ext := { gp := 0, lo := 6 }

/-- Branches: BRA .s, REFORM; BRX, RET and CALL to targets aligned and not; BRA .m that opens a region, with four open,
and undivided. -/
theorem witness_branches :
    (∃ c, (halves id).readyE .braS { gp := 0 } = some c ∧ c.g.Shaped ∧ True)
    ∧ (∃ c, base.readyE .reform {} = some c ∧ c.g.Shaped ∧ True)
    ∧ (∃ c, base.readyE .brx { op1 := .v 0 } = some c ∧ c.g.Shaped ∧ ∀ th ∈ c.act, (c.regTarget th).toNat % 4 = 0)
    ∧ (∃ c, base.readyE .ret { op1 := .v 0 } = some c ∧ c.g.Shaped ∧ ∀ th ∈ c.act, (c.regTarget th).toNat % 4 = 0)
    ∧ (∃ c, base.readyE .call { op0 := .v 4, op1 := .v 0 } = some c ∧ c.g.Shaped
        ∧ (Op.call.wellFormed { op0 := .v 4, op1 := .v 0 } = true ∧ ∀ th ∈ c.act, (c.regTarget th).toNat % 4 = 0))
    ∧ (∃ c, (withThread 1 (vs [2])).readyE .brx { op1 := .v 0 } = some c ∧ c.g.Shaped
        ∧ ∃ th ∈ c.act, (c.regTarget th).toNat % 4 ≠ 0)
    ∧ (∃ c, (withThread 1 (vs [2])).readyE .ret { op1 := .v 0 } = some c ∧ c.g.Shaped
        ∧ ∃ th ∈ c.act, (c.regTarget th).toNat % 4 ≠ 0)
    ∧ (∃ c, (withThread 1 (vs [2])).readyE .call { op0 := .v 4, op1 := .v 0 } = some c ∧ c.g.Shaped
        ∧ ∃ th ∈ c.act, (c.regTarget th).toNat % 4 ≠ 0)
    ∧ (∃ c, (halves id).readyE .braM braM = some c ∧ c.g.Shaped
        ∧ (c.pres ≠ [] ∧ c.act ≠ [] ∧ c.act.length ≠ c.pres.length ∧ c.sh.regions.length < 4))
    ∧ (∃ c, (halves fun g => { g with sheaves := [{ sheaf with regions := regions4 }] }).readyE .braM braM = some c
        ∧ c.g.Shaped ∧ (c.act ≠ [] ∧ c.act.length ≠ c.pres.length ∧ 4 ≤ c.sh.regions.length))
    ∧ ∃ c, base.readyE .braM { lo := 6 } = some c ∧ c.g.Shaped ∧ c.act.length = c.pres.length :=
  ⟨ready_of _ (by decide +kernel), ready_of _ (by decide +kernel), ready_of _ (by decide +kernel),
    ready_of _ (by decide +kernel), ready_of _ (by decide +kernel), ready_of _ (by decide +kernel),
    ready_of _ (by decide +kernel), ready_of _ (by decide +kernel), ready_of _ (by decide +kernel),
    ready_of _ (by decide +kernel), ready_of _ (by decide +kernel)⟩

/-- TrapEntersHandler: TRAP and BRK of one thread with a handler, in its clause after handler entry, and without one. -/
theorem witness_trap :
    (∃ c, (alone id).readyE .trap { imm := 77 } = some c ∧ c.g.Shaped
      ∧ (8 ≤ c.g.launch.nv ∧ c.act = [thread 0] ∧ (thread 0).key.gl = 0 ∧ (thread 0).part = none ∧ (thread 0).solo = none
        ∧ (alone id).taskOf c.g.task = some task ∧ c.g.handler ≠ 0 ∧ c.site.hdr ≠ c.g.handler))
    ∧ (let s := alone fun g => { g with
          threads := [{ thread 0 with entered := true }, { thread 1 with place := .exited }]
          sheaves := g.sheaves.map fun x => { x with hdrPc := 0x2000 } }
      ∃ c, s.readyE .trap { imm := 77 } = some c ∧ c.g.Shaped
        ∧ (c.act = [{ thread 0 with entered := true }] ∧ c.site.hdr = c.g.handler))
    ∧ (∃ c, (alone id).readyE .brk { imm := 77 } = some c ∧ c.g.Shaped ∧ (c.g.dbg = false ∧ c.act = [thread 0]))
    ∧ ∃ c, (alone fun g => { g with handler := 0 }).readyE .trap {} = some c ∧ c.g.Shaped
        ∧ (c.act = [thread 0] ∧ c.g.handler = 0) :=
  ⟨ready_of _ (by decide +kernel), ready_of _ (by decide +kernel), ready_of _ (by decide +kernel), ready_of _ (by decide +kernel)⟩

/-- SpecialRegisters: SREG of a pair, SWREG of DRAWS and of HANDLER. -/
theorem witness_special :
    (∃ c, base.readyE .sreg { op0 := .v 4, imm := 0x0D } = some c ∧ c.g.Shaped
      ∧ (Op.sreg.wellFormed { op0 := .v 4, imm := 0x0D } = true ∧ ∀ th ∈ c.act, th.key.gl = 0))
    ∧ (∃ c, base.readyE .swreg { op1 := .v 0, imm := 0x0C } = some c ∧ c.g.Shaped ∧ True)
    ∧ ∃ c, base.readyE .swreg { op1 := .v 0, imm := 0x0D } = some c ∧ c.g.Shaped ∧ c.act.head? = some (thread 0) :=
  ⟨ready_of _ (by decide +kernel), ready_of _ (by decide +kernel), ready_of _ (by decide +kernel)⟩

/-! ### Hypotheses that are met: memory and synchronisation -/

/-- An access at an address in the displacement. -/
def at2 (ty : BitVec 4) (a : BitVec 20) : Ext := { op0 := .v 4, op1 := .k 0, op2 := .k 0, imm := a, ty := ty }
/-- A store of V4 at an address in the displacement. -/
def st2 (ty : BitVec 4) (a : BitVec 20) : Ext := { op1 := .k 0, op2 := .k 0, op3 := .v 4, imm := a, ty := ty }
/-- The place of an access in page 2, and its arena. -/
def pa2 (_ : Thread) : Nat := 0x2000
/-- The root arena. -/
def ar0 (_ : Thread) : Nat := 0

/-- The memory of the state is in order, nothing is staged, and nothing waits for a pin: hypotheses that most statements of
accesses share. -/
theorem witness_settled : base.MemOk ∧ base.Settled ∧ base.ms.partials = [] ∧ base.ms.pins = [] ∧ base.ms.far = [] :=
  ⟨by unfold State.MemOk; decide +kernel, rfl, rfl, rfl, rfl⟩

/-- A release of the group performs now, and the lines that its threads are to pin find ways: shared hypotheses too. -/
theorem witness_release : (base.unpin group.uid).flushed group = true ∧ base.mayPin 0 64 = true := by decide +kernel

/-- What the issue of an instruction of the state is, for the checks. -/
def cxOf (s : State) : Option Cx := s.cx 0 3 .ld (at2 2 0x2000)

/-- An address check of the issuing instruction, as a test. -/
def checkIs (s : State) (va width : Nat) (n : Need) (f : Chk → Bool) : Bool :=
  match cxOf s with
  | some c => f (s.checkVa c va width n)
  | none => false

/-- AccessChecks: each case of the translation, and LD and ST with a failing thread and with a missing page. -/
theorem witness_access :
    (3 % 4 ≠ 0 ∧ (2 ^ 56) % 4 = 0 ∧ 2 ^ 56 ≤ 2 ^ 56)
    ∧ ({ base with ms := { base.ms with tlb := [{ tlb 2 with w := false }] } }).xlate 0 0 0x2000 { w := true } = .denied
    ∧ base.xlate 0 0 0x2000 { w := true } = .ok 0x2000 0 ∧ base.xlate 0 0 0x5000 { w := true } = .missing
    ∧ (∃ c, base.readyE .ld (at2 2 0x2002) = some c ∧ c.g.Shaped ∧ ∃ th ∈ c.actS,
        (match base.checkVa c (c.va th) c.width { r := true } with
          | .bad f => f.cls == 4
          | _ => false) = true)
    ∧ (∃ c, base.readyE .st (st2 2 0x2002) = some c ∧ c.g.Shaped ∧ ∃ th ∈ c.act,
        (match base.checkVa c (c.va th) c.width { w := true } with
          | .bad f => f.cls == 4
          | _ => false) = true)
    ∧ (∃ c, base.readyE .ld (at2 2 0x5000) = some c ∧ c.g.Shaped ∧ ∀ th ∈ c.actS,
        (match base.checkVa c (c.va th) c.width { r := true } with
          | .page _ => true
          | _ => false) = true)
    ∧ ∃ c, base.readyE .st (st2 2 0x5000) = some c ∧ c.g.Shaped ∧ ∀ th ∈ c.act,
        (match base.checkVa c (c.va th) c.width { w := true } with
          | .page _ => true
          | _ => false) = true :=
  ⟨by decide, by decide +kernel, by decide +kernel, by decide +kernel, ready_of _ (by decide +kernel),
    ready_of _ (by decide +kernel), ready_of _ (by decide +kernel), ready_of _ (by decide +kernel)⟩

/-- A descriptor of a vector of 32 elements of 32 bits at 0x2000, for handle 1 (R299), in S0. -/
def withDesc : State :=
  { base with
    groups := [{ group with s := 1 :: List.replicate 511 0 }]
    ms := { base.ms with mem := mem ++ [(0x110041, 0x20), (0x110054, 0x82), (0x110055, 1), (0x110058, 32)] } }

/-- LoadsAndStores: LD, ST, LDT and STT at the base of page 2. -/
theorem witness_loads :
    (∃ c, base.readyE .ld (at2 2 0x2000) = some c ∧ c.g.Shaped
      ∧ Reach c base c.actS (fun th => base.checkVa c (c.va th) c.width { r := true }) pa2 ar0
      ∧ (∀ th ∈ c.actS, ∀ p ∈ base.ms.partials, p.pa / 128 ≠ pa2 th / 128))
    ∧ (∃ c, base.readyE .st (st2 2 0x2000) = some c ∧ c.g.Shaped
      ∧ Reach c base c.act (fun th => base.checkVa c (c.va th) c.width { w := true }) pa2 ar0
      ∧ ∀ th ∈ c.act, ∀ p ∈ base.ms.partials, p.pa / 128 ≠ pa2 th / 128)
    ∧ (∃ c, withDesc.readyE .ldt { op0 := .v 4, op1 := .slo 0, op2 := .v 8, ty := 2 } = some c ∧ c.g.Shaped
      ∧ Reach c withDesc c.actS (fun th => withDesc.checkTensor c th false) pa2 ar0
      ∧ (∀ th ∈ c.actS, ∀ p ∈ withDesc.ms.partials, p.pa / 128 ≠ pa2 th / 128))
    ∧ ∃ c, withDesc.readyE .stt { op1 := .slo 0, op2 := .v 8, op3 := .v 4, ty := 2 } = some c ∧ c.g.Shaped
      ∧ Reach c withDesc c.act (fun th => withDesc.checkTensor c th true) pa2 ar0
      ∧ (Memory.wf withDesc.ms.mem = true ∧ withDesc.ms.late = []
        ∧ ∀ th ∈ c.act, ∀ p ∈ withDesc.ms.partials, p.pa / 128 ≠ pa2 th / 128) :=
  ⟨reach_ready _ (by decide +kernel), reach_ready _ (by decide +kernel), reach_ready _ (by decide +kernel),
    reach_ready _ (by decide +kernel)⟩

/-- The group is in a set of one member, itself, that exchanges; its list is all zero. -/
def inSet (f : Group → Group) : State := with_ fun g => f { g with
  sets := [(0, 0)]
  launch := { launch with sets := 0x0001000000400009 :: List.replicate 255 0 } }

/-- ScratchStores: STS at the last word of the scratch area's space, STX to the member itself. -/
theorem witness_scratch :
    (∃ c, base.readyE .sts (st2 2 636) = some c ∧ c.g.Shaped
      ∧ ∀ th ∈ c.act, c.sp th c.e.scale % c.width = 0 ∧ c.sp th c.e.scale + c.width ≤ c.g.launch.space)
    ∧ ∃ c, (inSet id).readyE .stx { st2 2 512 with op0 := .k 0 } = some c ∧ c.g.Shaped
      ∧ (c.g.xchgSet = some (0, 0x0001000000400009, 0) ∧ ∀ th ∈ c.act, c.stxFault (setCount 0x0001000000400009) th = none) :=
  ⟨ready_of _ (by decide +kernel), ready_of _ (by decide +kernel)⟩

/-- The group holds the first line of page 2, and thread 0 acts alone. -/
def ownPin : State :=
  { alone id with ms := { base.ms with pins := [{ cl := 0, group := 9, line := 64, vf := 0, arena := 0, taken := 0 }] } }

/-- AtomicsAndReductions: ATOM, ATOMS and RED, and a partial alone on its line. -/
theorem witness_atomics :
    (∃ c, base.readyE .atom { at2 6 0x2000 with op3 := .v 6 } = some c ∧ c.g.Shaped
      ∧ Reach c base c.actS (fun th => base.checkVa c (c.g.address th c.e 2 64 c.atomScale) c.atomBytes
          { r := true, w := true }) pa2 ar0
      ∧ True)
    ∧ (∃ c, base.readyE .atoms { at2 6 636 with op3 := .v 6 } = some c ∧ c.g.Shaped
      ∧ ∀ th ∈ c.actS, c.sp th c.atomScale % c.atomBytes = 0 ∧ c.sp th c.atomScale + c.atomBytes ≤ c.g.launch.space
        ∧ c.g.spErrs (c.sp th c.atomScale) c.atomBytes = false)
    ∧ (2 ∈ [2, 3, 6, 7] ∧ 5 < 2 ^ 32)
    ∧ (∃ c, base.readyE .red { at2 6 0x2000 with op0 := .v 0, op3 := .v 6 } = some c ∧ c.g.Shaped
      ∧ Reach c base c.act (fun th => base.checkVa c (c.g.address th c.e 2 64 c.atomScale) c.atomBytes { w := true }) pa2 ar0
      ∧ (∀ th ∈ c.act, base.mayStage (c.g.vf / 16) c.g.cl (pa2 th / 128) = true))
    ∧ (∃ c, ownPin.readyE .red { at2 6 0x2000 with op0 := .v 0, op3 := .v 6 } = some c ∧ c.g.Shaped
      ∧ (c.act = [thread 0] ∧ c.releases = false ∧ ∃ q ∈ ownPin.ms.pins, q.line = 64 ∧ q.group = c.g.uid))
    ∧ ∃ p : Partial, (([p] : List Partial).filter fun q => q.pa / 128 = p.pa / 128) = [p] :=
  ⟨reach_ready _ (by decide +kernel), ready_of _ (by decide +kernel), by decide, reach_ready _ (by decide +kernel),
    ready_of _ (by decide +kernel), ⟨{ id := 1, cl := 0, pa := 0x2000, op := 0, ty := 6, width := 4, val := 3, vf := 0, arena := 0, bad := false }, by decide⟩⟩

/-- Thread 1 has V0 = 4, and words 0 and 1 are full. -/
def apart4 (fe : List Nat) : State := with_ fun g => { g with
  threads := [thread 0, vs [4] (thread 1)], fe := fe }
/-- LDF of a word at V0. -/
def ldf : Ext := { op0 := .v 4, op1 := .v 0, op2 := .k 0, ty := 2, rm := 1 }
/-- STE of V4 at V0. -/
def ste : Ext := { op1 := .v 0, op2 := .k 0, op3 := .v 4, ty := 2 }

/-- FullEmpty: LDF on full words, STE on empty ones, LDF of one thread on an empty word, FEINIT. -/
theorem witness_full_empty :
    (∃ c, (apart4 [0, 1]).readyE .ldf ldf = some c ∧ c.g.Shaped ∧ (c.g.feWaiters.isEmpty = true
      ∧ Op.ldf.wellFormed ldf = true
      ∧ (∀ th ∈ c.act, c.sp th c.e.scale % c.width = 0 ∧ c.sp th c.e.scale + c.width ≤ c.g.launch.space)
      ∧ (c.act.map fun th => c.g.feWords (c.sp th c.e.scale) c.wregs) = [[0], [1]]
      ∧ ∀ th ∈ c.act, ∀ w ∈ c.g.feWords (c.sp th c.e.scale) c.wregs, w ∈ c.g.fe))
    ∧ (∃ c, (apart4 []).readyE .ste ste = some c ∧ c.g.Shaped ∧ (c.g.feWaiters.isEmpty = true
      ∧ Op.ste.wellFormed ste = true ∧ (c.act.map fun th => c.g.feWords (c.sp th c.e.scale) c.wregs) = [[0], [1]]
      ∧ ∀ th ∈ c.act, ∀ w ∈ c.g.feWords (c.sp th c.e.scale) c.wregs, w ∉ c.g.fe))
    ∧ (∃ c, (alone id).readyE .ldf ldf = some c ∧ c.g.Shaped ∧ (c.g.feWaiters.isEmpty = true ∧ c.act = [thread 0]
      ∧ ∃ w ∈ c.g.feWords (c.sp (thread 0) c.e.scale) c.wregs, w ∉ c.g.fe))
    ∧ (∃ c, (alone fun g => { g with fe := [0] }).readyE .ste ste = some c ∧ c.g.Shaped ∧ (c.g.feWaiters.isEmpty = true
      ∧ c.act = [thread 0] ∧ ∃ w ∈ c.g.feWords (c.sp (thread 0) c.e.scale) c.wregs, w ∈ c.g.fe))
    ∧ ∃ c, (withThread 1 fun t => vs [0, 0, 0, 0, 0, 0, 160] t).readyE .feinit { op1 := .v 0, op2 := .k 0, op3 := .v 6 } = some c ∧ c.g.Shaped
      ∧ ((∃ th ∈ c.act, c.g.src th 1 c.e.op3 ≠ 0)
        ∧ ∀ th ∈ c.act, c.sp th c.e.scale % 4 = 0 ∧ c.sp th c.e.scale + 4 * c.g.src th 1 c.e.op3 ≤ c.g.launch.space) :=
  ⟨ready_of _ (by decide +kernel), ready_of _ (by decide +kernel), ready_of _ (by decide +kernel),
    ready_of _ (by decide +kernel), ready_of _ (by decide +kernel)⟩

/-- Thread 0 is held since clock 0; the clock has passed every timeout. -/
def holding (h : Hold) : State :=
  { (withThread 0 fun t => { t with place := .held h { pc := 0x1004, hdr := 0x1000, next := 0x1010, word := 0, idx := 0 } 0 1 })
      with clock := 2400 }

/-- WordWaits: a held LDF and STE at their timeout, a watched word at its poll, and WAITA. -/
theorem witness_waits :
    (∃ g, (holding (.ldf 0 1 true 4)).groups[0]? = some g ∧ g.Shaped ∧ (g.stop = .running
      ∧ 0 + 2 ^ g.launch.fexp ≤ (holding (.ldf 0 1 true 4)).clock))
    ∧ (∃ g, (holding (.ste 0 [1])).groups[0]? = some g ∧ g.Shaped ∧ g.stop = .running)
    ∧ (∃ g, (holding (.waita 0x2000 0x2000 0 4 false false 0)).groups[0]? = some g ∧ g.Shaped
      ∧ (0 + 2400 ≤ (holding (.waita 0x2000 0x2000 0 4 false false 0)).clock
        ∧ (holding (.waita 0x2000 0x2000 0 4 false false 0)).ms.partials = []
        ∧ (holding (.waita 0x2000 0x2000 0 4 false false 0)).ms.refuses (some g.uid) (0x2000 / 128) = false
        ∧ (holding (.waita 0x2000 0x2000 0 4 false false 0)).errs 0x2000 = false))
    ∧ ({ base.ms with pins := [{ cl := 0, group := 8, line := 64, vf := 0, arena := 0, taken := 0 }] } : MemSide).refuses (some 9) 64
        = true
    ∧ ∃ c, base.readyE .waita { op1 := .k 0, op2 := .k 0, op3 := .v 4, imm := 0x2000, ty := 6, sc := 1 } = some c ∧ c.g.Shaped
      ∧ Reach c base c.act (fun th => base.checkVa c (c.va th) (4 * c.n) { r := true }) pa2 ar0 ∧ base.ms.partials = [] :=
  ⟨group_of _ (by decide +kernel), group_of _ (by decide +kernel), group_of _ (by decide +kernel),
    by decide +kernel, reach_ready _ (by decide +kernel)⟩

/-- The group with a set phase that has arrived at its set at barrier 0. -/
def sentSet (swap : Bool) : Group := { group with
  sets := [(0, 0)]
  launch := { launch with sets := 0x0001000000400009 :: List.replicate 255 0 }
  bars := [{ c := 2, dflt := false, arrivals := 0, phase := 0, pending := 0, sets := [(0, 0, swap)], sent := true }] }
/-- The task of that group. -/
def setTask : Task := { task with launch := (sentSet true).launch }
/-- The state of that group. -/
def setState : State := { base with groups := [sentSet true], tasks := [setTask] }

/-- Barriers: arrivals that complete a phase and that do not, set phases, `.wait`, BAREXP, and a set all of whose members
have arrived. -/
theorem witness_barriers :
    (∃ c, base.readyE .barSync { op0 := .k 0, lo := 2 } = some c ∧ c.g.Shaped
      ∧ (c.act ≠ [] ∧ c.g.arvs = [] ∧ (∀ th ∈ c.act, base.arriveIds c.g th.key = [])
        ∧ c.barrier < c.g.bars.length ∧ (c.g.bar c.barrier).sets = [] ∧ (c.g.bar c.barrier).sent = false
        ∧ (c.g.bar c.barrier).arrivals + c.act.length = (c.g.bar c.barrier).c ∧ (c.g.bar c.barrier).pending = 0))
    ∧ (∃ c, (alone id).readyE .barArv { op0 := .k 1 } = some c ∧ c.g.Shaped
      ∧ (c.act ≠ [] ∧ (c.g.bar c.barrier).arrivals + c.act.length < (c.g.bar c.barrier).c))
    ∧ (∃ c, (inSet id).readyE .barSet { op0 := .k 0, op1 := .k 0, lo := 3 } = some c ∧ c.g.Shaped ∧ c.act ≠ [])
    ∧ (∃ c, (inSet id).readyE .barSwap { op0 := .k 0, lo := 4 } = some c ∧ c.g.Shaped ∧ c.act ≠ [])
    ∧ (∃ c, base.readyE .barWait { op0 := .k 0, lo := 1 } = some c ∧ c.g.Shaped ∧ (c.barrier < c.g.bars.length ∧ c.g.arvs = []))
    ∧ (∃ c, base.readyE .barexp { op0 := .k 0, op1 := .k 127 } = some c ∧ c.g.Shaped
      ∧ ((c.g.bar c.barrier).arrivals < (c.g.bar c.barrier).c ∧ (c.g.bar c.barrier).pending < 2 ^ 56))
    ∧ (setState.taskOf setTask.uid = some setTask ∧ setTask.saved = [] ∧ setTask.finished = []
      ∧ setValid (setTask.launch.sets.getD 0 0) = true
      ∧ ((List.range (setCount (setTask.launch.sets.getD 0 0))).map fun m =>
          setState.devNat 0 (setTask.lrec + setList (setTask.launch.sets.getD 0 0) + 4 * m) 4) = [0]
      ∧ setTask.cursor ≤ 0 ∧ ((sentSet true).sentBar 0).isSome = true ∧ setState.flushed (sentSet true) = true
      ∧ (sentSet true).feWaiters.isEmpty = true
      ∧ (setState.groups.map fun g => (g.task, g.gidx)).Nodup) :=
  ⟨ready_of _ (by decide +kernel), ready_of _ (by decide +kernel), ready_of _ (by decide +kernel),
    ready_of _ (by decide +kernel), ready_of _ (by decide +kernel), ready_of _ (by decide +kernel), by decide +kernel⟩

/-- Fences: a fence of class V at cluster and at device scope. -/
theorem witness_fences :
    (∃ c, base.readyE .fence { ty := 4, sc := 2 } = some c ∧ c.g.Shaped ∧ (c.act ≠ [] ∧ (base.ms.partials.map Partial.id).Nodup))
    ∧ ∃ c, base.readyE .fence { ty := 4, sc := 4 } = some c ∧ c.g.Shaped ∧ (c.act ≠ [] ∧ base.ms.partials = []) :=
  ⟨ready_of _ (by decide +kernel), ready_of _ (by decide +kernel)⟩

/-! ### Hypotheses that are met: rows, copies, streams and the matrix engine -/

/-- VOTE of P0. -/
def vote : Ext := { op0 := .v 4, op1 := .k 0 }

/-- RowCollectives: ROWRED of a row of two threads and QBLK; RowStall has the same row with a timeout of 2^10. -/
theorem witness_rows :
    (∃ c, base.readyE .rowred (r1 6) = some c ∧ c.g.Shaped ∧ (Op.rowred.wellFormed (r1 6) = true
      ∧ c.g.stop = .running ∧ c.g.insts = [] ∧ c.g.sheaves = [c.sh] ∧ c.sh.regions = [] ∧ c.g.members c.sh ≠ []
      ∧ ∀ th ∈ c.g.threads, th.key.gl = 0 ∧ th.key.t < 32 ∧ th.part = none ∧ th.solo = none
        ∧ (th.place = .exited ∨ (th.place = .sheaf ∧ th.key ∈ c.sh.members))))
    ∧ (∃ c, (alone id).readyE .elect { op0 := .k 0 } = some c ∧ c.g.Shaped ∧ (Op.elect.wellFormed { op0 := .k 0 } = true
      ∧ ∀ th ∈ c.g.threads, th.key.gl = 0 ∧ th.key.t < 32 ∧ th.part = none ∧ th.solo = none
        ∧ (th.place = .exited ∨ (th.place = .sheaf ∧ th.key ∈ c.sh.members)))) :=
  ⟨ready_of _ (by decide +kernel), ready_of _ (by decide +kernel)⟩

/-- A template of one 32-bit element between global addresses (R215), with more bits. -/
def tmpl1 (more : Nat) : BitVec 512 := BitVec.ofNat 512 (2 ^ 63 + 2 * 2 ^ 14 + 2 * 2 ^ 18 + 127 * 2 ^ 29 + 127 * 2 ^ 36
  + 2 ^ 128 + 2 ^ 160 + 2 ^ 192 + 2 ^ 224 + more)
/-- A launch with that template, and one that multicasts into a scratchpad (R222). -/
def withTmpl : State := inSet fun g => { g with launch := { g.launch with templates := [tmpl1 0, tmpl1 (2 ^ 61 + 2 ^ 10)] } }
/-- The operands of CPY. -/
def cpy : Ext := { op0 := .v 4, op1 := .slo 0, op2 := .slo 2 }
/-- A part of a command. -/
def part0 : CPart := { gidx := 0, unit := 0, started := true, tile := none, wait := none, pin := none, status := none, ended := false
                       stamp := none, lost := false }
/-- A command that copies a word. -/
def copy0 (src dst : Nat) (st : Option Nat) : Copy :=
  { id := 40, cl := 0, vf := 0, group := some 9, key := { t := 0, gl := 0 }, chan := none, block := none, tmpl := tmpl1 0, tindex := 0
    ks := launch.ks, args := launch.args, lrec := 0x3000, csize := 8192, src := src, dst := dst, slack := 0, entered := 0
    bar := none, token := 0, sigma := none, parts := [{ part0 with status := st }], far := [], got := [], began := 1, after := []
    site := { pc := 0x1004, hdr := 0x1000, next := 0x1010, word := 0, idx := 0 } }
/-- The state with that command. -/
def copying (src dst : Nat) (st : Option Nat) : State := { base with copies := [copy0 src dst st] }

/-- CopyCommands: CPY and CPYM with room, and with 64 commands before them. -/
theorem witness_copies :
    (∃ c, withTmpl.readyE .cpy cpy = some c ∧ c.g.Shaped ∧ (c.sh.acted = [] ∧ withTmpl.queued c.g.cl + c.actS.length ≤ 64))
    ∧ (∃ c, withTmpl.readyE .cpym { cpy with imm := 1, op3 := .k 0 } = some c ∧ c.g.Shaped
      ∧ (c.sh.acted = [] ∧ withTmpl.queued c.g.cl + c.actS.length ≤ 64))
    ∧ ∃ c, ({ withTmpl with copies := List.replicate 64 (copy0 0 0 none) }).readyE .cpy cpy = some c ∧ c.g.Shaped
      ∧ (c.sh.acted = [] ∧ 64 < ({ withTmpl with copies := List.replicate 64 (copy0 0 0 none) }).queued c.g.cl + c.actS.length) :=
  ⟨ready_of _ (by decide +kernel), ready_of _ (by decide +kernel), ready_of _ (by decide +kernel)⟩

/-- The place is in memory, at an address. -/
def isMem (a : Nat) : Spot → Bool
  | .mem pa _ => pa == a
  | _ => false

/-- The look of a unit ends after elements with a status, as a test. -/
def goes (n : Nat) (st : Option Nat) : Look → Bool
  | .go m x => m == n && x == st
  | _ => false

/-- CopyUnit and CopyCompletes: a word from 0x2000 to 0x3000, one that starts at a misaligned address, one with a stale DTARG
handle, and one at its end. -/
theorem witness_copy_unit :
    (let s := copying 0x2000 0x3000 none
      let k := copy0 0x2000 0x3000 none
      s.endAll 0 = s ∧ (s.nextCopy 0).map (fun x => (x.1.id, x.2)) = some (40, 0) ∧ k.parts[0]? = some part0 ∧ k.began ≠ 0
        ∧ part0.started = true ∧ (s.partGroup k part0).isNone = true ∧ k.elems part0.unit = [0] ∧ k.block = none ∧ k.got = []
        ∧ isMem 0x2000 (s.copySrc k 0) = true ∧ isMem 0x3000 (s.copyDst k none (s.partBase k none part0) 0) = true
        ∧ k.conv = 0 ∧ tf k.tmpl 18 4 ≠ 14 ∧ k.mcast = false ∧ k.dtarg = 127 ∧ k.dbits = 8 * 4 ∧ k.sbits = 8 * 4 ∧ s.ms.partials = [] ∧ s.ms.spoilt = [] ∧ s.errs 0x3000 = false
        ∧ (k.sa 0).2 = 0 ∧ ∀ m ∈ s.copies, m.id = k.id → m = k)
    ∧ (let s := copying 0x2002 0x3000 none
      let k := copy0 0x2002 0x3000 none
      let v := s.setPart k.id 0 fun p => { p with stamp := some ((part0.stamp).getD s.stamp) }
      (s.nextCopy 0).isSome = true ∧ goes 0 (some 4) (v.lookSrc k (k.elems part0.unit) 0) = true
        ∧ (let u := (v.copyCodes k []).1
          goes 0 none (u.lookDst k none (u.partBase k none part0) [] 0) = true)
        ∧ (match s.copySrc k 0 with
          | .bad st => st == 4
          | _ => false) = true)
    ∧ (let k := { copy0 0x2000 0x3000 none with
          tmpl := BitVec.ofNat 512 ((tmpl1 0).toNat - 126 * 2 ^ 36)
          args := [0, 2] }
      let s : State := { base with copies := [k] }
      (s.nextCopy 0).isSome = true ∧ k.dtarg = 1 ∧ (s.copyDesc k k.dtarg).isNone = true)
    ∧ (let s := copying 0x2000 0x3000 (some 0)
      (s.copies.filter fun k => k.cl = 0)[0]? = some (copy0 0x2000 0x3000 (some 0)) ∧ s.groupOf 9 = some 0
        ∧ (copy0 0x2000 0x3000 (some 0)).mcast = false ∧ s.fab.reqs = [] ∧ (s.vf 0).traces (some 0) = false) :=
  ⟨by decide +kernel, by decide +kernel, by decide +kernel, by decide +kernel⟩

/-- CopyAperture: no command is there, and one whose argument block can be read. -/
theorem witness_copy_aperture :
    (base.copies.filter fun k => k.cl = Config.clusters + 3 && k.chan = some 63).length < 16
    ∧ (let k := { copy0 0 0 none with cl := Config.clusters, group := none, chan := some 0, block := some 0x2000 }
      let s : State := { base with copies := [k] }
      s.endAll Config.clusters = s ∧ (s.nextCopy Config.clusters).map (fun x => (x.1.id, x.2)) = some (40, 0)
        ∧ (s.blockWaits 0 0x2000 64).isNone = true ∧ s.devRecall 0 0x2000 64 = s) :=
  ⟨by decide +kernel, by decide +kernel⟩

/-- A ring of two tiles of 128 bytes filled by requests (R224). -/
def ring : BitVec 256 := BitVec.ofNat 256 (2 + 4 + 8 + 128 * 2 ^ 64 + 2 * 2 ^ 80)
/-- An affine stream in a scratchpad. -/
def affine : BitVec 256 := BitVec.ofNat 256 (1 + 4 + 2 ^ 64 + 2 ^ 80 + 2 ^ 96 + 2 ^ 112)
/-- The state of a ring. -/
def ringState (t : List (TileState × Bool)) : Stream := { idx := [0, 0, 0, 0], r := 0, p := 0, a := 0, tiles := t }
/-- The group with stream 0 a ring in that state, and stream 1 affine. -/
def ringed (t : List (TileState × Bool)) : State := with_ fun g => { g with
  launch := { g.launch with streams := ring :: affine :: List.replicate 14 0 }
  streams := ringState t :: g.streams.drop 1 }

/-- A sheaf is held at a QRST of stream 0. -/
def atRst : SheafHold := .stream 0 0 true { pc := 0x1004, hdr := 0x1000, next := 0x1010, word := 0, idx := 0 }

/-- Streams: QPOP of a tile in error, QPEEK, QPUSH, QADV of a ring and of an affine stream, QRST; RingEvents: a reserved
and an advanced tile, and a ring that a QRST waits for. -/
theorem witness_streams :
    (∃ c, (ringed [(.filled, true), (.free, false)]).readyE .qpop { op0 := .slo 4, op1 := .k 0 } = some c ∧ c.g.Shaped
      ∧ (c.act.head? = some (thread 0) ∧ c.g.streams[c.stream]? = some (ringState [(.filled, true), (.free, false)])
        ∧ Op.qpop.wellFormed { op0 := .slo 4, op1 := .k 0 } = true ∧ c.behind = false))
    ∧ (∃ c, (ringed [(.free, false)]).readyE .qpeek { op0 := .slo 4, op1 := .k 1 } = some c ∧ c.g.Shaped
      ∧ (c.act.head? = some (thread 0) ∧ c.stream = 1 ∧ Op.qpeek.wellFormed { op0 := .slo 4, op1 := .k 1 } = true))
    ∧ (∃ c, (ringed [(.free, false), (.free, false)]).readyE .qpush { op1 := .k 0 } = some c ∧ c.g.Shaped
      ∧ c.g.streams[c.stream]? = some (ringState [(.free, false), (.free, false)]))
    ∧ (∃ c, (ringed [(.popped, false), (.free, false)]).readyE .qadv { op1 := .k 0 } = some c ∧ c.g.Shaped
      ∧ (streamKind c.entry = 2 ∧ c.g.streams[c.stream]? = some (ringState [(.popped, false), (.free, false)])))
    ∧ (∃ c, (ringed []).readyE .qadv { op1 := .k 1 } = some c ∧ c.g.Shaped ∧ streamKind c.entry ≠ 2)
    ∧ (∃ c, (ringed [(.filled, false), (.free, false)]).readyE .qrst { op1 := .k 0 } = some c ∧ c.g.Shaped
      ∧ c.g.streams[c.stream]? = some (ringState [(.filled, false), (.free, false)]))
    ∧ (∃ g, (ringed [(.reserved, false)]).groups[0]? = some g ∧ g.Shaped
      ∧ (g.streams[0]? = some (ringState [(.reserved, false)]) ∧ sf (g.launch.streams.getD 0 0) 3 1 = 1))
    ∧ (∃ g, (ringed [(.advanced [4], false)]).groups[0]? = some g ∧ g.Shaped
      ∧ (g.streams[0]? = some (ringState [(.advanced [4], false)]) ∧ base.underWay = []))
    ∧ ∃ g, (with_ fun g => { g with sheaves := [{ sheaf with hold := atRst }] }).groups[0]? = some g
      ∧ g.Shaped ∧ g.stop = .running :=
  ⟨ready_of _ (by decide +kernel), ready_of _ (by decide +kernel), ready_of _ (by decide +kernel),
    ready_of _ (by decide +kernel), ready_of _ (by decide +kernel), ready_of _ (by decide +kernel),
    group_of _ (by decide +kernel), group_of _ (by decide +kernel), group_of _ (by decide +kernel)⟩

/-- A group with a scratch area of 16 KiB. -/
def big (f : Group → Group) : State := alone fun g => f { g with launch := { g.launch with scratch := 16384 } }
/-- The state with a tensor of 32 by 32 FP32 elements at 0x2000, for handle 1 in S0. -/
def tensor : State :=
  let s := alone fun g => { g with s := 1 :: List.replicate 511 0 }
  { s with ms := { s.ms with mem := mem ++ [(0x110041, 0x20), (0x110054, 0x89), (0x110055, 2), (0x110058, 32),
      (0x11005C, 32), (0x110068, 128)] } }

/-- MatrixCommands: each clause. -/
theorem witness_matrix :
    (∃ c, (big id).readyE .azero { op0 := .k 0, op1 := .k 3 } = some c ∧ c.g.Shaped ∧ (c.act ≠ []
      ∧ ((big id).mxQueue c.g.cl false).length = 0))
    ∧ (let e : Ext := { op0 := .k 0, op1 := .k 0, op2 := .k 1, ty := 10, lo := 4 }
      ∃ c, (big id).readyE .wbld e = some c ∧ c.g.Shaped ∧ (c.act ≠ [] ∧ c.mxBase true % 16 = 0
        ∧ (let len := c.g.arg c.first .wbld e 1 2 * panelBytes false (mxContainer e.ty.toNat c.slotA)
          0 < len ∧ len ≤ 32768 ∧ c.mxBase true + len ≤ c.g.launch.space)))
    ∧ (∃ c, (big id).readyE .aadd { op0 := .k 0, op1 := .k 1 } = some c ∧ c.g.Shaped ∧ (c.act ≠ []
        ∧ ∀ x ∈ [Opnd.k 0, .k 1], (big id).tileBusy c.g x.index = false ∧ (big id).tileMark c.g x = none
          ∧ (big id).tileHurt c.g x = none))
    ∧ (∃ c, (big id).readyE .aadd { op0 := .k 0, op1 := .k 0, op2 := .k 0, lo := 4 } = some c ∧ c.g.Shaped
        ∧ (c.mxBase true % 16 = 0 ∧ c.mxBase true + 16384 ≤ c.g.launch.space))
    ∧ (let e : Ext := { op0 := .k 0, op1 := .k 0, op2 := .slo 0, ty := 9, lo := 2 }
      ∃ c, (big id).readyE .adrain e = some c ∧ c.g.Shaped ∧ (c.mxBase true % 4 = 0
        ∧ sext 32 (c.g.arg c.first .adrain e 1 2) % 4 = 0
        ∧ ∀ i < 32, c.g.launch.inOneArea (wrap 32 ((c.mxBase true : Int)
            + (i : Nat) * sext 32 (c.g.arg c.first .adrain e 1 2))) (4 * c.drainBits) = true))
    ∧ (let e : Ext := { op0 := .k 0, op1 := .slo 0, op2 := .slo 8, ty := 9, lo := 8 }
      ∃ c, tensor.readyE .adrain e = some c ∧ c.g.Shaped ∧ ((c.drainDesc tensor).toOption.any fun d =>
        tensor.checkBytes c { w := true } (drainPages d c.g.launch.ks
          ((List.range 4).map fun i => BitVec.ofNat 32 (c.g.src c.first 4 e.op2 / 2 ^ (32 * i)))) == none) = true)
    ∧ ∃ c, (big id).readyE .mma { op0 := .k 0, op1 := .k 0, op2 := .k 0, op3 := .k 0, ty := 10 } = some c ∧ c.g.Shaped
        ∧ ((big id).slotBusy c.g 0 = false ∧ (big id).tileBusy c.g 0 = false ∧ (big id).tileMark c.g (.k 0) = none
          ∧ c.g.slotMark (.k 0) = none ∧ c.mxBase true % 128 = 0
          ∧ pairK 16 = 16 ∧ c.g.launch.inOneArea (c.mxBase true) (4 * 16 * 16) = true ∧ (c.g.weight 0).p = 0) :=
  ⟨ready_of _ (by decide +kernel), ready_of _ (by decide +kernel), ready_of _ (by decide +kernel),
    ready_of _ (by decide +kernel), ready_of _ (by decide +kernel), ready_of _ (by decide +kernel),
    ready_of _ (by decide +kernel)⟩

/-- A matrix command of the group. -/
def mx (o : Op) (e : Ext) : MxCmd :=
  { id := 50, cl := 0, group := 9, key := { t := 0, gl := 0 }, o := o, e := e, base := 0, x := 0, y := 0, tens := 0
    coords := [], seed := 0, drawG := 0, drawC := 0
    site := { pc := 0x1004, hdr := 0x1000, next := 0x1010, word := 0, idx := 0 }, start := 0
    performed := false, after := [], far := [], pages := [] }

/-- AREAD of row 0 of tile 0. -/
def aread : Ext := { op0 := .v 4, op1 := .k 0, op2 := .k 0, op3 := .k 1, ty := 9 }
/-- The sheaf's AREAD stands in the compute queue. -/
def areading : State :=
  { (with_ fun g => { g with sheaves := [{ sheaf with acted := [{ t := 0, gl := 0 }] }] }) with compute := [mx .aread aread] }

/-- AzeroTile and MatrixEffects: AZERO of one thread; the oldest commands of the queues; CellPlace: the last cell of a tile;
TileRead: an AREAD that takes a place, and one at which it stands. -/
theorem witness_matrix_effects :
    (∃ c, (big id).readyE .azero { op0 := .k 0, lo := 8, ty := 10 } = some c ∧ c.g.Shaped ∧ (c.act = [thread 0] ∧ c.sh.acted = []
      ∧ ((big id).mxQueue c.g.cl false).length < 8))
    ∧ (let k := mx .wbld { op0 := .k 0, lo := 4, ty := 10 }
      ({ base with fill := [k] }).mxQueue 0 true = [k] ∧ ({ base with fill := [k] }).groupOf 9 = some 0
        ∧ ({ base with fill := [k] }).mxFree k = true ∧ (group.engineSp k.base k.y).2 = none
        ∧ (base.vf 0).traces (some 1) = false)
    ∧ (let k := mx .mma { op0 := .k 0, op2 := .k 1, ty := 10 }
      ({ base with compute := [k] }).mxQueue 0 false = [k] ∧ ({ base with compute := [k] }).groupOf 9 = some 0
        ∧ ({ base with compute := [k] }).mxFree k = true ∧ (group.engineSp k.base (4 * 16 * 16)).2 = none
        ∧ (base.vf 0).traces (some 2) = false)
    ∧ (let k := mx .aadd { op0 := .k 0, op1 := .k 1 }
      ({ base with compute := [k] }).mxQueue 0 false = [k] ∧ ({ base with compute := [k] }).mxFree k = true)
    ∧ (let k := mx .adrain { op0 := .k 0, ty := 15, lo := 2 }
      ({ base with compute := [k] }).mxQueue 0 false = [k] ∧ ({ base with compute := [k] }).mxFree k = true ∧ base.fab.reqs = [])
    ∧ (1023 < (Tile.zero (-64)).n.length ∧ 1023 < (Tile.zero (-64)).sp.length
      ∧ (Tile.zero (-64)).anchor ≤ -64 ∧ (2 ^ 127 - 1) * 2 ^ ((-64 : Int) - (Tile.zero (-64)).anchor).toNat < 2 ^ 127)
    ∧ (∃ c, base.readyE .aread aread = some c ∧ c.g.Shaped ∧ (Op.aread.wellFormed aread = true ∧ c.act ≠ []
        ∧ (c.myAread base).isNone = true ∧ base.mxRoom c.g.cl false = true))
    ∧ ∃ c, areading.readyE .aread aread = some c ∧ c.g.Shaped ∧ (((c.myAread areading).map MxCmd.id) = some 50
        ∧ ((areading.mxQueue c.g.cl false).head?).map MxCmd.id = some 50 ∧ (c.g.tile 0).mark = none ∧ (c.g.tile 0).bad = []
        ∧ areading.groupOf c.g.uid = some c.gi) :=
  ⟨ready_of _ (by decide +kernel), by decide +kernel, by decide +kernel, by decide +kernel, by decide +kernel,
    by decide +kernel, ready_of _ (by decide +kernel), ready_of _ (by decide +kernel)⟩

/-! ### Hypotheses that are met: gleaning, arenas, records and tasks -/

/-- A site. -/
def site0 : Site := { pc := 0x1004, hdr := 0x1000, next := 0x1010, word := 0, idx := 0 }
/-- A glean of thread 0 with ten indices, two slots from S20, and its next index and helpers. -/
def glean0 (next : Nat) (lent : List (Nat × Nat × Nat)) (solo : Bool) : Glean :=
  { id := 60, recr := 0, count := 10, next := next, returned := [], k := 4, sr := 20, r := 2
    ops := [some { op := 0, signed := false }, none], acc := [5, 0], atGlean := [7, 8], body := 0x1000, site := site0, d := 0
    rejoined := false, solo := solo, want := 4, lent := lent, gdst := .slo 8, charged := none, owed := [] }
/-- A thread's part in it. -/
def gpart (cur : Option Nat) (release : Option (Nat × Nat)) : GPart :=
  { glean := 60, cur := cur, staged := [none, none], draws := 0, release := release }
/-- Thread 0 takes part in the glean, alone in its sheaf. -/
def gleaning (gl : Glean) : State := alone fun g => { g with
  threads := [{ thread 0 with part := some (gpart none none) }, { thread 1 with place := .exited }], gleans := [gl] }
/-- A helper of thread 0 on the slot of thread 1. -/
def helper (release : Option (Nat × Nat)) : Thread :=
  { thread 0 with key := { t := 0, gl := 1 }, part := some (gpart (some 3) release) }
/-- The helper issues alone. -/
def helping (release : Option (Nat × Nat)) : State := with_ fun g => { g with
  threads := [{ thread 0 with place := .bin 0 }, helper release, { thread 1 with place := .lent }]
  sheaves := [{ sheaf with members := [{ t := 0, gl := 1 }] }], gleans := [glean0 4 [(1, 9, 1)] false] }

/-- Recruiting: with a vacant slot and without one; Dispenser: a fresh index, none left, a staged value; GleanEnd: the last
participant, one with helpers, and a helper; HelperAbandoned: at 4,096 instructions. -/
theorem witness_gleans :
    (∃ c, (alone id).readyE .glean { op0 := .slo 8, op1 := .k 4, op2 := .k 10 } = some c ∧ c.g.Shaped
      ∧ (c.act = [thread 0] ∧ (alone id).gleansOf c.g.cl = 0 ∧ (alone id).eligible c.g ≠ []))
    ∧ (∃ c, (alone id).readyE .glean { op0 := .slo 8, op1 := .k 0, op2 := .k 10 } = some c ∧ c.g.Shaped
      ∧ (c.act = [thread 0] ∧ c.g.src (thread 0) 1 (.k 0) = 0))
    ∧ (∃ c, (gleaning (glean0 4 [] false)).readyE .nextit { op0 := .v 4, op1 := .k 0 } = some c ∧ c.g.Shaped
      ∧ (Op.nextit.wellFormed { op0 := .v 4, op1 := .k 0 } = true ∧ ∃ th ∈ c.act.head?, c.act = [th]
        ∧ c.g.partOf th = some (glean0 4 [] false, gpart none none)
        ∧ ((commit (glean0 4 [] false) (gpart none none)).1.dispense.map Prod.fst) = some 4))
    ∧ (∃ c, (gleaning (glean0 10 [] false)).readyE .nextit { op0 := .v 4, op1 := .k 0 } = some c ∧ c.g.Shaped
      ∧ (commit (glean0 10 [] false) (gpart none none)).1.dispense = none)
    ∧ (∃ c, (gleaning (glean0 4 [] false)).readyE .gadd { op0 := .slo 21, op1 := .v 0, ty := 6 } = some c ∧ c.g.Shaped
      ∧ (Opnd.slo 21).reg? 0 = some (.s 21))
    ∧ (∃ c, (gleaning (glean0 10 [] false)).readyE .glend {} = some c ∧ c.g.Shaped ∧ ∃ th ∈ c.act.head?, c.act = [th]
      ∧ c.g.partOf th = some (glean0 10 [] false, gpart none none) ∧ th.key.gl = 0)
    ∧ (∃ c, (gleaning (glean0 10 [(1, 9, 1)] false)).readyE .glend {} = some c ∧ c.g.Shaped
      ∧ ∃ th ∈ c.act.head?, c.g.partOf th = some (glean0 10 [(1, 9, 1)] false, gpart none none))
    ∧ (∃ c, (helping none).readyE .glend {} = some c ∧ c.g.Shaped ∧ (c.act = [helper none]
      ∧ (c.g.partOf (helper none)).isSome = true))
    ∧ ∃ g, (helping (some (4096, 0))).groups[0]? = some g ∧ g.Shaped
      ∧ ((g.threads.find? fun t => t.key.gl = 1 && (t.part.map GPart.glean) = some 60) = some (helper (some (4096, 0)))
        ∧ (g.glean 60).isSome = true) :=
  ⟨ready_of _ (by decide +kernel), ready_of _ (by decide +kernel), ready_of _ (by decide +kernel),
    ready_of _ (by decide +kernel), ready_of _ (by decide +kernel), ready_of _ (by decide +kernel),
    ready_of _ (by decide +kernel), ready_of _ (by decide +kernel), group_of _ (by decide +kernel)⟩

/-- A LIVE child of the root. -/
def child : Arena := { Arena.reset with state := 1, cstate := 1, depth := 1, base := 0x410000, bump := 0x410000, quota := 0x10000 }
/-- The VF with the child at index 1, changes and sweeps. -/
def vfArena (ch : List Change) (sw : List Sweep) : VF :=
  { vf with arenas := vf.arenas ++ [(1, child)], changes := ch, sweeps := sw }
/-- The state with a VF of that kind, thread 0 alone, and S0 = 1. -/
def arenas (ch : List Change) (sw : List Sweep) (hold : SheafHold) : State :=
  let s := alone fun g => { g with s := 1 :: List.replicate 511 0
                                   sheaves := [{ sheaf with members := [{ t := 0, gl := 0 }], hold := hold }] }
  { s with vfs := modAt s.vfs 0 fun _ => vfArena ch sw }
/-- One handle. -/
def handle : Ext := { op1 := .slo 0 }

/-- Arena statements: ARNEW, AALLOC at the end of the quota, ARQRY, ARDROP of the root, of an old handle and of a LIVE
arena, its completion, and the events. -/
theorem witness_arenas :
    (∃ c, base.readyE .arnew { op0 := .v 4, op1 := .slo 0, op2 := .slo 2 } = some c ∧ c.g.Shaped
      ∧ (c.g.vf < base.vfs.length ∧ ∀ th ∈ c.actS, c.g.src th 1 (.slo 0) < 2 ^ 16))
    ∧ (∃ c, base.readyE .aalloc { op0 := .v 4, op1 := .slo 0, op2 := .k 16 } = some c ∧ c.g.Shaped
      ∧ ∀ th ∈ c.actS, c.g.src th 1 (.slo 0) < 2 ^ 16)
    ∧ ((vf.arena 0).state = 1 ∧ (vf.arena 0).gen = 0 ∧ (vf.arena 0).bump + 0x100000 ≤ (vf.arena 0).base + (vf.arena 0).quota
      ∧ (vf.arena 0).depth ≠ 8 ∧ vf.freeIndex 4095 1 = some 1 ∧ (0x100000 : Nat) ≠ 0)
    ∧ (∃ c, base.readyE .arqry { op0 := .v 4, op1 := .slo 0, lo := 4 } = some c ∧ c.g.Shaped
      ∧ (Op.arqry.wellFormed { op0 := .v 4, op1 := .slo 0, lo := 4 } = true ∧ ∀ th ∈ c.actS, c.g.src th 1 (.slo 0) < 2 ^ 16))
    ∧ (∃ c, (alone id).readyE .ardrop handle = some c ∧ c.g.Shaped ∧ (c.act = [thread 0] ∧ c.g.src (thread 0) 1 (.slo 0) = 0))
    ∧ (∃ c, (alone fun g => { g with s := 1 :: List.replicate 511 0 }).readyE .arseal handle = some c ∧ c.g.Shaped
      ∧ (c.act = [thread 0] ∧ c.g.src (thread 0) 1 (.slo 0) = 1 ∧ (vf.arena 1).state = 0))
    ∧ (∃ c, (arenas [] [] .free).readyE .ardrop handle = some c ∧ c.g.Shaped ∧ (((arenas [] [] .free).released c).2 = true ∧ c.act = [thread 0] ∧ c.sh.hold = .free
      ∧ ((vfArena [] []).arena 1).state = 1 ∧ ((vfArena [] []).arenas.map Prod.fst).Nodup))
    ∧ (∃ c, (arenas [] [] (.arena 77)).readyE .ardrop handle = some c ∧ c.g.Shaped ∧ (c.pres ≠ [] ∧ c.sh.hold = .arena 77))
    ∧ (let s := arenas [{ id := 5, drop := true, idxs := [1], passed := none }] [] .free
      (s.vf 0).changes[0]? = some { id := 5, drop := true, idxs := [1], passed := none } ∧ 0 < s.vfs.length)
    ∧ (let s := arenas [{ id := 5, drop := false, idxs := [1], passed := some 5 }] [] .free
      (s.vf 0).changes.findIdx? (fun x => !x.drop && x.passed.isSome && x.idxs.headD 0 = 1) = some 0 ∧ s.markersPassed 5 = true)
    ∧ (let s := arenas [] [{ idxs := [1], handle := 0x1001, order := 3 }] .free
      s.sweepRuns 0 { idxs := [1], handle := 0x1001, order := 3 } = true ∧ s.markersPassed 3 = true ∧ (s.vf 0).sweeps.findIdx? (fun x => x.idxs.headD 0 = 1) = some 0 ∧ ((s.vf 0).arena 1).parent ∉ [1]) :=
  ⟨ready_of _ (by decide +kernel), ready_of _ (by decide +kernel), by decide +kernel, ready_of _ (by decide +kernel),
    ready_of _ (by decide +kernel), ready_of _ (by decide +kernel), ready_of _ (by decide +kernel),
    ready_of _ (by decide +kernel), by decide +kernel, by decide +kernel, by decide +kernel⟩

/-- The vector has a record at 0x3000; thread 0 is alone. -/
def recorded : State :=
  let s := alone fun g => { g with s := 1 :: List.replicate 511 0 }
  { s with ms := { s.ms with mem := mem ++ [(0x110041, 0x20), (0x110049, 0x30), (0x110054, 0x82), (0x110055, 1),
      (0x110058, 32)] } }
/-- The record's page. -/
def pa3 (_ : Thread) : Nat := 0x3000
/-- A windrow entry of the record. -/
def wind : Windrow :=
  { id := 70, givers := [], die := 0, slice := 0, vf := 0, recVa := 0x3000, arena := 0, stat := { Stat.zero with zeros := 3 }, first := 0, last := 0, bad := false }
/-- Record accesses of an instruction, for the checks. -/
def recChk (o : Op) (h : Cx → Thread → Nat) (e : Ext) : Prop :=
  ∃ c, recorded.readyE o e = some c ∧ c.g.Shaped
    ∧ Reach c recorded c.act (fun th => recorded.checkRecord c (h c th)) pa3 ar0
    ∧ (recorded.recordWaits c c.act = false ∧ recorded.recordPinned c.g.vf 0x3000 = false
      ∧ (0x3000 % 128 = 0 ∧ c.refused recorded (0x3000 + 128) = false ∧ inImport (0x3000 + 128) = false
        ∧ recorded.ms.errored.contains (0x3000 / 128 + 1) = false ∧ recorded.ms.spoilt.contains (0x3000 / 128 + 1) = false
        ∧ recorded.ms.partials = [])
      ∧ (∀ th ∈ c.act, ∀ w ∈ recorded.ms.pushes ++ recorded.ms.windrows, w.is c.g.vf (recorded.recordOf c (h c th)) = false)
      ∧ ∀ th ∈ c.act, recorded.recordOf c (h c th) = 0x3000)

/-- StatisticsRecords: each instruction on the record, an expired entry and a pushed one. -/
theorem witness_records :
    recChk .statrd Cx.tensorHandle { op0 := .v 4, op1 := .slo 0, op2 := .slo 1, lo := 7, sc := 1 }
    ∧ recChk .qscl Cx.tensorHandle { op0 := .v 4, op1 := .slo 0, ty := 14, sc := 2, lo := 4 }
    ∧ recChk .statfl Cx.tensorHandle handle ∧ recChk .statrst Cx.tensorHandle handle
    ∧ (∃ c, recorded.readyE .statrst handle = some c ∧ c.g.Shaped ∧ recorded.recordPlace c.g.vf 0x3000 = some (0x3000, 0))
    ∧ (let s : State := { recorded with clock := 8 * Config.clocksPerUs, ms := { recorded.ms with windrows := [wind] } }
      s.ms.windrows[0]? = some wind ∧ wind.first + Config.clocksPerUs * s.chip.push.getD (wind.vf / 16) 8 ≤ s.clock)
    ∧ (let s : State := { recorded with ms := { recorded.ms with pushes := [wind] } }
      s.ms.pushes[0]? = some wind ∧ s.recordPlace wind.vf wind.recVa = some (0x3000, 0)
        ∧ s.recordPinned wind.vf wind.recVa = false ∧ (s.vf wind.vf).staleAt wind.arena = false ∧ 0x3000 % 128 = 0
        ∧ s.errs 0x3000 = false ∧ s.errs (0x3000 + 128) = false ∧ s.ms.partials = [] ∧ wind.stat.bins.length = 56) :=
  ⟨reach_ready _ (by decide +kernel), reach_ready _ (by decide +kernel), reach_ready _ (by decide +kernel),
    reach_ready _ (by decide +kernel), ready_of _ (by decide +kernel), by decide +kernel, by decide +kernel⟩

/-- The state with bytes more of memory, above the table. -/
def withMem (l : List Host.Cell) (s : State) : State := { s with ms := { s.ms with mem := mem ++ l } }
/-- The VF traces. -/
def traced : State := { base with vfs := modAt base.vfs 0 fun v => { v with tctl := 1, tbase := 0x200000 } }

/-- TaskInstructions: TDEP, TSIG, TASK of a FREE task, UINT, MARK without and with a trace. -/
theorem witness_task_instructions :
    (∃ c, (alone id).readyE .tdep { op0 := .v 4, op1 := .v 0, op2 := .v 2 } = some c ∧ c.g.Shaped
      ∧ (c.sh.acted = [] ∧ c.actS = [thread 0] ∧ (base.fenceIds c.g (thread 0).key 9).any base.underWay.contains = false))
    ∧ (∃ c, base.readyE .tsig { op0 := .v 4, op1 := .v 0 } = some c ∧ c.g.Shaped
      ∧ (c.sh.acted = [] ∧ ∀ th ∈ c.actS, (base.fenceIds c.g th.key 9).any base.underWay.contains = false))
    ∧ (∃ c, (alone fun g => { g with s := 3 :: List.replicate 511 0 }).readyE .task { op0 := .v 4, op1 := .k 0, op2 := .slo 0 }
        = some c ∧ c.g.Shaped ∧ ∃ th ∈ c.actS.head?, c.actS = [th]
      ∧ (base.taskOp c.g.vf (c.word1 th 1) (c.word1 th 2)).isSome = true)
    ∧ (∃ c, (alone id).readyE .uint { op1 := .k 7, op2 := .slo 0 } = some c ∧ c.g.Shaped
      ∧ (c.act = [thread 0] ∧ ((alone id).released c).2 = true))
    ∧ (∃ c, base.readyE .mark { op1 := .v 0 } = some c ∧ c.g.Shaped ∧ (c.pres ≠ [] ∧ (base.vf c.g.vf).traces none = false))
    ∧ ∃ c, traced.readyE .mark { op1 := .v 0 } = some c ∧ c.g.Shaped ∧ (c.pres ≠ [] ∧ (traced.vf c.g.vf).traces none = true
      ∧ c.act ≠ [] ∧ (traced.vf c.g.vf).tlost = 0 ∧ (traced.vf c.g.vf).tprod - (traced.vf c.g.vf).tcons < (traced.vf c.g.vf).traceSize) :=
  ⟨ready_of _ (by decide +kernel), ready_of _ (by decide +kernel), ready_of _ (by decide +kernel),
    ready_of _ (by decide +kernel), ready_of _ (by decide +kernel), ready_of _ (by decide +kernel)⟩

/-- TaskRules: task 2 is FREE, WAITING for 1 or 2, READY, or the predecessor is RETIRED; index 0 and 16 name none. -/
theorem witness_task_rules :
    ((base.vf 0).validTask 0 = false ∧ (base.vf 0).validTask 16 = false ∧ (base.vf 0).validTask 15 = true)
    ∧ (withMem [(0x10021E, 2)] base).tcbNat 0 2 30 1 = 2
    ∧ ((withMem [(0x100220, 1)] base).tcbNat 0 2 30 1 = 0 ∧ (withMem [(0x100220, 1)] base).tcbNat 0 2 32 4 = 1)
    ∧ base.tcbNat 0 2 32 4 = 0 ∧ (withMem [(0x10021E, 1), (0x100220, 2)] base).tcbNat 0 2 32 4 = 2
    ∧ (withMem [(0x10011E, 4)] base).tcbNat 0 1 30 1 = 4
    ∧ (((base.succList 0 (base.vf 0).poolN 1).find? fun a => base.devNat 0 a 4 % 2 ^ 24 = 0).isSome = true) :=
  ⟨by decide +kernel, by decide +kernel, by decide +kernel, by decide +kernel, by decide +kernel, by decide +kernel,
    by decide +kernel⟩

/-- Submission: task 15 of the pool to queue 63. -/
theorem witness_submission :
    (15 : BitVec 64).toNat < 2 ^ 24 ∧ 63 < (base.vf 0).seqs.length ∧ (base.vf 0).validTask 15 = true
    ∧ base.submittable 0 15 = true ∧ base.queueRoom 0 63 = true := by decide +kernel

/-- A READY task without a group placed. -/
def ready : State :=
  withMem [(0x10011E, 2)] { base with groups := [], cur := none, tasks := [{ task with placed := [] }] }
/-- The task with its saved group. -/
def saved0 (complete : Bool) : Saved := { group := { group with outs := [out0] }, copies := [], complete := complete, ns := 0 }
/-- A task with a saved group. -/
def savedTask (complete : Bool) : Task := { task with placed := [], saved := [saved0 complete] }

/-- GroupStart, GroupsEnd, AgingAndSets: a READY task; a group whose threads have exited; the task's end; a millisecond. -/
theorem witness_groups :
    (ready.candidates 0 = [{ task with placed := [] }]
      ∧ ({ task with placed := [] } : Task).unplaced.find? (fun i => !ready.withheld { task with placed := [] } i) = some 0
      ∧ ({ task with placed := [] } : Task).promised = [] ∧ ready.resuming { task with placed := [] } = false
      ∧ (let k : Task := { task with placed := [] }
        match ready.roomNow 0 k 0 (ready.openClusters 0 k) with
        | some (cl, s0) => ready.waysFree cl s0 launch.lines
        | none => false) = true)
    ∧ (∃ g, (with_ fun g => { g with sheaves := [], threads := [{ thread 0 with place := .exited },
          { thread 1 with place := .exited }] }).groups[0]? = some g ∧ g.Shaped
      ∧ ((with_ fun g => { g with sheaves := [] }).groupDone g = true ∧ base.taskOf g.task = some task))
    ∧ (({ task with placed := [], cursor := 1 } : Task).cursor = ({ task with placed := [], cursor := 1 } : Task).count)
    ∧ (let s := withMem [(0x10011E, 2)] { base with clock := 2400000 }
      s.taskOf 1 = some task ∧ s.tcbNat 0 1 30 1 = 2 ∧ (s.vf 0).running = true ∧ task.agedAt + 2400000 ≤ s.clock)
    ∧ (let k : Task := { task with gx := 2, placed := [], setStart := [(0, 0)], launch := (sentSet true).launch }
      let s : State := withMem [(0x3044, 1)] { base with clock := 2400000, tasks := [k] }
      k.setStart.lookup 0 = some 0 ∧ 0 + 2400000 ≤ s.clock ∧ s.setMembers k 0 = [0] ∧ s.setStarted k 0 = false) :=
  ⟨by decide +kernel, group_of _ (by decide +kernel), by decide +kernel, by decide +kernel, by decide +kernel⟩

/-- Both threads are in bins. -/
def binned : State := with_ fun g => { g with
  threads := [{ thread 0 with place := .bin 0 }, { thread 1 with place := .bin 0 }], sheaves := [] }
/-- Thread 0 yields. -/
def delayed : State := { (withThread 0 fun t => { t with place := .held .delay site0 0 0 }) with clock := 32 }
/-- The group is halted since clock 0, with its threads in bins. -/
def halted : State := { (binned.setGroup 0 fun g => { g with stop := .halting 0 (some 0) }) with clock := 480 }

/-- SheafEvents: a bin to draw, one to age, a delay that ends; SaveAndRestore: a group at rest, a result, a frame that is
complete. -/
theorem witness_scheduling :
    (binned.firstAhead 0 0 = none ∧ binned.contexts 0 0 + binned.aheads 0 0 < 32
      ∧ (firstDraw (binned.draws 0 0)).map Draw.back = some none)
    ∧ (∃ g, ({ binned with clock := 16 }).groups[0]? = some g ∧ g.Shaped ∧ (g.delayed 0x1000 = false ∧ ∃ x ∈ g.binThreads 16 0x1000, x.2 + 16 ≤ 16))
    ∧ (∃ g, delayed.groups[0]? = some g ∧ g.Shaped ∧ (g.delayed 0x1000 = true ∧ 0 + 32 ≤ delayed.clock))
    ∧ (∃ g, halted.groups[0]? = some g ∧ g.Shaped ∧ (halted.saveable g = true ∧ halted.taskOf g.task = some task
      ∧ ((halted.unpin g.uid).dropFills g.uid).engineRest g = true
      ∧ (∀ h ∈ halted.groups, h.gleans = []) ∧ ∀ th ∈ g.threads, th.key.gl = 0))
    ∧ ((savedTask false).saved[0]? = some (saved0 false) ∧ (saved0 false).waits.find? Out.ready = some out0)
    ∧ (let k := savedTask true
      let s : State := withMem [(0x10011E, 2)] { base with groups := [], cur := none, tasks := [k] }
      let cls := s.openClusters 0 k
      s.candidates 0 = [k] ∧ k.setFailed = [] ∧ k.unplaced.find? (fun i => !s.withheld k i) = some 0 ∧ k.saved = [saved0 true]
        ∧ (saved0 true).group.task = k.uid ∧ (saved0 true).group.gleans = []
        ∧ k.promised = [] ∧ s.resuming k = false ∧ (s.tasks.map Task.uid).Nodup
        ∧ ((s.roomNow 0 k 0 cls).map Prod.fst) = some 0 ∧ s.waysFree 0 (((s.roomNow 0 k 0 cls).getD (0, 0)).2) k.launch.lines = true) :=
  ⟨by decide +kernel, group_of _ (by decide +kernel), group_of _ (by decide +kernel), group_of _ (by decide +kernel),
    by decide +kernel, by decide +kernel⟩

/-! ### Hypotheses that are met: pages, the fabric, gangs and the package -/

/-- A walk of a page by a load. -/
def walk0 (va : Nat) : Walk :=
  { cl := 0, vf := 0, page := va / 4096, va := va, write := false, fetch := false, engine := false, token := none }
/-- The state with that walk, for which the sheaf is held. -/
def walking (va : Nat) : State :=
  let s := with_ fun g => { g with sheaves := [{ sheaf with hold := SheafHold.page va (va / 4096) false false false }] }
  { s with ms := { s.ms with walks := [walk0 va] } }
/-- What a walk gives: 1 a leaf, 2 no mapping, 3 denied, 4 a partition-stage miss, 5 an error. -/
def walkIs (s : State) (va : Nat) : Nat :=
  match s.walk 0 va with
  | .leaf _ => 1
  | .missing => 2
  | .denied => 3
  | .pmiss _ => 4
  | .hurt => 5
/-- The root table's page is withheld from the VF by the partition stage; or the pager is away. -/
def deniedVf (s : State) : State := { s with vfs := modAt s.vfs 0 fun v => { v with
  pmap := v.pmap.map fun m => if m.gpa = 0x11 then { m with r := false } else m } }
/-- The VF has no pager. -/
def noPager (s : State) : State := { s with vfs := modAt s.vfs 0 fun v => { v with pager := 0 } }

/-- The root table's line has an uncorrectable error. -/
def hurtTable (s : State) : State := { s with ms := { s.ms with errored := [0x10000 / 128] } }
/-- A cluster of another die waits under token 5 for a page of the VF. -/
def joined (va : Nat) : State :=
  let s := walking va
  { s with ms := { s.ms with walks := s.ms.walks ++ [{ walk0 va with cl := 80, token := some 5 }] } }
/-- Walk 0 has a walker, and no walk of its die for that page has a token. -/
def walks0 (s : State) (page : Nat) : Bool :=
  s.hasWalker 0 && !s.walkHeld (s.ms.walks.headD (walk0 0)) && s.ms.walks.all fun x => !(dieOf x.cl = dieOf 0 && x.vf = 0 && x.page = page) || x.token = none

/-- PageWalks: a mapped page, one without a mapping with a pager and without, a denied table, one with an error, and a
page with a token. -/
theorem witness_walks :
    ((walking 0x2000).ms.walks[0]? = some (walk0 0x2000) ∧ (walk0 0x2000).token = none ∧ walkIs (walking 0x2000) 0x2000 = 1
      ∧ walks0 (walking 0x2000) 2 = true)
    ∧ (walkIs (hurtTable (walking 0x2000)) 0x2000 = 5 ∧ walks0 (hurtTable (walking 0x2000)) 2 = true)
    ∧ (walkIs (joined 0x80000000) 0x80000000 = 2 ∧ ((joined 0x80000000).vf 0).pager ≠ 0
      ∧ (joined 0x80000000).ms.walks[0]? = some (walk0 0x80000000)
      ∧ walks0 (joined 0x80000000) 0x80000 = true
      ∧ ((joined 0x80000000).ms.walks.find? fun x => x.vf = 0 && x.page = 0x80000 && x.token.isSome).bind Walk.token = some 5)
    ∧ (walkIs (walking 0x80000000) 0x80000000 = 2 ∧ ((walking 0x80000000).vf 0).pager ≠ 0
      ∧ walks0 (walking 0x80000000) 0x80000 = true ∧ 0 < (walking 0x80000000).vfs.length)
    ∧ (walkIs (noPager (walking 0x80000000)) 0x80000000 = 2 ∧ ((noPager (walking 0x80000000)).vf 0).pager = 0
      ∧ walks0 (noPager (walking 0x80000000)) 0x80000 = true)
    ∧ (walkIs (deniedVf (walking 0x2000)) 0x2000 = 3 ∧ walks0 (deniedVf (walking 0x2000)) 2 = true) := by decide +kernel

/-- The applied record of partition 0: an interleave group of one quarter stack at 0, and core group 0. -/
def mapped : ProvRecord :=
  { seq := 3, verified := true, digest := 1
    parts := [{ part := 0, cores := [0], groups := [0], quarters := [0]
                ileaves := [{ quarters := [0], base := 0, granule := some 4096 }], port := 0, storage := none, push := 8
                weight := 1, share := none
                vfs := [{ vf := 0, owner := 5, wins := [], poolBase := 0x100000, poolN := 16, descBase := 0, rootBase := 0
                          rootQuota := 0, caps := List.replicate 64 7, slice := 100 }
                      , { vf := 1, owner := 5, wins := [], poolBase := 0x100000, poolN := 16, descBase := 0, rootBase := 0
                          rootQuota := 0, caps := List.replicate 64 7, slice := 100000 }] }]
    split := [], ranges := List.replicate 64 0, routes := [], owners := [(0, 5)] }
/-- The state under that record, its partition started. -/
def provisioned (s : State) : State :=
  { s with chip := { s.chip with stage := 3, applied := some mapped, parts := 1 :: List.replicate 7 0 } }

/-- SwitchAndDebug: VF 1, which comes next, while VF 0 runs and once it is at rest, and a group that a debugger stops. -/
theorem witness_switch :
    (let s := provisioned base;
      partOf 1 = 0 ∧ (s.vf 1).running = false
      ∧ ((List.range 128).find? fun i => (partOf i = 0 && i != 1) && (s.vf i).running) = some 0 ∧ 0 < s.vfs.length
      ∧ s.sliceOver 0 = true ∧ s.nextVf 0 0 = some 1)
    ∧ (let s : State := provisioned { base with groups := [], vfs := modAt base.vfs 0 fun v => { v with running := false } };
      (∀ i < 128, partOf i = 0 → i ≠ 1 → (s.vf i).running = false)
        ∧ ∀ i < 128, partOf i = 0 → i ≠ 1 → (s.vf i).saved = none → s.nextVf 0 i = some 1)
    ∧ ∃ g, (with_ fun g => { g with dbg := true }).groups[0]? = some g ∧ g.Shaped ∧ (g.dbg = true ∧ g.stop = .running) :=
  ⟨by decide +kernel, by decide +kernel, group_of _ (by decide +kernel)⟩

/-- PagerWindow: an invalidation of 4 KiB, of another shape, and a replay of token 5. PartitionStage: a page of a miss. -/
theorem witness_pager :
    (let x := (0x200C : BitVec 64).toNat;
      field x 56 8 = 0 ∧ field x 6 6 = 0 ∧ 12 ≤ field x 0 6 ∧ field x 0 6 ≤ 56)
    ∧ base.translated 0 = false
    ∧ field (11 : BitVec 64).toNat 0 6 < 12 ∧ 56 < field (57 : BitVec 64).toNat 0 6
    ∧ (let s : State := { base with ms := { base.ms with walks := [{ walk0 0x5000 with token := some 5 }] } }
      (5 : BitVec 64).toNat / 2 ^ 32 = 0 ∧ (2 ^ 63 + 5 : BitVec 64).toNat / 2 ^ 32 = 2 ^ 31 ∧
        ∃ w ∈ s.ms.walks, w.vf = 0 ∧ w.token = some 5)
    ∧ (walkIs (walking 0x5000) 0x5000 = 4 ∧ 0 < base.vfs.length ∧ inImport (0x999 * 4096) = false
      ∧ 0x999 ∉ (base.vf 0).frames ∧ (provisioned base).mayMap 0 (0x999 * 4096) 1 = true ∧ base.mayMap 0 (0x999 * 4096) 1 = false
      ∧ (∀ m ∈ (base.vf 0).pmap, m.meets 0x5000 12 = false) ∧ (∃ m ∈ (base.vf 0).pmap, m.meets 0x2000 12 = true)
      ∧ 0x200000 / 4096 % 2 ^ (21 - 12) = 0 ∧ (∃ m ∈ (base.vf 0).pmap, m.meets 0x200000 21 = true)
      ∧ (provisioned base).ms.partials = [] ∧ Memory.wf (provisioned base).ms.mem = true) := by decide +kernel

/-- A window of VF 0 for pages 2 and 3. -/
def win0 : Window :=
  { Window.reset with base := 0x2000, pages := 2, owner := 5, a := true, w := true, r := true, state := 1, importers := [3] }
/-- The state with that window, an import of node 3, and a trained port that carries owner 5. -/
def linked : State := { base with fab := { Fabric.reset with
  windows := win0 :: List.replicate 255 Window.reset
  imports := { Import.reset with used := true, node := 3, win := 4, pages := 1 } :: List.replicate 255 Import.reset
  ports := { Port.reset with trained := true, up := true, saks := [(5, 1, 0)] } :: List.replicate 23 Port.reset } }
/-- A request for the last word of the window, and a response. -/
def flit0 : Flit := { path := 0, stamp := 0, tag := 2, win := 0, gen := 0, off := 8188, node := 3, owner := 5, width := 4, op := 0, ty := 6, data := [1, 0, 0, 0] }
/-- A request under way with a tag, for a result, a copy or a core. -/
def req0 (out copy : Nat) (core : Option (Nat × Nat)) (cls : Nat) : Req :=
  { tag := 2, vf := 0, owner := 5, imp := 0, node := 3, group := 9, out := out, copy := copy, pa := 0, core := core
    key := { t := 0, gl := 0 }, cls := cls, acq := false, arena := 0 }
/-- The state with that request. -/
def asking (out copy : Nat) (core : Option (Nat × Nat)) (cls : Nat) : State :=
  { linked with copies := [copy0 0 0 none], fab := { linked.fab with reqs := [req0 out copy core cls] } }
/-- The line at 0x3F80 is held by the test group. -/
def pinned0 (s : State) : State :=
  { s with ms := { s.ms with pins := [{ cl := 0, group := 9, line := 0x7F, vf := 0, arena := 0, taken := 0 }] } }
/-- The goal is a pinned line. -/
def pinnedAt (s : State) (f : Flit) (right : Window → Bool) (w : Bool) (line : Nat) : Bool :=
  match s.goal f right w with
  | .pinned l => l == line
  | _ => false
/-- The place is memory, at an address. -/
def placeIs (s : State) (f : Flit) (right : Window → Bool) (w : Bool) (pa : Nat) : Bool :=
  match s.place f right w with
  | .mem _ a _ => a == pa
  | _ => false
/-- The goal is memory, at an address. -/
def goalIs (s : State) (f : Flit) (right : Window → Bool) (w : Bool) (pa : Nat) : Bool :=
  match s.goal f right w with
  | .mem _ a _ => a == pa
  | _ => false

/-- A flit that a frame of port 0 has brought. -/
def came (x : InFlit) : Delivery := { port := 0, waits := false, flit := x }
/-- Flits of each kind. -/
def flits0 : List InFlit :=
  [.read flit0, .write flit0, .atomic flit0, .reduction flit0, .data flit0, .ack flit0, .revoked flit0, .error flit0
  , .revoke 5 3 4, .drain 5 3 0] ++ (List.range 12).map fun k => .gang k 0 { owner := 5, gang := 8, time := 0, guard := 30, member := 0 }

/-- FabricRequests and FabricRefusals: the last word of a window, pinned and in error; the byte beyond it, another
generation, another window, the late write of a window that revokes. FabricResponses: a thread's, a copy's, a matrix
command's, a cluster's and a core's request, a token's, and no request; flits that have come, and ones whose turn has not. -/
theorem witness_fabric :
    (goalIs linked flit0 Window.r false 0x3FFC = true ∧ goalIs linked flit0 Window.w true 0x3FFC = true
      ∧ goalIs linked flit0 Window.a true 0x3FFC = true ∧ linked.ms.partials = [] ∧ linked.errs 0x3FFC = false)
    ∧ (let s : State := { linked with ms := { linked.ms with errored := [0x7F] } }
      goalIs s flit0 Window.r false 0x3FFC = true ∧ goalIs s flit0 Window.a true 0x3FFC = true ∧ s.errs 0x3FFC = true)
    ∧ (placeIs linked flit0 Window.a true 0x3FFC = true ∧ 0x3FFC % 128 + flit0.width ≤ 128
      ∧ placeIs linked { flit0 with off := 8000, width := 129 } Window.a true 0x3F40 = true ∧ 128 < 0x3F40 % 128 + 129)
    ∧ (pinnedAt (pinned0 linked) flit0 Window.r false 0x7F = true ∧ pinnedAt (pinned0 linked) flit0 Window.w true 0x7F = true
      ∧ pinnedAt (pinned0 linked) flit0 Window.a true 0x7F = true)
    ∧ (let w : Window := { win0 with state := 2, gen := 0, markers := [3] }
      w.state = 2 ∧ (w.gen + 255) % 256 = 255 ∧ 2 / 2 % 2 = 1 ∧ 3 ∈ w.markers)
    ∧ (linked.fab.windows[({ flit0 with win := 256 } : Flit).win]? = none ∧ linked.fab.windows[0]? = some win0
      ∧ win0.pages * 4096 < 8189 + 4 ∧ win0.gen ≠ 1)
    ∧ (linked.reqOf flit0 = none ∧ (asking 40 0 none 1).reqOf flit0 = some (req0 40 0 none 1)
      ∧ (∀ x ∈ (asking 40 0 none 1).fab.reqs, x.tag ≤ (asking 40 0 none 1).uids)
      ∧ (asking 1 40 none 1).reqOf flit0 = some (req0 1 40 none 1) ∧ (asking 1 40 none 1).isMx 40 = false
      ∧ (asking 2 40 none 1).reqOf flit0 = some (req0 2 40 none 1)
      ∧ ({ asking 1 40 none 1 with fill := [{ mx .mma {} with id := 40 }] } : State).isMx 40 = true
      ∧ ((asking 0 0 none 64).reqOf flit0 = some (req0 0 0 none 64) ∧ (asking 0 0 none 64).groupOf 9 = some 0
        ∧ (asking 0 0 none 64).farFill 0 9 0 { t := 0, gl := 0 } = none ∧ (base.vf 0).staleAt (req0 0 0 none 64).arena = false ∧ (asking 0 0 none 64).ms.pins = [])
      ∧ (asking 0 0 (some (0, 6)) 1).reqOf flit0 = some (req0 0 0 (some (0, 6)) 1)
      ∧ (asking 0 0 none 256).reqOf flit0 = some (req0 0 0 none 256)
      ∧ (∀ k ∈ (asking 2 40 none 1).copies, ∀ (p : CPart), k.parts[0]? = some p → p.status = none))
    ∧ (asking 1 0 none 1).translated 0 = true
    ∧ ((∀ x ∈ flits0, mayAct [came x] x = true) ∧ ∀ x ∈ flits0, mayAct [came (.revoke 5 3 5), came x] x = false) := by decide +kernel

/-- A sent frame. -/
def sent0 (sends last : Nat) : SentFrame :=
  { lseq := 1, lack := 4095, stamp := 0, owner := 5, flits := [], sends := sends, last := last, pn := 1 }
/-- A port with it unacknowledged. -/
def port0 (sends last : Nat) : Port :=
  { Port.reset with trained := true, up := true, saks := [(5, 1, 0)], unacked := [sent0 sends last] }
/-- A received frame of one flit, under an owner. -/
def frame0 (owner : Nat) : Frame :=
  { port := 0, sci := 0x100 + owner, secured := true, pn := 1, lseq := 0, lack := 0, stamp := 0, flits := [.revoke 5 3 4] }

/-- LinkLayer: a new frame, one of no owner and one that the port does not carry, retransmission, the sixteenth, a link that
comes up, a listed owner. -/
theorem witness_link :
    (linked.fab.ports[0]?.map (·.carries 5) = some true ∧ (Port.reset.rpn.lookup 5).getD 0 < 1
      ∧ Frame.owner (frame0 5) = some 5 ∧ 1 ≤ Frame.cells (frame0 5) ∧ Frame.cells (frame0 5) ≤ 8
      ∧ (frame0 5).lseq = ((linked.fab.ports.getD 0 Port.reset).lack + 1) % 4096)
    ∧ (Frame.owner { frame0 5 with sci := 0 } = none ∧ Frame.owner (frame0 6) = some 6
      ∧ linked.fab.ports[0]?.map (·.carries 6) = some false)
    ∧ ((port0 1 0).up = true ∧ (∃ y ∈ (port0 1 0).unacked, y.last + 4800 ≤ 4800) ∧ ∀ y ∈ (port0 1 0).unacked, y.sends < 16
      ∧ ∃ k ∈ (port0 1 0).saks, k.1 = y.owner ∧ (port0 1 0).pn + (port0 1 0).unacked.length + 1 < k.2.2 + 2 ^ 62)
    ∧ (∃ y ∈ (port0 16 0).unacked, y.last + 4800 ≤ 4800 ∧ 16 ≤ y.sends)
    ∧ (({ Port.reset with trained := true } : Port).up = false) := by decide +kernel

/-- Windows, NodeLosses: opening, revoking, the markers, an import, a revoke flit; a node without a route for 1 ms. -/
theorem witness_windows :
    (linked.fab.windows[255]? = some Window.reset ∧ Window.reset.state = 0 ∧ 255 < 256 ∧ 2 ^ 24 - 1 < 2 ^ 24)
    ∧ (win0.state = 1 ∧ (∃ n ∈ win0.importers, n ∉ linked.fab.lost) ∧ (linked.vf 0).owner = 5 ∧ win0.owner = 5)
    ∧ (∃ n ∈ ({ win0 with state := 2, markers := [3, 4] } : Window).markers, n ≠ 3)
    ∧ (∀ n ∈ ({ win0 with state := 2, markers := [3] } : Window).markers, n = 3)
    ∧ (linked.fab.imports[1]? = some Import.reset ∧ Import.reset.used = false)
    ∧ ((linked.fab.imports[0]?).map (fun x => (x.used, x.node, x.win, x.revoked)) = some (true, 3, 4, false))
    ∧ (let s : State := { linked with clock := 2400000, fab := { linked.fab with lostSince := [(3, 0)] } }
      s.fab.lostSince.lookup 3 = some 0 ∧ 0 + 2400000 ≤ s.clock) := by decide +kernel

/-- What an access of a core finds: 1 a place, 2 no mapping, 3 denied, 4 a partition-stage miss. -/
def coreIs (s : State) (va : Nat) (w : Bool) : Nat :=
  match s.xlateNow 0 va { r := !w, w := w } with
  | .ok _ _ => 1
  | .missing => 2
  | .denied => 3
  | .pmiss _ => 4

/-- CoresAndTargets: TREG of a ring of 16 entries, its removal, a bad one; each end of a core's access. -/
theorem witness_cores :
    ((provisioned base).pageIn 0 7 .memory = true ∧ (provisioned base).pageIn 0 7 .capability = true
      ∧ (provisioned base).pageIn 0 hostCore .control = true ∧ (provisioned base).pageIn 0 hostCore (.queue 63) = true
      ∧ (provisioned base).pageIn 0 7 .pager = true ∧ (provisioned base).pageIn 0 8 .memory = false
      ∧ (provisioned base).pageIn 0 hostCore .counters = false ∧ base.pageIn 0 7 .memory = false)
    ∧ (let x := (BitVec.ofNat 64 (4 + 9 * 2 ^ 32 + 3 * 2 ^ 48)).toNat;
      field x 32 16 = 9 ∧ field x 4 28 = 0 ∧ field x 0 4 = 4 ∧ (base.vf 0).ring.toNat % 64 = 0)
    ∧ field (BitVec.ofNat 64 (9 * 2 ^ 32)).toNat 0 4 = 0 ∧ field (BitVec.ofNat 64 (3 + 9 * 2 ^ 32)).toNat 0 4 < 4
    ∧ coreIs base 0x2000 true = 1 ∧ coreIs base 0x80000000 false = 2 ∧ coreIs base 0x5000 false = 4
    ∧ coreIs (deniedVf base) 0x2000 false = 3
    ∧ ((base.vf 0).staleAt 0 = false ∧ (base.vf 0).sealedAt 0 = false ∧ base.ms.pins = []
      ∧ (base.vf 0).staleAt 0x1000 = true ∧ base.ms.refuses none 64 = false ∧ (pinned0 base).ms.refuses none 0x7F = true
      ∧ base.errs 0x2000 = false ∧ base.ms.partials = [] ∧ base.hier.slices = [])
    ∧ (let s : State := { base with
          ms := { base.ms with errored := [64] }
          hier := { base.hier with slices := [{ slice := 0, kind := .dirty, line := 64, vf := 0, arena := 0, rank := 1 }] } }
      s.errs 0x2000 = true ∧ ∃ x ∈ s.hier.slices, x.line = 0x2000 / 128 ∧ x.kind = .dirty)
    ∧ (({ vf with arenas := [(1, { child with cstate := 2, state := 2 })] } : VF).sealedAt 1 = true) := by decide +kernel

/-- A gang command. -/
def gcmd : GangCmd :=
  { coord := true, policy := true, gang := 8, gmemb := 4096, guard := 10, time := 200000, list := 0, target := 7, member := 3 }
/-- A gang of one member in a state, on this chip. -/
def gang0 (st : Nat) (coord : Bool) : Gang :=
  { Gang.reset with gang := 8, gmemb := 1, coord := coord, state := st, target := 7, members := [5], guard := 10 }
/-- The state with that gang, changed. -/
def ganged (st : Nat) (coord : Bool) (f : Gang → Gang) : State :=
  { base with vfs := modAt base.vfs 0 fun v => { v with gangs := f (gang0 st coord) :: List.replicate 63 Gang.reset } }
/-- The TAI time in ns is 10 ms. -/
def later10 (s : State) : State := { s with lam := { s.lam with tai := 10000000 * 2 ^ 16 } }

/-- GangCommands: a free table; a running coordinator for STOP with its lead, and without it; a saved one for RESUME;
entries that UNREGISTER frees. -/
theorem witness_gang_commands :
    (base.gangIndex 0 8 = none ∧ (base.vf 0).gangs.findIdx? (fun g => g.state = 0) = some 0 ∧ gcmd.gmemb ≤ 4096)
    ∧ ((ganged 2 true id).gangIndex 0 8 = some 0 ∧ (ganged 2 true id).ns + 20000 ≤ gcmd.time
      ∧ (gang0 2 true).mode = false ∧ 10 ≤ gcmd.guard ∧ 10000 < (10001 : Nat))
    ∧ (∀ m < (gang0 5 true).gmemb, m ∈ ({ gang0 5 true with reports := [65536 * 36] } : Gang).heardOf .saved)
    ∧ (ganged 5 true id).ns + 100000 ≤ gcmd.time ∧ (∃ m < (gang0 5 true).gmemb, m ∉ (gang0 5 true).heardOf .saved)
    ∧ ((gang0 1 true).state = 1 ∧ (gang0 7 false).state = 7 ∧ (gang0 1 true).coord = true ∧ (gang0 1 false).coord = false) := by decide +kernel

/-- GangTimes: each time and report. -/
theorem witness_gang_times :
    (let s := withMem [(0x10011E, 1)] (ganged 1 true fun g => { g with task := 1 });
      s.tcbNat 0 1 30 1 = 1 ∧ s.tcbNat 0 1 32 4 = 0 ∧ (s.gang 0 0).start ≤ s.ns)
    ∧ ((ganged 3 true id).gang 0 0).time ≤ (ganged 3 true id).ns
    ∧ ((ganged 4 false id).gangRests 0 0 = true ∧ ((ganged 4 false id).gang 0 0).byTime = true)
    ∧ (let s := later10 (ganged 4 true id)
      (s.gang 0 0).time + 2 * (s.gang 0 0).guard * 1000 ≤ s.ns ∧ (s.gang 0 0).missing ≠ [])
    ∧ (later10 (ganged 4 false fun g => { g with sent := true })).gangAsks 0 0 = false
    ∧ (ganged 5 false id).gangSaved 0 0 = true ∧ (ganged 6 true id).gangTask 0 0 = none
    ∧ 0 ∉ (gang0 6 true).late ∧ 0 ∈ ({ gang0 6 true with late := [0] } : Gang).late
    ∧ (let s : State := { base with lam := { base.lam with tai := 1000000000 * 2 ^ 16 } }
      0 + 1000000000 ≤ s.ns) := by decide +kernel

/-- A gang control flit. -/
def gmsg (time : Nat) : GangMsg := { owner := 5, gang := 8, time := time, guard := 30, member := 0 }

/-- GangMessages: a gang of the VF under its owner; no such gang, and another owner; ARRIVE and READY of the last member
and not. -/
theorem witness_gang_messages :
    ((ganged 2 false id).gangIndex 0 (gmsg 9).gang = some 0 ∧ (gmsg 9).owner = ((ganged 2 false id).vf 0).owner)
    ∧ base.gangIndex 0 (gmsg 9).gang = none ∧ ({ gmsg 9 with owner := 6 } : GangMsg).owner ≠ (base.vf 0).owner
    ∧ (∀ n < (gang0 1 true).gmemb, n = (gmsg 0).member ∨ n ∈ (gang0 1 true).heardOf .arrive)
    ∧ ¬ (∀ n < ({ gang0 1 true with gmemb := 2 } : Gang).gmemb, n = (gmsg 0).member ∨ n ∈ (gang0 1 true).heardOf .arrive) := by
  decide +kernel

/-- A PTP message of a domain. -/
def ptp0 (domain : Nat) : PtpMsg :=
  { port := 23, transport := .ethernet, oneStep := true, delay := .peerToPeer, unlisted := false, domain := domain, corr := -5
    locked := true, bound := 3 }
/-- Timebase: supported messages of the domain that disciplines the clock and of the last one, and unsupported ones. -/
theorem witness_ptp : PtpMsg.supported (ptp0 0) = true ∧ PtpMsg.supported (ptp0 127) = true
    ∧ PtpMsg.supported (ptp0 128) = false ∧ PtpMsg.supported { ptp0 0 with transport := .ipv4 } = false := by decide

/-- Timebase, Bringup, RegisterWrites, VfResetAndReshape: a first lock and a later one, HOLDOVER, LOSS; the stages; a VF
and a cluster; a reshape. -/
theorem witness_package :
    (State.reset.lam.locked = false ∧ ({ State.reset.lam with lock := 2 } : Lammas).lock = 2
      ∧ 1000 < ({ State.reset.lam with bound := 1001 } : Lammas).bound
      ∧ (let s := later10 base
        ({ s.lam with lock := 3, bound := 1000 } : Lammas).lock = 3 ∧ 10000000 * (1001 - 1000) ≤ s.ns - s.lam.lostAt))
    ∧ (mapped.verified = true ∧ State.reset.chip.stored = none)
    ∧ ({ State.reset.chip with stage := 2 } : Chip).allows mapped = true
    ∧ (({ State.reset.chip with stage := 3, applied := some mapped } : Chip).partRec 0).isSome = true
    ∧ State.reset.chip.parts[0]? = some 0 ∧ (0, 5) ∈ mapped.owners
    ∧ (State.reset.vfs[127]?).isSome = true
    ∧ (base.clusters[0]?).map (fun c => (c.cnt.c.length, c.cnt.ctl.length, c.cnt.ranges.length, c.cnt.bkpt.length)) =
        some (16, 16, 16, 4)
    ∧ ((base.vf 0).shared.length, (base.vf 0).sharedCtl.length) = (64, 64)
    ∧ (base.cluster 0).part = some (partOf 0) ∧ (base.vf 0).saved = none ∧ (base.vf 1).saved = some []
    ∧ (base.cluster 0).part = some (partOf 1) ∧ (base.cluster 1).part ≠ some (partOf 0)
    ∧ (let r : ReshapeReq := { part := 7, share := [191], weight := 64, ranges := [] }
      (provisioned base).chip.stage = 3 ∧ r.part < 8 ∧ unitsOk r.share Config.slices = true ∧ 1 ≤ r.weight ∧ r.weight ≤ 64
        ∧ rangesOk r.ranges = true ∧ (provisioned base).ms.partials = []
        ∧ unitsOk [192] Config.slices = false
        ∧ (let p : Partial := { id := 1, cl := 0, pa := 0x3F80, op := 0, ty := 6, width := 4, val := 1, vf := 0, arena := 0
                                bad := false }
          (provisioned base).homeOf (p.vf / 16) p.pa ∈ (provisioned base).quiescing r
            ∧ ∃ x ∈ (pinned0 base).ms.pins, x.line = p.pa / 128)) := by decide +kernel

/-! ### Words -/

/-- The three words of an extended instruction by the maps of R57 and R58: major, minor, the four specifiers, MOD, IMM20,
FLAG, and GP with GN below it. -/
def w3 (major minor : Nat) (sp : List Nat) (mod : Nat) (imm : Nat := 0) (flag : Nat := 15) (guard : Nat := 14) : List Word :=
  let x : Nat := guard * 2 ^ 60 + sp.getD 0 0 * 2 ^ 50 + sp.getD 1 0 * 2 ^ 40 + sp.getD 2 0 * 2 ^ 30 + sp.getD 3 0 * 2 ^ 20
    + minor * 2 ^ 14 + mod
  [BitVec.ofNat 32 (2 * 2 ^ 30 + major * 2 ^ 24 + flag * 2 ^ 20 + imm), BitVec.ofNat 32 (x % 2 ^ 32), BitVec.ofNat 32 (x / 2 ^ 32)]

/-- The words decode to the instruction. -/
def reads (ws : List Word) (i : Instr) : Bool :=
  match decodeWords ws with
  | .ok (j, []) => j == i
  | _ => false

/-- The words are an illegal pattern. -/
def illegal (ws : List Word) : Bool :=
  match decodeWords ws with
  | .error .illegal => true
  | _ => false

/-- Major 0x20 (R73), each minor with specifiers of the classes of R59 and MOD fields of R61. -/
theorem test_words_integer : ([
    reads (w3 0x20 0 [4, 255, 556, 0] 0x1800) (.add { op0 := .v 4, op1 := .v 255, op2 := .shi 44, ty := 6 }),
    reads (w3 0x20 1 [257, 1023, 2, 0] 0x800) (.sub { op0 := .slo 1, op1 := .k 255, op2 := .v 2, ty := 2 }),
    reads (w3 0x20 2 [4, 6, 8, 0] 0x1C00) (.mul { op0 := .v 4, op1 := .v 6, op2 := .v 8, ty := 7 }),
    reads (w3 0x20 3 [4, 6, 264, 0] 0xC00) (.mulh { op0 := .v 4, op1 := .v 6, op2 := .slo 8, ty := 3 }),
    reads (w3 0x20 4 [4, 6, 8, 767] 0x1800) (.mad { op0 := .v 4, op1 := .v 6, op2 := .v 8, op3 := .shi 255, ty := 6 }),
    reads (w3 0x20 5 [4, 6, 8, 0] 0x800 0 11) (.div { op0 := .v 4, op1 := .v 6, op2 := .v 8, ty := 2, flag := 11 }),
    reads (w3 0x20 6 [4, 6, 8, 0] 0x800) (.min { op0 := .v 4, op1 := .v 6, op2 := .v 8, ty := 2 }),
    reads (w3 0x20 7 [4, 6, 8, 0] 0x1800) (.max { op0 := .v 4, op1 := .v 6, op2 := .v 8, ty := 6 }),
    reads (w3 0x20 8 [4, 6, 0, 0] 0x800) (.abs { op0 := .v 4, op1 := .v 6, ty := 2 }),
    reads (w3 0x20 9 [4, 6, 0, 0] 0xC00) (.neg { op0 := .v 4, op1 := .v 6, ty := 3 }),
    reads (w3 0x20 10 [4, 262, 8, 0] 0x4 0x80000 15) (.lea { op0 := .v 4, op1 := .slo 6, op2 := .v 8, lo := 4, imm := 0x80000 }),
    reads (w3 0x20 11 [775, 6, 8, 0] 0x1805) (.cmp { op0 := .k 7, op1 := .v 6, op2 := .v 8, ty := 6, lo := 5 }),
    reads (w3 0x20 12 [4, 771, 8, 9] 0x1800) (.sel { op0 := .v 4, op1 := .k 3, op2 := .v 8, op3 := .v 9, ty := 6 }),
    reads (w3 0x20 13 [512, 6, 0, 0] 0x1800) (.mov { op0 := .shi 0, op1 := .v 6, ty := 6 }),
    reads (w3 0x20 14 [4, 0, 0, 0] 0x1800 0xfffff 15) (.movi { op0 := .v 4, ty := 6, imm := 0xfffff }),
    reads (w3 0x20 15 [4, 6, 0, 0] 0x2) (.cvti { op0 := .v 4, op1 := .v 6, ty := 0, lo := 2 })] : List Bool).all id = true := by decide +kernel

/-- Major 0x21 (R73), each minor with specifiers of the classes of R59 and MOD fields of R61. -/
theorem test_words_bits : ([
    reads (w3 0x21 0 [4, 5, 6, 0] 0x1800) (.and { op0 := .v 4, op1 := .v 5, op2 := .v 6, ty := 6 }),
    reads (w3 0x21 1 [4, 5, 6, 0] 0x1800) (.or { op0 := .v 4, op1 := .v 5, op2 := .v 6, ty := 6 }),
    reads (w3 0x21 2 [4, 6, 8, 0] 0x1C00) (.xor { op0 := .v 4, op1 := .v 6, op2 := .v 8, ty := 7 }),
    reads (w3 0x21 3 [4, 5, 6, 0] 0x1800) (.andn { op0 := .v 4, op1 := .v 5, op2 := .v 6, ty := 6 }),
    reads (w3 0x21 4 [4, 5, 0, 0] 0x1800) (.not { op0 := .v 4, op1 := .v 5, ty := 6 }),
    reads (w3 0x21 5 [4, 5, 801, 0] 0x1800) (.shl { op0 := .v 4, op1 := .v 5, op2 := .k 33, ty := 6 }),
    reads (w3 0x21 6 [4, 5, 6, 0] 0x1800) (.shrl { op0 := .v 4, op1 := .v 5, op2 := .v 6, ty := 6 }),
    reads (w3 0x21 7 [4, 5, 6, 0] 0x800) (.shra { op0 := .v 4, op1 := .v 5, op2 := .v 6, ty := 2 }),
    reads (w3 0x21 8 [4, 5, 6, 0] 0x1800) (.rot { op0 := .v 4, op1 := .v 5, op2 := .v 6, ty := 6 }),
    reads (w3 0x21 9 [4, 5, 6, 0] 0x800) (.bfe { op0 := .v 4, op1 := .v 5, op2 := .v 6, ty := 2 }),
    reads (w3 0x21 10 [4, 5, 6, 7] 0x1800) (.bfi { op0 := .v 4, op1 := .v 5, op2 := .v 6, op3 := .v 7, ty := 6 }),
    reads (w3 0x21 11 [4, 5, 0, 0] 0x1800) (.popc { op0 := .v 4, op1 := .v 5, ty := 6 }),
    reads (w3 0x21 12 [4, 6, 0, 0] 0x1C00) (.clz { op0 := .v 4, op1 := .v 6, ty := 7 }),
    reads (w3 0x21 13 [4, 5, 0, 0] 0x1800) (.ctz { op0 := .v 4, op1 := .v 5, ty := 6 }),
    reads (w3 0x21 14 [4, 5, 0, 0] 0x1800) (.brev { op0 := .v 4, op1 := .v 5, ty := 6 }),
    reads (w3 0x21 15 [4, 5, 6, 7] 0x1800) (.permb { op0 := .v 4, op1 := .v 5, op2 := .v 6, op3 := .v 7, ty := 6 })] : List Bool).all id = true := by decide +kernel

/-- Major 0x22 (R73), each minor with specifiers of the classes of R59 and MOD fields of R61. -/
theorem test_words_predicate : ([
    reads (w3 0x22 0 [773, 770, 775, 775] 0x0 0xf0 15) (.plop { op0 := .k 5, op1 := .k 2, op2 := .k 7, op3 := .k 7, imm := 0xf0 }),
    reads (w3 0x22 1 [773, 5, 0, 0] 0x0) (.pmov { op0 := .k 5, op1 := .v 5 })] : List Bool).all id = true := by decide +kernel

/-- Major 0x23 (R73), each minor with specifiers of the classes of R59 and MOD fields of R61. -/
theorem test_words_floating : ([
    reads (w3 0x23 0 [3, 2, 4, 0] 0x2480) (.fadd { op0 := .v 3, op1 := .v 2, op2 := .v 4, ty := 9, rm := 1 }),
    reads (w3 0x23 1 [3, 2, 4, 0] 0x3000) (.fsub { op0 := .v 3, op1 := .v 2, op2 := .v 4, ty := 12 }),
    reads (w3 0x23 2 [4, 2, 6, 0] 0x2000 0 0) (.fmul { op0 := .v 4, op1 := .v 2, op2 := .v 6, ty := 8, flag := 0 }),
    reads (w3 0x23 3 [3, 2, 4, 5] 0x2600) (.ffma { op0 := .v 3, op1 := .v 2, op2 := .v 4, op3 := .v 5, ty := 9, rm := 4 }),
    reads (w3 0x23 4 [3, 2, 4, 0] 0x2400) (.fmin { op0 := .v 3, op1 := .v 2, op2 := .v 4, ty := 9 }),
    reads (w3 0x23 5 [3, 2, 4, 0] 0x2C00) (.fmax { op0 := .v 3, op1 := .v 2, op2 := .v 4, ty := 11 }),
    reads (w3 0x23 6 [769, 2, 4, 0] 0x2409) (.fcmp { op0 := .k 1, op1 := .v 2, op2 := .v 4, ty := 9, lo := 9 }),
    reads (w3 0x23 7 [3, 2, 0, 0] 0x2800) (.fclass { op0 := .v 3, op1 := .v 2, ty := 10 }),
    reads (w3 0x23 8 [3, 2, 0, 0] 0x2500) (.fround { op0 := .v 3, op1 := .v 2, ty := 9, rm := 2 }),
    reads (w3 0x23 9 [3, 2, 4, 0] 0x2400) (.fldexp { op0 := .v 3, op1 := .v 2, op2 := .v 4, ty := 9 }),
    reads (w3 0x23 10 [3, 2, 4, 0] 0x2400) (.ffrexp { op0 := .v 3, op1 := .v 2, op2 := .v 4, ty := 9 }),
    reads (w3 0x23 11 [3, 2, 4, 5] 0x3000) (.pfma { op0 := .v 3, op1 := .v 2, op2 := .v 4, op3 := .v 5, ty := 12 }),
    reads (w3 0x23 12 [3, 2, 4, 5] 0x3400) (.fdot2 { op0 := .v 3, op1 := .v 2, op2 := .v 4, op3 := .v 5, ty := 13 })] : List Bool).all id = true := by decide +kernel

/-- Major 0x24 (R73), each minor with specifiers of the classes of R59 and MOD fields of R61. -/
theorem test_words_special : ([
    reads (w3 0x24 0 [3, 2, 0, 0] 0x2400) (.frcp { op0 := .v 3, op1 := .v 2, ty := 9 }),
    reads (w3 0x24 1 [3, 2, 0, 0] 0x2400) (.frsq { op0 := .v 3, op1 := .v 2, ty := 9 }),
    reads (w3 0x24 2 [3, 2, 0, 0] 0x2580) (.fsqrt { op0 := .v 3, op1 := .v 2, ty := 9, rm := 3 }),
    reads (w3 0x24 3 [3, 2, 4, 0] 0x2480 0 4) (.fdiv { op0 := .v 3, op1 := .v 2, op2 := .v 4, ty := 9, rm := 1, flag := 4 }),
    reads (w3 0x24 4 [3, 2, 0, 0] 0x2400) (.fexp2 { op0 := .v 3, op1 := .v 2, ty := 9 }),
    reads (w3 0x24 5 [3, 2, 0, 0] 0x2400) (.flog2 { op0 := .v 3, op1 := .v 2, ty := 9 }),
    reads (w3 0x24 6 [3, 2, 0, 0] 0x2400) (.fsinp { op0 := .v 3, op1 := .v 2, ty := 9 }),
    reads (w3 0x24 7 [3, 2, 0, 0] 0x2400) (.fcosp { op0 := .v 3, op1 := .v 2, ty := 9 })] : List Bool).all id = true := by decide +kernel

/-- Major 0x25 (R73), each minor with specifiers of the classes of R59 and MOD fields of R61. -/
theorem test_words_conversion : ([
    reads (w3 0x25 0 [3, 2, 0, 0] 0x2A89) (.cvt { op0 := .v 3, op1 := .v 2, ty := 10, rm := 5, lo := 9 }),
    reads (w3 0x25 1 [3, 2, 0, 0] 0x2403) (.cvtf { op0 := .v 3, op1 := .v 2, ty := 9, lo := 3 }),
    reads (w3 0x25 2 [3, 2, 0, 0] 0x889) (.cvtn { op0 := .v 3, op1 := .v 2, ty := 2, rm := 1, lo := 9 }),
    reads (w3 0x25 3 [3, 8, 265, 0] 0x3B91) (.qnt { op0 := .v 3, op1 := .v 8, op2 := .slo 9, ty := 14, rm := 7, sc := 1, lo := 1 }),
    reads (w3 0x25 4 [3, 2, 4, 0] 0x3872) (.dqn { op0 := .v 3, op1 := .v 2, op2 := .v 4, ty := 14, sc := 7, lo := 2 }),
    reads (w3 0x25 5 [3, 2, 4, 0] 0x3BA3) (.qblk { op0 := .v 3, op1 := .v 2, op2 := .v 4, ty := 14, rm := 7, sc := 2, lo := 3 }),
    reads (w3 0x25 6 [3, 258, 0, 0] 0x3814) (.qscl { op0 := .v 3, op1 := .slo 2, ty := 14, sc := 1, lo := 4 }),
    reads (w3 0x25 7 [3, 8, 0, 0] 0x3830) (.pack { op0 := .v 3, op1 := .v 8, ty := 14, sc := 3 }),
    reads (w3 0x25 8 [8, 3, 0, 0] 0x3830) (.unpk { op0 := .v 8, op1 := .v 3, ty := 14, sc := 3 }),
    reads (w3 0x25 9 [3, 0, 0, 0] 0x0) (.rnd { op0 := .v 3 })] : List Bool).all id = true := by decide +kernel

/-- Major 0x26 (R73), each minor with specifiers of the classes of R59 and MOD fields of R61. -/
theorem test_words_row : ([
    reads (w3 0x26 0 [3, 2, 0, 0] 0x1800) (.rowMatch { op0 := .v 3, op1 := .v 2, ty := 6 }),
    reads (w3 0x26 1 [3, 2, 799, 0] 0x1800) (.bfly { op0 := .v 3, op1 := .v 2, op2 := .k 31, ty := 6 }),
    reads (w3 0x26 2 [3, 2, 4, 0] 0x1803) (.shfl { op0 := .v 3, op1 := .v 2, op2 := .v 4, ty := 6, lo := 3 }),
    reads (w3 0x26 3 [3, 769, 0, 0] 0x2) (.vote { op0 := .v 3, op1 := .k 1, lo := 2 }),
    reads (w3 0x26 4 [3, 2, 0, 0] 0x805) (.rowred { op0 := .v 3, op1 := .v 2, ty := 2, lo := 5 }),
    reads (w3 0x26 5 [769, 0, 0, 0] 0x0) (.elect { op0 := .k 1 })] : List Bool).all id = true := by decide +kernel

/-- Major 0x27 (R73), each minor with specifiers of the classes of R59 and MOD fields of R61. -/
theorem test_words_control : ([
    reads (w3 0x27 0 [0, 0, 0, 0] 0x1 0xfffff 15) (.braU { lo := 1, imm := 0xfffff }),
    reads (w3 0x27 0 [0, 0, 0, 0] 0x0 0x4 15 7) (.braS { imm := 0x4, gp := 3, gn := true }),
    reads (w3 0x27 0 [0, 0, 0, 0] 0xE 0x8 15 2) (.braM { sc := 0, lo := 14, imm := 0x8, gp := 1 }),
    reads (w3 0x27 1 [0, 258, 0, 0] 0x0) (.brx { op1 := .slo 2 }),
    reads (w3 0x27 2 [4, 768, 0, 0] 0x0 0x10 15) (.call { op0 := .v 4, op1 := .k 0, imm := 0x10 }),
    reads (w3 0x27 3 [0, 4, 0, 0] 0x0) (.ret { op1 := .v 4 }),
    reads (w3 0x27 4 [0, 0, 0, 0] 0x0) (.reform {}),
    reads (w3 0x27 5 [0, 0, 0, 0] 0x0) (.exit {}),
    reads (w3 0x27 6 [0, 0, 0, 0] 0x0) (.yield {}),
    reads (w3 0x27 7 [0, 0, 0, 0] 0x0) (.nop {}),
    reads (w3 0x27 8 [0, 0, 0, 0] 0x0 0xabcde 15) (.trap { imm := 0xabcde }),
    reads (w3 0x27 9 [0, 0, 0, 0] 0x0 0x1 15) (.brk { imm := 0x1 }),
    reads (w3 0x27 10 [3, 0, 0, 0] 0x0 0x0 15) (.sreg { op0 := .v 3, imm := 0x0 }),
    reads (w3 0x27 11 [0, 3, 0, 0] 0x0 0xc 15) (.swreg { op1 := .v 3, imm := 0xc }),
    reads (w3 0x27 12 [0, 0, 0, 0] 0x0) (.icinv {})] : List Bool).all id = true := by decide +kernel

/-- Major 0x28 (R73), each minor with specifiers of the classes of R59 and MOD fields of R61. -/
theorem test_words_memory : ([
    reads (w3 0x28 0 [8, 258, 768, 0] 0x1000 0x10 4) (.ld { op0 := .v 8, op1 := .slo 2, op2 := .k 0, ty := 4, imm := 0x10, flag := 4 }),
    reads (w3 0x28 1 [0, 258, 3, 8] 0xC06) (.st { op1 := .slo 2, op2 := .v 3, op3 := .v 8, ty := 3, lo := 6 }),
    reads (w3 0x28 2 [3, 258, 768, 0] 0x800 0xffffc 15) (.lds { op0 := .v 3, op1 := .slo 2, op2 := .k 0, ty := 2, imm := 0xffffc }),
    reads (w3 0x28 3 [0, 768, 3, 8] 0x402) (.sts { op1 := .k 0, op2 := .v 3, op3 := .v 8, ty := 1, lo := 2 }),
    reads (w3 0x28 4 [3, 258, 4, 0] 0x800) (.ldt { op0 := .v 3, op1 := .slo 2, op2 := .v 4, ty := 2 }),
    reads (w3 0x28 5 [0, 258, 4, 3] 0x800) (.stt { op1 := .slo 2, op2 := .v 4, op3 := .v 3, ty := 2 }),
    reads (w3 0x28 6 [3, 768, 4, 0] 0x802) (.ldc { op0 := .v 3, op1 := .k 0, op2 := .v 4, ty := 2, lo := 2 }),
    reads (w3 0x28 7 [0, 258, 4, 0] 0x0) (.pref { op1 := .slo 2, op2 := .v 4 }),
    reads (w3 0x28 8 [3, 768, 4, 5] 0x800) (.stx { op0 := .v 3, op1 := .k 0, op2 := .v 4, op3 := .v 5, ty := 2 })] : List Bool).all id = true := by decide +kernel

/-- Major 0x29 (R73), each minor with specifiers of the classes of R59 and MOD fields of R61. -/
theorem test_words_fullEmpty : ([
    reads (w3 0x29 0 [3, 258, 768, 0] 0x880) (.ldf { op0 := .v 3, op1 := .slo 2, op2 := .k 0, ty := 2, rm := 1 }),
    reads (w3 0x29 1 [0, 258, 768, 3] 0x800) (.ste { op1 := .slo 2, op2 := .k 0, op3 := .v 3, ty := 2 }),
    reads (w3 0x29 2 [0, 258, 768, 3] 0x80) (.feinit { op1 := .slo 2, op2 := .k 0, op3 := .v 3, rm := 1 }),
    reads (w3 0x29 3 [0, 258, 768, 3] 0x1840) (.waita { op1 := .slo 2, op2 := .k 0, op3 := .v 3, ty := 6, sc := 4 })] : List Bool).all id = true := by decide +kernel

/-- Major 0x2A (R73), each minor with specifiers of the classes of R59 and MOD fields of R61. -/
theorem test_words_atomic : ([
    reads (w3 0x2A 0 [3, 258, 768, 4] 0x1850) (.atom { op0 := .v 3, op1 := .slo 2, op2 := .k 0, op3 := .v 4, ty := 6, rm := 0, sc := 5 }),
    reads (w3 0x2A 1 [0, 258, 768, 4] 0x2490) (.red { op1 := .slo 2, op2 := .k 0, op3 := .v 4, ty := 9, rm := 1, sc := 1 }),
    reads (w3 0x2A 2 [3, 768, 4, 5] 0x880) (.atoms { op0 := .v 3, op1 := .k 0, op2 := .v 4, op3 := .v 5, ty := 2, rm := 1 })] : List Bool).all id = true := by decide +kernel

/-- Major 0x2B (R73), each minor with specifiers of the classes of R59 and MOD fields of R61. -/
theorem test_words_synchronisation : ([
    reads (w3 0x2B 0 [863, 0, 0, 0] 0x0) (.barArv { op0 := .k 95 }),
    reads (w3 0x2B 0 [777, 0, 0, 0] 0x1) (.barWait { op0 := .k 9, lo := 1 }),
    reads (w3 0x2B 0 [777, 0, 0, 0] 0x2) (.barSync { op0 := .k 9, lo := 2 }),
    reads (w3 0x2B 0 [777, 771, 0, 0] 0x3) (.barSet { op0 := .k 9, op1 := .k 3, lo := 3 }),
    reads (w3 0x2B 0 [777, 0, 0, 0] 0x4) (.barSwap { op0 := .k 9, lo := 4 }),
    reads (w3 0x2B 1 [777, 895, 0, 0] 0x0) (.barexp { op0 := .k 9, op1 := .k 127 }),
    reads (w3 0x2B 2 [0, 0, 0, 0] 0x1C50) (.fence { ty := 7, sc := 5 })] : List Bool).all id = true := by decide +kernel

/-- Major 0x2C (R73), each minor with specifiers of the classes of R59 and MOD fields of R61. -/
theorem test_words_copy : ([
    reads (w3 0x2C 0 [3, 258, 260, 0] 0x0 0x3f 15) (.cpy { op0 := .v 3, op1 := .slo 2, op2 := .slo 4, imm := 0x3f }),
    reads (w3 0x2C 1 [3, 258, 260, 262] 0x0 0x40 15) (.cpym { op0 := .v 3, op1 := .slo 2, op2 := .slo 4, op3 := .slo 6, imm := 0x40 }),
    reads (w3 0x2C 2 [259, 783, 0, 0] 0x0) (.qpop { op0 := .slo 3, op1 := .k 15 }),
    reads (w3 0x2C 3 [260, 783, 0, 0] 0x0) (.qpeek { op0 := .slo 4, op1 := .k 15 }),
    reads (w3 0x2C 4 [0, 769, 0, 0] 0x0) (.qpush { op1 := .k 1 }),
    reads (w3 0x2C 5 [0, 769, 0, 0] 0x0) (.qadv { op1 := .k 1 }),
    reads (w3 0x2C 6 [0, 769, 0, 0] 0x0) (.qrst { op1 := .k 1 })] : List Bool).all id = true := by decide +kernel

/-- Major 0x2D (R73), each minor with specifiers of the classes of R59 and MOD fields of R61. -/
theorem test_words_matrix : ([
    reads (w3 0x2D 0 [769, 258, 260, 0] 0x2800) (.wbld { op0 := .k 1, op1 := .slo 2, op2 := .slo 4, ty := 10 }),
    reads (w3 0x2D 1 [773, 262, 770, 768] 0x2800) (.mma { op0 := .k 5, op1 := .slo 6, op2 := .k 2, op3 := .k 0, ty := 10 }),
    reads (w3 0x2D 2 [773, 262, 0, 0] 0x0) (.azero { op0 := .k 5, op1 := .slo 6 }),
    reads (w3 0x2D 3 [773, 262, 264, 0] 0x2480) (.adrain { op0 := .k 5, op1 := .slo 6, op2 := .slo 8, ty := 9, rm := 1 }),
    reads (w3 0x2D 4 [3, 773, 264, 800] 0x2400) (.aread { op0 := .v 3, op1 := .k 5, op2 := .slo 8, op3 := .k 32, ty := 9 }),
    reads (w3 0x2D 5 [773, 774, 0, 0] 0x0) (.aadd { op0 := .k 5, op1 := .k 6 })] : List Bool).all id = true := by decide +kernel

/-- Major 0x2E (R73), each minor with specifiers of the classes of R59 and MOD fields of R61. -/
theorem test_words_glean : ([
    reads (w3 0x2E 0 [259, 799, 260, 0] 0x0 0x4 15) (.glean { op0 := .slo 3, op1 := .k 31, op2 := .slo 4, imm := 0x4 }),
    reads (w3 0x2E 1 [3, 769, 0, 0] 0x0) (.nextit { op0 := .v 3, op1 := .k 1 }),
    reads (w3 0x2E 2 [0, 0, 0, 0] 0x0) (.glend {}),
    reads (w3 0x2E 3 [259, 2, 0, 0] 0x900) (.gadd { op0 := .slo 3, op1 := .v 2, ty := 2, rm := 2 }),
    reads (w3 0x2E 4 [4, 0, 0, 0] 0x0) (.glstat { op0 := .v 4 })] : List Bool).all id = true := by decide +kernel

/-- Major 0x2F (R73), each minor with specifiers of the classes of R59 and MOD fields of R61. -/
theorem test_words_arena : ([
    reads (w3 0x2F 0 [1, 259, 260, 0] 0x0) (.arnew { op0 := .v 1, op1 := .slo 3, op2 := .slo 4 }),
    reads (w3 0x2F 1 [0, 259, 0, 0] 0x0) (.ardrop { op1 := .slo 3 }),
    reads (w3 0x2F 2 [0, 259, 0, 0] 0x0) (.arseal { op1 := .slo 3 }),
    reads (w3 0x2F 3 [4, 259, 0, 0] 0x4) (.arqry { op0 := .v 4, op1 := .slo 3, lo := 4 }),
    reads (w3 0x2F 4 [4, 259, 6, 0] 0x7) (.aalloc { op0 := .v 4, op1 := .slo 3, op2 := .v 6, lo := 7 })] : List Bool).all id = true := by decide +kernel

/-- Major 0x30 (R73), each minor with specifiers of the classes of R59 and MOD fields of R61. -/
theorem test_words_statistics : ([
    reads (w3 0x30 0 [4, 259, 0, 0] 0x4) (.statrd { op0 := .v 4, op1 := .slo 3, lo := 4 }),
    reads (w3 0x30 1 [0, 259, 0, 0] 0x0) (.statfl { op1 := .slo 3 }),
    reads (w3 0x30 2 [0, 259, 0, 0] 0x0) (.statrst { op1 := .slo 3 })] : List Bool).all id = true := by decide +kernel

/-- Major 0x31 (R73), each minor with specifiers of the classes of R59 and MOD fields of R61. -/
theorem test_words_task : ([
    reads (w3 0x31 0 [4, 5, 6, 0] 0x0) (.task { op0 := .v 4, op1 := .v 5, op2 := .v 6 }),
    reads (w3 0x31 1 [4, 5, 6, 0] 0x0) (.tdep { op0 := .v 4, op1 := .v 5, op2 := .v 6 }),
    reads (w3 0x31 2 [4, 5, 0, 0] 0x0) (.tsig { op0 := .v 4, op1 := .v 5 }),
    reads (w3 0x31 3 [0, 5, 6, 0] 0x0) (.uint { op1 := .v 5, op2 := .v 6 }),
    reads (w3 0x31 4 [4, 0, 0, 0] 0x1) (.clk { op0 := .v 4, lo := 1 }),
    reads (w3 0x31 5 [4, 783, 0, 0] 0x0) (.pmrd { op0 := .v 4, op1 := .k 15 }),
    reads (w3 0x31 6 [0, 5, 0, 0] 0x0 0x12345 15) (.mark { op1 := .v 5, imm := 0x12345 })] : List Bool).all id = true := by decide +kernel

/-- The base majors (R55, R56, R72), and a literal B operand. -/
theorem test_words_base : ([
    reads [0x01040203] (.addBase { vd := 4, va := 2, b := .reg 3 }),
    reads [0x02040203] (.subBase { vd := 4, va := 2, b := .reg 3 }),
    reads [0x03040203] (.mulBase { vd := 4, va := 2, b := .reg 3 }),
    reads [0x04040203] (.andBase { vd := 4, va := 2, b := .reg 3 }),
    reads [0x05040203] (.orBase { vd := 4, va := 2, b := .reg 3 }),
    reads [0x06040203] (.xorBase { vd := 4, va := 2, b := .reg 3 }),
    reads [0x07040203] (.andnBase { vd := 4, va := 2, b := .reg 3 }),
    reads [0x08040203] (.shlBase { vd := 4, va := 2, b := .reg 3 }),
    reads [0x09040203] (.shrlBase { vd := 4, va := 2, b := .reg 3 }),
    reads [0x0A040203] (.shraBase { vd := 4, va := 2, b := .reg 3 }),
    reads [0x0B040203] (.minI32Base { vd := 4, va := 2, b := .reg 3 }),
    reads [0x0C040203] (.maxI32Base { vd := 4, va := 2, b := .reg 3 }),
    reads [0x0D040203] (.minN32Base { vd := 4, va := 2, b := .reg 3 }),
    reads [0x0E040203] (.maxN32Base { vd := 4, va := 2, b := .reg 3 }),
    reads [0x0F040203] (.faddBase { vd := 4, va := 2, b := .reg 3 }),
    reads [0x10040203] (.fsubBase { vd := 4, va := 2, b := .reg 3 }),
    reads [0x11040203] (.fmulBase { vd := 4, va := 2, b := .reg 3 }),
    reads [0x12040203] (.fminBase { vd := 4, va := 2, b := .reg 3 }),
    reads [0x13040203] (.fmaxBase { vd := 4, va := 2, b := .reg 3 }),
    reads [0x14040203] (.ffmaBase { vd := 4, va := 2, b := .reg 3 }),
    reads [0x15040203] (.pfmaBf16x2Base { vd := 4, va := 2, b := .reg 3 }),
    reads [0x16040203] (.pfmaF16x2Base { vd := 4, va := 2, b := .reg 3 }),
    reads [0x17040203] (.madBase { vd := 4, va := 2, b := .reg 3 }),
    reads [0x18040203] (.rotBase { vd := 4, va := 2, b := .reg 3 }),
    reads [0x48070500, 0xFFFFFFFF, 0] (.shlBase { vd := 7, va := 5, b := .lit 0xFFFFFFFF })] : List Bool).all id = true := by decide +kernel

/-- R65, R66: a header word and where its fields stand; R69: reserved majors and minors, a base major with a third word
form, an unused specifier, IMM20 and MOD bit, FLAG 12, a register specifier of a class that the entry does not accept, a
literal without a literal operand, and VB ≠ 0 beside a literal. -/
theorem test_words_refused :
    ([reads [0x000032F5] (.runClause { wait := 3, set1 := 2, set2 := 15, count := 5 }),
      illegal [0x19000000], illegal [0x1F000000], illegal (w3 0x32 0 [] 0), illegal (w3 0x3F 0 [] 0),
      illegal (w3 0x20 16 [4, 0, 2, 0] 0x1800), illegal (w3 0x22 2 [] 0), illegal [0x81000000, 0, 0], illegal [0x20000000],
      illegal (w3 0x20 0 [4, 0, 2, 1] 0x1800), illegal (w3 0x20 0 [4, 0, 2, 0] 0x1801), illegal (w3 0x20 0 [4, 0, 2, 0] 0x1800 1),
      illegal (w3 0x20 5 [4, 0, 2, 0] 0x1800 0 12), illegal (w3 0x20 0 [4, 0, 2, 0] 0x1800 0 3),
      illegal (w3 0x2C 2 [4, 768] 0), illegal [0xE7F00000, 0x1C000, 0xE0000000, 0, 0], illegal [0x48070501, 31, 0]]
      : List Bool).all id = true := by decide +kernel

/-! ### Ill-formed terms -/

/-- Each check of WellFormed refuses a term that fails it: MOD, IMM20, FLAG, the literal, the operands, the slots of GLEAN,
the header's flags and index, a base literal beside. -/
theorem test_ill_formed :
    (Instr.add (rr 9)).wellFormed = false ∧ (Instr.add { rr 6 with rm := 1 }).wellFormed = false
    ∧ (Instr.add { rr 6 with imm := 1 }).wellFormed = false ∧ (Instr.sreg { op0 := .v 4, imm := 0xFF }).wellFormed = false
    ∧ (Instr.add { rr 6 with flag := 3 }).wellFormed = false ∧ (Instr.div { rr 6 with flag := 12 }).wellFormed = false
    ∧ (Instr.nop { lit := some 0 }).wellFormed = false ∧ (Instr.add { rr 6 with lit := some (2 ^ 32) }).wellFormed = false
    ∧ (Instr.add { rr 6 with op3 := .v 1 }).wellFormed = false ∧ (Instr.add { rr 7 with op0 := .v 5 }).wellFormed = false
    ∧ (Instr.gadd { op0 := .v 3, op1 := .v 2, ty := 2 }).wellFormed = false
    ∧ (Instr.runClause { wait := 0xFFF, set1 := 12, set2 := 15, count := 0 }).wellFormed = false := by decide +kernel

/-! ### Effects -/

/-- What a register of a thread of the group holds after an instruction. -/
def got (i : Instr) (s : State) (t : Nat) (r : Reg) : Option Word :=
  match exec i s with
  | .next u => u.reg 0 { t := t, gl := 0 } r
  | _ => none
/-- V4 of thread 0 after an instruction whose sources V0, V2 and V6 hold the values. -/
def v4 (i : Instr) (a b c : Word) : Option Word := got i (withThread 0 (vs [a, 0, b, 0, 0, 0, c])) 0 (.v 4)
/-- The value of the outstanding result of a thread after an instruction. -/
def result (i : Instr) (s : State) (t : Nat) : Option (List Word) :=
  match exec i s with
  | .next u => (u.groups[0]?).bind fun g => (g.outs.find? fun o => o.key.t = t).map fun o => o.regs.map fun x => x.2.1
  | _ => none
/-- A fact about the next state. -/
def after (i : Instr) (s : State) (p : State → Bool) : Bool :=
  match exec i s with
  | .next u => p u
  | _ => false
/-- Where a thread of the group stands. -/
def place (s : State) (t : Nat) : Option (Place × Addr) := s.spot 0 { t := t, gl := 0 }

/-- R94's table of borderline results. -/
theorem test_integers :
    v4 (.add (rr 6)) 0xFFFFFFFF 1 0 = some 0 ∧ v4 (.mulh (rr 2)) 0x80000000 0x80000000 0 = some 0x40000000
    ∧ v4 (.mulh (rr 6)) 0xFFFFFFFF 0xFFFFFFFF 0 = some 0xFFFFFFFE ∧ v4 (.abs (r1 2)) 0x80000000 0 0 = some 0x80000000
    ∧ v4 (.cvti { r1 0 with lo := 2 }) 300 0 0 = some 0x7F ∧ v4 (.cvti { r1 4 with lo := 2 }) 0xFFFFFFFB 0 0 = some 0 := by
  decide +kernel
/-- R94: DIV through its result. -/
theorem test_div :
    result (.div (rr 2)) (withThread 0 (vs [0xFFFFFFF9, 0, 2])) 0 = some [0xFFFFFFFD]
    ∧ result (.div (rr 2)) (withThread 0 (vs [0x80000000, 0, 0xFFFFFFFF])) 0 = some [0x80000000]
    ∧ result (.div (rr 6)) (withThread 0 (vs [5])) 0 = some [0xFFFFFFFF] := by decide +kernel
/-- R94: bits. -/
theorem test_bits :
    v4 (.shl (rr 6)) 1 33 0 = some 2 ∧ v4 (.shra (rr 2)) 0x80000000 4 0 = some 0xF8000000
    ∧ v4 (.rot (rr 6)) 0x80000001 1 0 = some 3 ∧ v4 (.bfe (rr 2)) 0xF00 0x408 0 = some 0xFFFFFFFF
    ∧ v4 (.bfe (rr 6)) 0xF00 0x408 0 = some 0xF ∧ v4 (.clz (r1 6)) 0 0 0 = some 32
    ∧ v4 (.permb (rrr 6)) 0x44332211 0x88776655 0x123 = some 0x11223344 := by decide +kernel
/-- R88, R95: CMP `.lt` signed, and PLOP with table 0xF0 copies a predicate. -/
theorem test_predicates :
    got (.cmp { rr 2 with op0 := .k 1, lo := 2 }) (withThread 0 (vs [0xFFFFFFFF, 0, 1])) 0 (.p 1) = some 1
    ∧ got (.plop { op0 := .k 5, op1 := .k 7, op2 := .k 0, op3 := .k 0, imm := 0xF0 }) base 0 (.p 5) = some 1 := by
  decide +kernel
/-- R97, R98: 1 + 1; a fused product that a rounded one would lose; FMIN of a NaN. -/
theorem test_floating :
    v4 (.fadd (rr 9)) 0x3F800000 0x3F800000 0 = some 0x40000000
    ∧ v4 (.ffma (rrr 9)) 0x3F800001 0x3F800001 0xBF800002 = some 0x28800000
    ∧ v4 (.fmin (rr 9)) 0x7FC00000 0xBF800000 0 = some 0xBF800000 := by decide +kernel
/-- R111: QNT in the E4M3-like slot with σ = 0.25, without its OVFT bit. -/
theorem test_qnt :
    got (.qnt { op0 := .v 4, op1 := .v 0, op2 := .k 254, ty := 14, sc := 2, lo := 1 })
      (with_ fun g => { g with
        launch := { launch with ks := launch.ks.set 2 0x021078C0 }
        threads := [vs [0x3E800000, 0x41000000, 0x43000000, 0x42E00000] (thread 0), thread 1] }) 0 (.v 4)
      = some 0x7E7E6038 := by decide +kernel
/-- R19: an S destination takes the value of the lowest acting thread; R20: threads without the guard keep their values. -/
theorem test_uniform_and_guard :
    got (.mov { op0 := .slo 3, op1 := .v 0, ty := 6 }) (withThread 0 (vs [9])) 0 (.s 3) = some 9
    ∧ got (.movi { op0 := .v 4, imm := 0xFFFFF, ty := 6, gp := 0 }) (halves id) 0 (.v 4) = some 0xFFFFFFFF
    ∧ got (.movi { op0 := .v 4, imm := 0xFFFFF, ty := 6, gp := 0 }) (halves id) 1 (.v 4) = some 0 := by decide +kernel
/-- R113, R114: BRA `.s` goes to the target its offset names, from its own first word. -/
theorem test_branch :
    after (.braS { imm := 0xFFFFF }) base (fun u => (place u 0).map Prod.snd == some 0x1000) = true
    ∧ after (.exit {}) base (fun u => (place u 1).map Prod.fst == some .exited) = true := by decide +kernel
/-- R371: a thread that takes TRAP goes on at HANDLER. -/
theorem test_trap :
    after (.trap { imm := 7 }) (alone id) (fun u => (place u 0).map Prod.snd == some 0x2000) = true := by decide +kernel
/-- R132 to R135: ST puts bytes little-endian at its address, and LD of 16 bits reads them zero-extended. -/
theorem test_memory :
    after (.st (st2 2 0x2000)) (alone fun g => { g with threads := [vs [0, 0, 0, 0, 0x11223344] (thread 0),
        { thread 1 with place := .exited }] }) (fun u => (List.range 5).map (fun i => u.byte (0x2000 + i)) ==
          [0x44, 0x33, 0x22, 0x11, 0]) = true
    ∧ result (.ld (at2 1 0x2000)) { base with ms := { base.ms with mem := (0x2000, 0x34) :: (0x2001, 0xF2) :: mem } } 0 = some [0xF234] := by decide +kernel
/-- R193: ATOM add returns the word as it was and leaves the sum. -/
theorem test_atomic :
    let s := withMem [(0x12010, 5)] (alone fun g => { g with threads := [vs [0, 0, 0, 0, 0, 0, 3] (thread 0),
      { thread 1 with place := .exited }] })
    result (.atom { at2 6 0x12010 with op3 := .v 6 }) { s with ms := { s.ms with tlb := [tlb 0x12] } } 0 = some [5]
    ∧ after (.atom { at2 6 0x12010 with op3 := .v 6 }) { s with ms := { s.ms with tlb := [tlb 0x12] } }
        (fun u => u.byte 0x12010 == 8) = true := by decide +kernel
/-- R206: the arrivals of both threads complete phase 0 of a barrier of two. -/
theorem test_barrier :
    after (.barArv { op0 := .k 0 }) base (fun u => (u.groupAt 0 fun g => (g.bar 0).phase) == some 1) = true := by decide +kernel
/-- R26: SREG of the thread index. -/
theorem test_special : got (.sreg { op0 := .v 4, imm := 0 }) base 1 (.v 4) = some 1 := by decide +kernel
/-- R289: AALLOC from the root gives its BUMP; one byte more than the quota gives 0. -/
theorem test_arena :
    result (.aalloc { op0 := .v 4, op1 := .slo 0, op2 := .k 16 }) (alone id) 0 = some [0x400000, 0]
    ∧ (vf.aalloc 0 0x100001 0).2 = 0 := by decide +kernel

/-- A column of a 32 × 32 tile costs 32 clocks at a row stride of 128 bytes and one clock at 132 bytes (R165). -/
theorem test_bank_conflicts :
    bankClocks (spWords 4 ((List.range 32).map (128 * ·))).eraseDups = 32
      ∧ bankClocks (spWords 4 ((List.range 32).map (132 * ·))).eraseDups = 1 := by decide +kernel

end Sys2Proof.Tests
end

section
/-! PROOFS. The step keeps memory in its canonical form (O6). The invariant speaks of two parts of the memory side, so
most operations keep it because they leave both; those that write bytes or gather partials have a lemma that says why.
One lemma for each operation, in the order of the model. -/

namespace Sys2Proof.Machine

/-! ### The invariant along the ways a state is put together -/

/-- A state with the memory side of one that has the invariant has it. -/
theorem State.MemOk.of_ms {s t : State} (hs : s.MemOk) (h : t.ms = s.ms) : t.MemOk := by
  unfold State.MemOk
  rw [h]
  exact hs

/-- The invariant speaks of memory and of the partials alone. -/
theorem State.MemOk.of_contents {s t : State} (hs : s.MemOk) (hm : t.ms.mem = s.ms.mem)
    (hp : t.ms.partials = s.ms.partials) : t.MemOk := by
  unfold State.MemOk
  rw [hm, hp]
  exact hs

@[simp] theorem MemSide.noteRefused_partials (m : MemSide) (line who : Nat) (k : Key) :
    (m.noteRefused line who k).partials = m.partials := by
  unfold MemSide.noteRefused
  split <;> rfl

/-- A refusal by a pin notes who waits, and leaves memory and the partials. -/
theorem State.MemOk.of_refusal {s t : State} {line who : Nat} {k : Key} (hs : s.MemOk)
    (h : t.ms = s.ms.noteRefused line who k) : t.MemOk :=
  hs.of_contents (h ▸ MemSide.noteRefused_mem ..) (h ▸ MemSide.noteRefused_partials ..)

/-- Bytes that are written keep the canonical form. -/
theorem State.MemOk.of_writeN {s t : State} {a : Nat} {xs : List Byte} (hs : s.MemOk)
    (hm : t.ms.mem = Memory.writeN s.ms.mem a xs) (hp : t.ms.partials = s.ms.partials) : t.MemOk := by
  unfold State.MemOk
  rw [hm, hp]
  exact ⟨Memory.writeN_wf _ _ hs.1, hs.2⟩

/-- Fewer partials stay inside their lines. -/
theorem State.MemOk.of_filter {s t : State} {q : Partial → Bool} (hs : s.MemOk) (hm : Memory.wf t.ms.mem = true)
    (hp : t.ms.partials = s.ms.partials.filter q) : t.MemOk := by
  unfold State.MemOk
  rw [hp]
  exact ⟨hm, fun p h => hs.2 p (List.mem_filter.mp h).1⟩

protected theorem State.MemOk.ite {s t : State} {c : Prop} [Decidable c] (hs : s.MemOk) (ht : t.MemOk) :
    (if c then s else t).MemOk := by
  split
  · exact hs
  · exact ht

theorem State.MemOk.ite_fst {α : Type} {x y : State × α} {c : Prop} [Decidable c] (hx : x.1.MemOk) (hy : y.1.MemOk) :
    (if c then x else y).1.MemOk := by
  split
  · exact hx
  · exact hy

/-- The state of a pair that has been taken apart. -/
theorem State.MemOk.of_pair {α : Type} {x : State × α} {t : State} {r : α} (h : x = (t, r)) (hx : x.1.MemOk) :
    t.MemOk := by
  rw [h] at hx
  exact hx

/-- A fold keeps the invariant if its step does. -/
theorem State.MemOk.foldl {α : Type} {f : State → α → State} {l : List α} {s : State}
    (hs : s.MemOk) (hf : ∀ u x, u.MemOk → (f u x).MemOk) : (l.foldl f s).MemOk :=
  List.foldlRecOn l f hs fun u hu x _ => hf u x hu

/-- The same for a fold that gathers results beside the state. -/
theorem State.MemOk.foldl_fst {α β : Type} {f : State × β → α → State × β} {l : List α} {r : State × β}
    (hr : r.1.MemOk) (hf : ∀ u x, u.1.MemOk → (f u x).1.MemOk) : (l.foldl f r).1.MemOk :=
  List.foldlRecOn (motive := fun u => u.1.MemOk) l f hr fun u hu x _ => hf u x hu

/-- An act has the invariant if the state that it leaves does. -/
def Act.MemOk : Act → Prop
  | .done s | .stay s | .moved s | .after s _ => s.MemOk
  | .fault _ => True

protected theorem Act.MemOk.ite {a b : Act} {c : Prop} [Decidable c] (ha : a.MemOk) (hb : b.MemOk) :
    (if c then a else b).MemOk := by
  split
  · exact ha
  · exact hb

/-- An outcome has the invariant if its next state does. -/
def NextMemOk : Host.Outcome State Fault Refusal → Prop
  | .next s => s.MemOk
  | _ => True

protected theorem NextMemOk.ite {a b : Host.Outcome State Fault Refusal} {c : Prop} [Decidable c] (ha : NextMemOk a)
    (hb : NextMemOk b) : NextMemOk (if c then a else b) := by
  split
  · exact ha
  · exact hb

/-! ### Lists and addresses -/

/-- What holds of every element still does after one has been changed by a function that keeps it. -/
theorem forall_mem_modAt {α : Type} {q : α → Prop} {l : List α} {i : Nat} {f : α → α} (hl : ∀ x ∈ l, q x)
    (hf : ∀ x, q x → q (f x)) : ∀ x ∈ modAt l i f, q x := by
  intro x hx
  obtain ⟨j, hj⟩ := List.mem_iff_getElem?.mp hx
  rw [getElem?_modAt] at hj
  split at hj
  · obtain ⟨y, hy, rfl⟩ := Option.map_eq_some_iff.mp hj
    exact hf y (hl y (List.mem_of_getElem? hy))
  · exact hl x (List.mem_of_getElem? hj)

/-- A translation keeps the place in the 4 KiB page (R360). -/
theorem State.xlate_ok_offset {s : State} {cl vf va : Nat} {n : Need} {pa arena : Nat}
    (h : s.xlate cl vf va n = .ok pa arena) : pa % 4096 = va % 4096 := by
  unfold State.xlate at h
  split at h
  · cases h
  · split at h
    · unfold State.atLeaf at h
      dsimp only at h
      split at h
      · cases h
      · cases h
        omega
    · cases h

/-! ### The operations of the memory side -/

theorem State.MemOk.recall {s : State} {line : Nat} (hs : s.MemOk) : (s.recall line).MemOk := State.recall_memOk line hs
theorem State.MemOk.store {s : State} {cl : Option Nat} {vf arena pa : Nat} {bytes : List Byte} (hs : s.MemOk) :
    (s.store cl vf arena pa bytes).MemOk := State.store_memOk cl vf arena pa bytes hs
theorem State.MemOk.putAs {s : State} {who : Option (Nat × Nat)} {vf arena pa : Nat} {b : Byte} (hs : s.MemOk) :
    (s.putAs who vf arena pa b).MemOk := State.putAs_memOk who vf arena pa b hs
theorem State.MemOk.devWrite {s : State} {vf va : Nat} {bytes : List Byte} (hs : s.MemOk) :
    (s.devWrite vf va bytes).MemOk := State.devWrite_memOk vf va bytes hs
theorem State.MemOk.tcbPut {s : State} {vf i off n x : Nat} (hs : s.MemOk) : (s.tcbPut vf i off n x).MemOk :=
  State.tcbPut_memOk vf i off n x hs

/-! ### Memory, counters and records -/

theorem State.MemOk.note {s : State} {t : Tally} (hs : s.MemOk) : (s.note t).MemOk :=
  hs.of_ms rfl

theorem State.MemOk.noteN {s : State} {t : Tally} {n : Nat} (hs : s.MemOk) : (s.noteN t n).MemOk := by
  induction n generalizing s with
  | zero => exact hs
  | succ n ih => exact ih (hs.of_ms rfl)

theorem State.MemOk.count {s : State} {cl event n : Nat} (hs : s.MemOk) : (s.count cl event n).MemOk :=
  hs.of_ms rfl

theorem State.MemOk.countShared {s : State} {vf event n : Nat} (hs : s.MemOk) : (s.countShared vf event n).MemOk :=
  hs.of_ms rfl

theorem State.MemOk.setVf {s : State} {i : Nat} {f : VF → VF} (hs : s.MemOk) : (s.setVf i f).MemOk :=
  hs.of_ms rfl

theorem State.MemOk.setGroup {s : State} {i : Nat} {f : Group → Group} (hs : s.MemOk) : (s.setGroup i f).MemOk :=
  hs.of_ms rfl

theorem State.MemOk.wakeLine {s : State} {line : Nat} (hs : s.MemOk) : (s.wakeLine line).MemOk :=
  hs.of_ms rfl

theorem State.MemOk.holdWord {s : State} {cl vf pa arena : Nat} (hs : s.MemOk) : (s.holdWord cl vf pa arena).MemOk :=
  .ite hs (hs.of_ms rfl)

theorem State.MemOk.holdWords {cl vf n : Nat} {s : State} {pc : Addr} (hs : s.MemOk) :
    (s.holdWords cl vf n pc).MemOk := by
  induction n generalizing s pc with
  | zero => exact hs
  | succ n ih =>
    unfold State.holdWords
    split
    · exact ih hs.holdWord
    · exact hs

/-! ### Frames and flits -/

theorem State.MemOk.transmit {s : State} {owner : Nat} {x : SentFlit} (hs : s.MemOk) : (s.transmit owner x).MemOk :=
  hs.of_ms rfl

theorem State.MemOk.ask {s : State} {vf kind path pa op width : Nat} {data : List Byte} {a : Asker} (hs : s.MemOk) :
    (s.ask vf kind path pa op width data a).MemOk :=
  hs.of_ms rfl

theorem State.MemOk.respond {s : State} {f : Flit} {kind op : Nat} {data : List Byte} (hs : s.MemOk) :
    (s.respond f kind op data).MemOk :=
  hs.of_ms rfl

/-- A flit that acts, or is held where it cannot yet, keeps the invariant if its meaning does. -/
theorem State.MemOk.arrived {s : State} {x : InFlit} {f : State → State × Bool} (hs : s.MemOk)
    (hf : ∀ u, u.MemOk → (f u).1.MemOk) : (s.arrived x f).MemOk := by
  unfold State.arrived
  have hr := hf { s with fab := { s.fab with inbox := dropFirst s.fab.inbox x } } (hs.of_ms rfl)
  exact .ite (.ite hr (hr.of_ms rfl)) hs

/-! ### Caches, slices, pins and the homes of lines -/

theorem State.MemOk.spillLine {s : State} {vf : Nat} {x : SLine} (hs : s.MemOk) : (s.spillLine vf x).MemOk :=
  .ite (State.MemOk.countShared (hs.of_contents rfl rfl)) (hs.of_ms rfl)

theorem State.MemOk.fillSlice {s : State} {vf slice line arena : Nat} {kind : SliceKind} (hs : s.MemOk) :
    (s.fillSlice vf slice line arena kind).MemOk := by
  unfold State.fillSlice
  split
  · exact hs.spillLine.of_ms rfl
  · exact hs.of_ms rfl

theorem State.MemOk.soil {s : State} {line : Nat} (hs : s.MemOk) : (s.soil line).MemOk :=
  .ite (hs.of_contents rfl rfl) hs

theorem State.MemOk.atHome {s : State} {vf arena pa : Nat} {write : Bool} (hs : s.MemOk) :
    (s.atHome vf arena pa write).MemOk :=
  .ite (.ite (hs.of_ms rfl) hs) (.ite hs.countShared.countShared.soil.fillSlice
    (.ite hs.countShared.countShared hs.countShared.countShared.fillSlice))

theorem State.MemOk.atReplica {s : State} {cl vf arena pa : Nat} (hs : s.MemOk) : (s.atReplica cl vf arena pa).MemOk :=
  .ite hs.atHome (.ite hs hs.countShared.atHome.fillSlice)

theorem State.MemOk.writeHome {s : State} {cl : Option Nat} {vf arena line : Nat} (hs : s.MemOk) :
    (s.writeHome cl vf arena line).MemOk :=
  State.MemOk.wakeLine (hs.atHome.of_ms rfl)

theorem State.MemOk.devRecall {s : State} {vf va n : Nat} (hs : s.MemOk) : (s.devRecall vf va n).MemOk := by
  unfold State.devRecall
  refine hs.foldl fun u x hu => ?_
  split
  · exact hu.recall
  · exact hu

theorem State.MemOk.writeAs {s : State} {who : Option (Nat × Nat)} {vf va : Nat} {bytes : List Byte} (hs : s.MemOk) :
    (s.writeAs who vf va bytes).MemOk := by
  induction bytes generalizing s va with
  | nil => exact hs
  | cons b bs ih =>
    refine ih ?_
    split
    · exact hs.putAs
    · exact hs

theorem State.MemOk.setFar {s : State} {x : FarLine} {data : List Byte} (hs : s.MemOk) : (s.setFar x data).MemOk :=
  hs.of_contents rfl rfl

theorem State.MemOk.flushFar {s : State} {a : Asker} {x : FarLine} (hs : s.MemOk) : (s.flushFar a x).MemOk :=
  State.MemOk.foldl (hs.of_contents rfl rfl) (fun _ _ hu => .ite hu hu.ask)

theorem State.MemOk.voidFills {s : State} {cl line : Nat} (hs : s.MemOk) : (s.voidFills cl line).MemOk :=
  hs.of_contents rfl rfl

theorem State.MemOk.writeBack {s : State} {p : Pin} (hs : s.MemOk) : (s.writeBack p).MemOk := by
  unfold State.writeBack
  split
  · exact hs.flushFar.voidFills
  · exact .ite hs hs.writeHome

theorem State.MemOk.endPins {s : State} {ends : Pin → Bool} (hs : s.MemOk) : (s.endPins ends).MemOk :=
  State.MemOk.foldl (State.MemOk.foldl (hs.of_contents rfl rfl) (fun _ _ hu => hu.writeBack))
    (fun _ _ hu => .ite hu hu.store)

theorem State.MemOk.dropFills {s : State} {group : Nat} (hs : s.MemOk) : (s.dropFills group).MemOk :=
  hs.of_contents rfl rfl

theorem State.MemOk.unpin {s : State} {group : Nat} (hs : s.MemOk) : (s.unpin group).MemOk :=
  hs.endPins

theorem State.MemOk.wakeNarrow {s : State} {cl line : Nat} (hs : s.MemOk) : (s.wakeNarrow cl line).MemOk :=
  hs.of_ms rfl

theorem State.MemOk.evictLine {s : State} {c : CLine} (hs : s.MemOk) : (s.evictLine c).MemOk := by
  unfold State.evictLine
  refine State.MemOk.wakeNarrow ?_
  split
  · exact hs.of_ms rfl
  · exact hs.endPins.of_ms rfl
  · exact hs.recall.of_ms rfl

theorem State.MemOk.fillLine {s : State} {cl vf arena line : Nat} {kind : LineKind} (hs : s.MemOk) :
    (s.fillLine cl vf arena line kind).MemOk := by
  unfold State.fillLine
  dsimp only
  split
  · split
    · exact hs
    · split
      · exact hs.evictLine
      · exact hs
  · split
    · exact hs.of_ms rfl
    · split
      · exact hs.evictLine.of_ms rfl
      · exact hs.of_ms rfl

theorem State.MemOk.readLine {s : State} {cl vf arena pa : Nat} {home : Bool} (hs : s.MemOk) :
    (s.readLine cl vf arena pa home).MemOk := by
  unfold State.readLine
  split
  · exact .ite hs (.ite hs.atReplica hs.atHome)
  · exact State.MemOk.fillLine (.ite hs.count.atReplica hs.count.atHome)

theorem State.MemOk.retain {s : State} {cl vf pa hint : Nat} (hs : s.MemOk) : (s.retain cl vf pa hint).MemOk :=
  .ite (hs.of_ms rfl) hs

theorem State.MemOk.engineLine {s : State} {cl : Option Nat} {vf arena pa : Nat} (hs : s.MemOk) :
    (s.engineLine cl vf arena pa).MemOk := by
  unfold State.engineLine
  split
  · exact hs.atHome
  · exact .ite hs (.ite (.ite hs.atReplica hs.atReplica.fillLine) hs.atHome)

theorem State.MemOk.easeSet {fuel : Nat} {s : State} {cl set room : Nat} (hs : s.MemOk) :
    (State.easeSet fuel s cl set room).MemOk := by
  induction fuel generalizing s with
  | zero => exact hs
  | succ fuel ih =>
    unfold State.easeSet
    refine .ite hs ?_
    split
    · exact ih hs.endPins
    · exact hs

theorem State.MemOk.pinLine {s : State} {cl group line vf arena : Nat} (hs : s.MemOk) :
    (s.pinLine cl group line vf arena).MemOk :=
  .ite hs (.ite hs.easeSet.readLine (hs.easeSet.readLine.of_contents rfl rfl))

theorem State.MemOk.pinFar {s : State} {x : FarLine} {arena : Nat} (hs : s.MemOk) : (s.pinFar x arena).MemOk :=
  have h := (hs.easeSet (fuel := 16) (cl := x.cl) (set := cacheSet x.line) (room := 3)).fillLine
  .ite h (h.of_contents rfl rfl)

theorem State.MemOk.takeWay {s : State} {cl set : Nat} {mine : List (Nat × Nat)} (hs : s.MemOk) :
    (s.takeWay cl set mine).1.MemOk := by
  unfold State.takeWay
  refine State.MemOk.easeSet ?_
  split
  · exact hs.evictLine
  · exact hs

theorem State.MemOk.takeWays {s : State} {cl s0 n : Nat} (hs : s.MemOk) : (s.takeWays cl s0 n).1.MemOk :=
  hs.foldl_fst (fun _ _ hu => hu.takeWay)

theorem State.MemOk.listHolder {s : State} {vf arena cl line : Nat} (hs : s.MemOk) :
    (s.listHolder vf arena cl line).MemOk := by
  unfold State.listHolder
  dsimp only
  split
  · exact hs.of_ms rfl
  · exact State.MemOk.fillLine (hs.of_ms rfl)

theorem State.MemOk.dropTags {s : State} {gone : Nat → Nat → Bool} (hs : s.MemOk) : (s.dropTags gone).MemOk :=
  hs.of_contents rfl rfl

theorem State.MemOk.noteError {s : State} {at_ : Guarded} {die loc : Nat} {hard : Bool} {cl : Option Nat} (hs : s.MemOk)
    :
    (s.noteError at_ die loc hard cl).MemOk := by
  unfold State.noteError
  split
  · exact .ite (hs.of_ms rfl) (State.MemOk.count (hs.of_ms rfl))
  · exact hs.of_ms rfl

/-! ### Task control blocks -/

theorem State.MemOk.setTask {s : State} {uid : Nat} {f : Task → Task} (hs : s.MemOk) : (s.setTask uid f).MemOk :=
  hs.of_ms rfl

theorem State.MemOk.post {s : State} {vf tgt value kind b9 h10 w12 : Nat} (hs : s.MemOk) :
    (s.post vf tgt value kind b9 h10 w12).MemOk := by
  unfold State.post
  split
  · exact hs.note
  · exact .ite hs.devWrite.note (hs.devWrite.devWrite.of_ms rfl)

theorem State.MemOk.makeReady {s : State} {vf i : Nat} (hs : s.MemOk) : (s.makeReady vf i).MemOk := by
  unfold State.makeReady
  dsimp only
  split
  · exact hs.tcbPut.tcbPut.of_ms rfl
  · exact hs.tcbPut.tcbPut

theorem State.MemOk.decPred {s : State} {vf i : Nat} (hs : s.MemOk) : (s.decPred vf i).MemOk :=
  .ite hs.note (.ite hs.tcbPut.makeReady hs.tcbPut)

theorem State.MemOk.giveBack {s : State} {slots : List (Nat × Nat × Nat)} (hs : s.MemOk) : (s.giveBack slots).MemOk :=
  hs.of_ms rfl

theorem State.MemOk.killGroups {s : State} {uid : Nat} (hs : s.MemOk) : (s.killGroups uid).MemOk :=
  hs.of_ms rfl

theorem State.MemOk.dropTask {s : State} {vf i : Nat} (hs : s.MemOk) : (s.dropTask vf i).MemOk := by
  unfold State.dropTask
  split
  · exact hs
  · exact hs.of_ms rfl

theorem State.MemOk.completionNotice {s : State} {vf i state err : Nat} (hs : s.MemOk) :
    (s.completionNotice vf i state err).MemOk :=
  .ite hs.post hs

theorem State.MemOk.abortOne {s : State} {vf i err : Nat} (hs : s.MemOk) : (s.abortOne vf i err).MemOk := by
  unfold State.abortOne
  refine State.MemOk.completionNotice (State.MemOk.tcbPut
    (State.MemOk.tcbPut (State.MemOk.tcbPut (State.MemOk.dropTask ?_))))
  split
  · exact hs.killGroups
  · exact hs

theorem State.MemOk.abortAll {fuel : Nat} {s : State} {vf : Nat} {todo : List (Nat × Nat)} (hs : s.MemOk) :
    (State.abortAll fuel s vf todo).MemOk := by
  induction fuel generalizing s todo with
  | zero => exact hs
  | succ fuel ih =>
    cases todo with
    | nil => exact hs
    | cons x rest => exact .ite (ih hs) (ih hs.abortOne)

theorem State.MemOk.abort {s : State} {vf i err : Nat} (hs : s.MemOk) : (s.abort vf i err).MemOk :=
  hs.abortAll

theorem State.MemOk.abortNew {s : State} {vf i err : Nat} (hs : s.MemOk) : (s.abortNew vf i err).MemOk :=
  hs.abortOne.abortAll

/-! ### Issue, faults and the close of an act -/

theorem State.MemOk.tick {s : State} {clocks tai : Nat} (hs : s.MemOk) : (s.tick clocks tai).MemOk :=
  hs.of_ms rfl

theorem State.MemOk.gap {s : State} (hs : s.MemOk) : s.gap.MemOk :=
  hs.of_ms rfl

theorem State.MemOk.setSlot {s : State} {cl slot : Nat} {f : IssueSlot → IssueSlot} (hs : s.MemOk) :
    (s.setSlot cl slot f).MemOk :=
  hs.of_ms rfl

theorem State.MemOk.issues {s : State} {cl slot major busy : Nat} (hs : s.MemOk) :
    (s.issues cl slot major busy).MemOk :=
  hs.of_ms rfl

theorem State.MemOk.countSlot {s : State} {cl slot event : Nat} (hs : s.MemOk) : (s.countSlot cl slot event).MemOk :=
  .ite hs hs.setSlot.count

theorem State.MemOk.setSheaf {s : State} {gi si : Nat} {f : Sheaf → Sheaf} (hs : s.MemOk) :
    (s.setSheaf gi si f).MemOk :=
  hs.of_ms rfl

theorem State.MemOk.fitContexts {s : State} {gi : Nat} (hs : s.MemOk) : (s.fitContexts gi).MemOk := by
  unfold State.fitContexts
  split
  · exact .ite hs hs.setGroup
  · exact hs

theorem State.MemOk.fallThrough {s : State} {gi si : Nat} {pc : Addr} (hs : s.MemOk) :
    (s.fallThrough gi si pc).MemOk := by
  unfold State.fallThrough
  split
  · exact hs
  · exact .ite hs.setGroup hs.setGroup.setSheaf

theorem State.MemOk.dropHelpers {s : State} {gi id : Nat} (hs : s.MemOk) : (s.dropHelpers gi id).MemOk := by
  unfold State.dropHelpers
  split
  · exact hs
  · split
    · exact hs
    · exact hs.giveBack.setGroup

theorem State.MemOk.cancelGlean {s : State} {gi id : Nat} (hs : s.MemOk) : (s.cancelGlean gi id).MemOk :=
  hs.dropHelpers.setGroup

theorem State.MemOk.putRecord {s : State} {gi : Nat} {g : Group} {k : Key} {a : Nat} {bytes : List Byte} (hs : s.MemOk)
    :
    (s.putRecord gi g k a bytes).MemOk :=
  .ite hs.writeAs hs.writeAs.setGroup

theorem State.MemOk.enter {s : State} {gi : Nat} {k : Key} {f : Flt} {site : Site} {hdr : Header}
    {h : Option (Nat × Addr × Nat)} (hs : s.MemOk) :
    (s.enter gi k f site hdr h).MemOk := by
  unfold State.enter
  split
  · exact hs
  · split
    · exact hs
    · refine .ite hs.setGroup ?_
      split
      · exact hs.setGroup
      · refine .ite hs.abort (State.MemOk.setGroup ?_)
        split
        · exact hs.putRecord.cancelGlean
        · exact hs.putRecord

theorem State.MemOk.charge {s : State} {gi : Nat} {k : Key} {f : Flt} {site : Site} (hs : s.MemOk) :
    (s.charge gi k f site).MemOk := by
  unfold State.charge
  split
  · exact hs
  · split
    · exact hs
    · dsimp only
      split
      · exact State.MemOk.enter (State.MemOk.setGroup (.ite hs.note hs))
      · exact State.MemOk.enter (State.MemOk.setGroup (.ite hs.note hs))
      · exact State.MemOk.setGroup (.ite hs.note hs)

theorem State.MemOk.takeOne {s : State} {gi : Nat} {site : Site} {hdr : Header} {x : Key × Flt} (hs : s.MemOk) :
    (s.takeOne gi site hdr x).MemOk :=
  .ite hs.charge hs.enter

theorem State.MemOk.takeAll {s : State} {gi : Nat} {site : Site} {hdr : Header} {fs : List (Key × Flt)} (hs : s.MemOk) :
    (s.takeAll gi site hdr fs).MemOk :=
  State.MemOk.setGroup (hs.foldl (fun _ _ hu => hu.takeOne))

theorem State.MemOk.advance {s : State} {c : Cx} (hs : s.MemOk) : (s.advance c).MemOk :=
  .ite hs.setSheaf hs.setSheaf.fallThrough

theorem State.MemOk.tidy {s : State} {gi : Nat} (hs : s.MemOk) : (s.tidy gi).MemOk :=
  hs.of_ms rfl

theorem State.MemOk.countIssue {s : State} {c : Cx} (hs : s.MemOk) : (s.countIssue c).MemOk :=
  hs.of_ms rfl

theorem State.MemOk.stalled {s : State} {c : Cx} (hs : s.MemOk) : (s.stalled c).MemOk :=
  hs.countSlot

theorem State.MemOk.mark {s : State} {c : Cx} (hs : s.MemOk) : (s.mark c).MemOk :=
  hs.of_ms rfl

theorem State.MemOk.takeCharged {s : State} {c : Cx} {own : List Key} (hs : s.MemOk) : (s.takeCharged c own).MemOk :=
  State.MemOk.noteN (hs.foldl (fun _ _ hu => hu.enter))

theorem State.MemOk.faulted {s : State} {c : Cx} {fs : List (Key × Flt)} (hs : s.MemOk) : (s.faulted c fs).MemOk :=
  hs.setSheaf.takeAll.takeCharged.tidy

theorem State.MemOk.chargedOnly {s : State} {c : Cx} {ch : List (Key × Flt × Option (Nat × Addr × Nat))} (hs : s.MemOk)
    :
    (s.chargedOnly c ch).MemOk :=
  State.MemOk.tidy (hs.setSheaf.foldl (fun _ _ hu => hu.enter))

theorem Act.MemOk.close {c : Cx} {s : State} {a : Act} (ha : a.MemOk) (hs : s.MemOk) : (a.close c s).MemOk := by
  cases a with
  | done t => exact (State.MemOk.countIssue ha).advance.tidy
  | stay t => exact ha
  | moved t => exact (State.MemOk.countIssue ha).tidy
  | fault fs => exact hs.faulted
  | after t fs => exact (State.MemOk.countIssue ha).advance.takeAll.tidy

/-- AN ISSUE KEEPS THE INVARIANT if the instruction's own effect does. -/
theorem issue_memOk {word : Word} {len : Nat} {o : Op} {e : Ext} {s : State} {body : Cx → State → Act} (hs : s.MemOk)
    (hb : ∀ c, (body c s).MemOk) : NextMemOk (issue word len o e s body) := by
  have hf {c : Cx} {fs : List (Key × Flt)} : (((s.countIssue c).mark c).faulted c fs).MemOk :=
    hs.countIssue.mark.faulted
  unfold issue
  split
  · trivial
  · next c _ =>
    refine .ite hf (.ite hf (.ite hf (.ite hs.stalled (.ite hf ?_))))
    have ha := hb c
    split
    · exact hf
    · refine .ite hs.countIssue.mark.chargedOnly ?_
      split
      · next h => rwa [h] at ha
      · exact (ha.close hs).noteN.mark

theorem issueE_memOk {o : Op} {e : Ext} {s : State} {body : Cx → State → Act} (hs : s.MemOk)
    (hb : ∀ c, (body c s).MemOk) : NextMemOk (issueE o e s body) := issue_memOk hs hb

theorem issueB_memOk {major : Nat} {o : Op} {b : Base} {ty : BitVec 4} {addend : Bool} {s : State}
    {body : Cx → State → Act} (hs : s.MemOk) (hb : ∀ c, (body c s).MemOk) :
    NextMemOk (issueB major o b ty addend s body) := issue_memOk hs hb

/-- Threads that act in turn keep the invariant if each of them does. -/
theorem inTurn_memOk {c : Cx} {s : State} {room : State → Thread → Bool} {one : State → Thread → State}
    {ts : List Thread} (hs : s.MemOk) (ho : ∀ u t, u.MemOk → (one u t).MemOk) : (inTurn c s room one ts).MemOk := by
  induction ts generalizing s with
  | nil => exact hs
  | cons t ts ih => exact .ite (ih ((ho s t hs).of_ms rfl)) hs.stalled

theorem lanes_memOk {s : State} {f : Cx → Thread → List (Reg × Word)} {c : Cx} (hs : s.MemOk) : (lanes f c s).MemOk :=
  hs.setGroup

theorem lanesDraw_memOk {s : State} {draws : Nat} {f : Cx → Thread → List (Reg × Word)} {c : Cx} (hs : s.MemOk) :
    (lanesDraw draws f c s).MemOk :=
  hs.setGroup

theorem lanesOut_memOk {s : State} {f : Cx → Thread → List (Reg × Word)} {c : Cx} (hs : s.MemOk) :
    (lanesOut f c s).MemOk :=
  hs.setGroup

/-! ### Translation and the pager -/

theorem State.MemOk.fillTlb {s : State} {cl vf page : Nat} {l : Leaf} (hs : s.MemOk) : (s.fillTlb cl vf page l).MemOk :=
  hs.of_contents rfl rfl

theorem State.MemOk.fillBoth {s : State} {cl vf page : Nat} {l : Leaf} (hs : s.MemOk) :
    (s.fillBoth cl vf page l).MemOk :=
  State.MemOk.fillTlb (hs.of_contents rfl rfl)

theorem State.MemOk.miss {s : State} {cl vf va : Nat} {write fetch engine : Bool} (hs : s.MemOk) :
    (s.miss cl vf va write fetch engine).MemOk :=
  .ite hs (hs.of_contents rfl rfl)

theorem State.MemOk.missAt {s : State} {gi si : Nat} {g : Group} {va : Nat} {write fetch engine : Bool} (hs : s.MemOk) :
    (s.missAt gi si g va write fetch engine).MemOk := by
  unfold State.missAt
  split
  · exact hs.fillTlb
  · exact hs.miss.setSheaf

theorem State.MemOk.holdPage {s : State} {c : Cx} {va : Nat} {write fetch engine : Bool} (hs : s.MemOk) :
    (s.holdPage c va write fetch engine).MemOk :=
  hs.missAt

theorem State.MemOk.answerPage {s : State} {cl vf page : Nat} {fail : Option Nat} (hs : s.MemOk) :
    (s.answerPage cl vf page fail).MemOk :=
  hs.of_contents rfl rfl

theorem State.MemOk.failOnce {s : State} {cl vf page : Nat} (hs : s.MemOk) : (s.failOnce cl vf page).MemOk :=
  hs.of_ms rfl

theorem State.MemOk.askPager {s : State} {w : Walk} (hs : s.MemOk) : (s.askPager w).MemOk := by
  unfold State.askPager
  refine .ite hs.failOnce.answerPage ?_
  split
  · exact hs.of_contents rfl rfl
  · exact State.MemOk.post (hs.of_contents rfl rfl)

theorem State.MemOk.walked {s : State} {w : Walk} (hs : s.MemOk) : (s.walked w).MemOk :=
  hs.foldl (fun _ _ hu => hu.recall)

theorem evPageWalk_memOk {s : State} {i : Nat} (hs : s.MemOk) : (evPageWalk i s).MemOk := by
  unfold evPageWalk
  split
  · exact hs
  · refine .ite hs ?_
    split
    · exact hs.walked.fillBoth.answerPage
    · exact hs.walked.askPager
    · exact hs.walked.answerPage
    · exact hs.walked.answerPage
    · exact hs

theorem evPagerInval_memOk {s : State} {vf : Nat} {data : BitVec 64} (hs : s.MemOk) : (evPagerInval vf data s).MemOk :=
  .ite hs.note (.ite hs (hs.of_contents rfl rfl))

theorem evPagerReplay_memOk {s : State} {vf : Nat} {data : BitVec 64} (hs : s.MemOk) :
    (evPagerReplay vf data s).MemOk :=
  .ite hs.note (hs.foldl (fun _ _ hu => hu.answerPage))

theorem evPagerReplayFail_memOk {s : State} {vf : Nat} {data : BitVec 64} (hs : s.MemOk) :
    (evPagerReplayFail vf data s).MemOk :=
  .ite hs.note (hs.foldl (fun _ _ hu => hu.answerPage))

theorem State.MemOk.dropStage {s : State} {vf gpa size : Nat} (hs : s.MemOk) : (s.dropStage vf gpa size).MemOk :=
  State.MemOk.setVf (hs.of_contents rfl rfl)

/-- Bytes that are written to each frame of a list keep the invariant. The bytes are a variable: a page of zeros, once
written out, is too long a list for the kernel. -/
theorem State.MemOk.fillFrames {s : State} (bytes : List Byte) (frames : List Nat) (hs : s.MemOk) :
    (frames.foldl (fun s f => { s with ms := { s.ms with
      mem := Memory.writeN s.ms.mem (f * 4096) bytes
      dirty := s.ms.dirty.filter fun d => d.line / 32 != f } }) s).MemOk :=
  hs.foldl fun _ _ hu => hu.of_writeN rfl rfl

/-- Frames that a VF is given are cleared by writes (R361). -/
theorem State.MemOk.giveFrames {s : State} {vf pa n : Nat} (hs : s.MemOk) : (s.giveFrames vf pa n).MemOk := by
  unfold State.giveFrames
  exact State.MemOk.setVf ((hs.fillFrames _ _).of_ms rfl)

theorem State.MemOk.denyFlits {s : State} {vf page : Nat} (hs : s.MemOk) : (s.denyFlits vf page).MemOk :=
  State.MemOk.foldl (hs.of_ms rfl) (fun _ _ hu => hu.respond)

theorem evPartitionStageMiss_memOk {s : State} {vf : Nat} {gpa : BitVec 64} {ans : PStageAnswer} (hs : s.MemOk) :
    (evPartitionStageMiss vf gpa ans s).MemOk := by
  unfold evPartitionStageMiss
  split
  · exact .ite hs.note (.ite hs (State.MemOk.setVf (State.MemOk.giveFrames (.ite hs.dropStage hs))))
  · exact State.MemOk.denyFlits (hs.foldl (fun _ _ hu => hu.answerPage))
  · exact .ite hs hs.dropStage

/-! ### Words and clauses -/

theorem State.MemOk.keepWords {s : State} {gi si : Nat} {g : Group} {sh : Sheaf} {n : Nat} (hs : s.MemOk) :
    (s.keepWords gi si g sh n).MemOk :=
  hs.of_ms rfl

theorem State.MemOk.wordFault {s : State} {gi si : Nat} {w : Word} {f : Flt} (hs : s.MemOk) :
    (s.wordFault gi si w f).MemOk := by
  unfold State.wordFault
  split
  · exact hs
  · split
    · exact hs
    · exact hs.issues.setSheaf.takeAll.tidy.gap

theorem headerStep_memOk {s : State} {h : Header} {gi si : Nat} {g : Group} {sh : Sheaf} (hs : s.MemOk) :
    (headerStep h gi si g sh s).MemOk :=
  .ite hs.wordFault (.ite hs.countSlot hs.setSheaf)

theorem execRunClause_memOk {h : Header} {s : State} (hs : s.MemOk) : NextMemOk (execRunClause h s) := by
  unfold execRunClause
  split
  · trivial
  · split
    · trivial
    · split
      · trivial
      · exact headerStep_memOk hs

theorem State.MemOk.stopAt {s : State} {gi si : Nat} {w : Word} (hs : s.MemOk) : (s.stopAt gi si w).MemOk := by
  unfold State.stopAt
  split
  · exact hs
  · split
    · exact hs
    · exact hs.setGroup.tidy

/-! ### Barriers -/

theorem State.MemOk.onBars {s : State} {gi : Nat} {f : Group → Group} (hs : s.MemOk) : (s.onBars gi f).MemOk := by
  unfold State.onBars
  split
  · exact hs
  · exact .ite hs.setGroup.unpin hs.setGroup

theorem State.MemOk.arriveNow {s : State} {gi : Nat} {a : Arrival} (hs : s.MemOk) : (s.arriveNow gi a).MemOk := by
  unfold State.arriveNow
  split
  · exact hs
  · exact .ite hs.setGroup hs.onBars

theorem State.MemOk.arriveAt {s : State} {gi b : Nat} {k : Key} {set : Option (Nat × Bool)} (hs : s.MemOk) :
    (s.arriveAt gi b k set).MemOk := by
  unfold State.arriveAt
  split
  · exact hs
  · exact hs.arriveNow

theorem State.MemOk.retryArrivals {s : State} {gi : Nat} (hs : s.MemOk) : (s.retryArrivals gi).MemOk := by
  unfold State.retryArrivals
  split
  · exact hs
  · exact hs.setGroup.foldl (fun _ _ hu => hu.arriveNow)

theorem State.MemOk.retryAll {s : State} (hs : s.MemOk) : s.retryAll.MemOk :=
  hs.foldl (fun _ _ hu => hu.retryArrivals)

theorem State.MemOk.subtract {s : State} {gi b n : Nat} (hs : s.MemOk) : (s.subtract gi b n).MemOk := by
  unfold State.subtract
  split
  · exact hs
  · exact State.MemOk.onBars (.ite hs hs.count)

/-! ### Floating-point forms -/

theorem lanesF64_memOk {s : State} {f : Cx → Thread → List (Reg × Word)} {c : Cx} (hs : s.MemOk) :
    (lanesF64 f c s).MemOk :=
  .ite (lanesOut_memOk hs) (lanes_memOk hs)

/-! ### Conversions -/

theorem cvtBody_memOk {c : Cx} {s : State} (hs : s.MemOk) : (cvtBody c s).MemOk :=
  .ite (hs.of_ms rfl) (lanesDraw_memOk hs)

theorem qntFinish_memOk {s : State} {addr : Nat} {sig : Thread → Option Int} {c : Cx} (hs : s.MemOk) :
    (qntFinish addr sig c s).MemOk :=
  .ite hs.setGroup hs.setGroup

/-! ### Statistics records at their home -/

theorem State.MemOk.dropStat {s : State} {who : Nat × Key × Nat} (hs : s.MemOk) : (s.dropStat who).MemOk := by
  unfold State.dropStat
  split
  · exact hs.count
  · exact hs.note

theorem State.MemOk.writeRecord {s : State} {vf arena pa : Nat} {out : List Byte} (hs : s.MemOk) :
    (s.writeRecord vf arena pa out).MemOk :=
  hs.store.store

theorem State.MemOk.mergeHome {s : State} {w : Windrow} (hs : s.MemOk) : (s.mergeHome w).MemOk := by
  unfold State.mergeHome
  refine .ite hs ?_
  split
  · exact hs.foldl (fun _ _ hu => hu.dropStat)
  · exact .ite (hs.recall.recall.writeRecord.of_contents rfl rfl) hs.recall.recall.writeRecord

theorem State.MemOk.contribute {s : State} {cl vf : Nat} {who : Nat × Key} {addr n : Nat} {x : Stat} (hs : s.MemOk) :
    (s.contribute cl vf who addr n x).MemOk := by
  unfold State.contribute
  refine .ite hs ?_
  split
  · exact hs.count
  · refine .ite (hs.of_contents rfl rfl) ?_
    dsimp only
    split
    · exact hs.of_contents rfl rfl
    · split <;> exact hs.of_contents rfl rfl

theorem State.MemOk.pushAll {s : State} {vf addr : Nat} (hs : s.MemOk) : (s.pushAll vf addr).MemOk :=
  State.MemOk.foldl (hs.of_contents rfl rfl) (fun _ _ hu => hu.mergeHome)

theorem State.MemOk.resetRecord {s : State} {cl vf addr : Nat} (hs : s.MemOk) : (s.resetRecord cl vf addr).MemOk := by
  unfold State.resetRecord
  split
  · exact hs.count
  · exact State.MemOk.writeRecord (State.MemOk.recall (hs.of_contents rfl rfl))

/-! ### Loads and stores -/

theorem State.MemOk.refuse {s : State} {c : Cx} {line : Nat} (hs : s.MemOk) : (s.refuse c line).MemOk :=
  .ite hs (State.MemOk.count (hs.of_refusal rfl))

/-- An access keeps the invariant if what follows its gate does. -/
theorem gate_memOk {c : Cx} {s : State} {ts : List Thread} {chk : Thread → Chk} {w : Bool}
    {k : List Hit → State → Act} (hs : s.MemOk) (hk : ∀ hits u, u.MemOk → (k hits u).MemOk) :
    (gate c s ts chk w k).MemOk := by
  unfold gate
  refine .ite trivial ?_
  split
  · exact hs.holdPage
  · split
    · exact hs.refuse
    · exact hk _ _ (hs.of_contents rfl rfl)

theorem State.MemOk.loadTags {s : State} {c : Cx} {arena pa : Nat} (hs : s.MemOk) : (s.loadTags c arena pa).MemOk :=
  .ite hs.count.atHome hs.readLine.retain

theorem State.MemOk.askWrite {s : State} {cl vf kind path pa op width : Nat} {data : List Byte} {a : Asker}
    (hs : s.MemOk) :
    (s.askWrite cl vf kind path pa op width data a).MemOk :=
  hs.voidFills.ask

theorem State.MemOk.loadAt {s : State} {c : Cx} {j : Nat} {h : Hit} {width n : Nat} (hs : s.MemOk) :
    (s.loadAt c j h width n).1.MemOk := by
  unfold State.loadAt
  refine .ite_fst hs (.ite_fst ?_ (.ite_fst hs hs.recall.loadTags))
  split
  · exact hs
  · exact hs.ask

theorem State.MemOk.loadAll {s : State} {c : Cx} {width n : Nat} {hits : List Hit} (hs : s.MemOk) :
    (s.loadAll c width n hits).1.MemOk :=
  hs.foldl_fst (fun _ _ hu => hu.loadAt)

theorem State.MemOk.storeAt {s : State} {c : Cx} {h : Hit} {bytes : List Byte} (hs : s.MemOk) :
    (s.storeAt c h bytes).MemOk := by
  unfold State.storeAt
  refine .ite hs (.ite ?_ hs.store.retain)
  split
  · exact hs.setFar
  · exact hs.askWrite

theorem State.MemOk.pinAt {s : State} {c : Cx} {h : Hit} (hs : s.MemOk) : (s.pinAt c h).MemOk := by
  unfold State.pinAt
  refine .ite hs (.ite ?_ (.ite hs hs.pinLine))
  split
  · exact .ite hs hs.pinFar
  · exact hs

theorem State.MemOk.askFar {s : State} {c : Cx} {h : Hit} (hs : s.MemOk) : (s.askFar c h).MemOk :=
  .ite hs hs.ask

theorem State.MemOk.settleFar {s : State} {c : Cx} {h : Hit} (hs : s.MemOk) : (s.settleFar c h).MemOk := by
  unfold State.settleFar
  split
  · exact hs.flushFar.voidFills
  · exact hs

theorem releaseFirst_memOk {c : Cx} {s : State} {on : Bool} {k : State → Act} (hs : s.MemOk)
    (hk : ∀ u, u.MemOk → (k u).MemOk) : (releaseFirst c s on k).MemOk :=
  .ite (.ite (hk _ hs.unpin) hs.unpin.stalled) (hk _ hs)

theorem ldBody_memOk {s : State} {c : Cx} (hs : s.MemOk) : (ldBody c s).MemOk :=
  gate_memOk hs (fun _ _ hu => hu.loadAll.setGroup)

theorem stBody_memOk {c : Cx} {s : State} (hs : s.MemOk) : (stBody c s).MemOk := by
  unfold stBody
  refine gate_memOk hs fun hits u hu => ?_
  dsimp only
  split
  · exact hu.askFar
  · refine .ite hu.stalled (releaseFirst_memOk hu fun v hv => State.MemOk.foldl hv fun w h hw => ?_)
    exact .ite hw.pinAt.storeAt.settleFar hw.storeAt

theorem State.MemOk.conflicts {s : State} {cl : Nat} {ws : List Nat} (hs : s.MemOk) : (s.conflicts cl ws).MemOk :=
  hs.of_ms rfl

theorem ldsBody_memOk {s : State} {c : Cx} (hs : s.MemOk) : (ldsBody c s).MemOk :=
  .ite trivial hs.conflicts.setGroup

theorem stsBody_memOk {s : State} {c : Cx} (hs : s.MemOk) : (stsBody c s).MemOk :=
  .ite trivial hs.conflicts.setGroup

theorem ldtBody_memOk {s : State} {c : Cx} (hs : s.MemOk) : (ldtBody c s).MemOk :=
  gate_memOk hs (fun _ _ hu => hu.loadAll.setGroup)

theorem sttBody_memOk {c : Cx} {s : State} (hs : s.MemOk) : (sttBody c s).MemOk := by
  unfold sttBody
  refine gate_memOk hs fun hits u hu => State.MemOk.foldl hu fun v h hv => State.MemOk.storeAt ?_
  split
  · exact hv.contribute
  · exact hv

theorem ldcBody_memOk {s : State} {c : Cx} (hs : s.MemOk) : (ldcBody c s).MemOk := by
  unfold ldcBody
  refine .ite trivial ?_
  split
  · exact hs.refuse
  · exact State.MemOk.setGroup (State.MemOk.foldl (hs.of_contents rfl rfl) (fun _ _ hu => hu.devRecall))

/-- The writes of STX that wait for a group's scratchpad change groups alone. -/
theorem State.MemOk.flushStx {s : State} {task gidx : Nat} (hs : s.MemOk) : (s.flushStx task gidx).MemOk := by
  unfold State.flushStx
  have put {l : List Stx} {u : State} (hu : u.MemOk) : (l.foldl (fun s x =>
      match s.targetGroup task gidx with
      | .here ti => s.setGroup ti fun t => t.stxPut x.off x.data
      | _ => s) u).MemOk := by
    refine hu.foldl fun v x hv => ?_
    split
    · exact hv.setGroup
    · exact hv
  refine State.MemOk.setTask (State.MemOk.foldl (put hs) fun u gi hu => ?_)
  split
  · exact hu
  · exact .ite hu (put hu.setGroup).retryArrivals

theorem stxBody_memOk {c : Cx} {s : State} (hs : s.MemOk) : (stxBody c s).MemOk := by
  unfold stxBody
  split
  · exact hs
  · refine .ite trivial (State.MemOk.foldl (hs.foldl fun _ _ hu => hu.conflicts) fun u t hu => ?_)
    split
    · exact hu.setGroup
    · exact hu
    · exact State.MemOk.setGroup (hu.of_ms rfl)

theorem prefBody_memOk {s : State} {c : Cx} (hs : s.MemOk) : (prefBody c s).MemOk := by
  unfold prefBody
  split
  · dsimp only
    split
    · exact hs.refuse
    · exact State.MemOk.foldl (hs.of_contents rfl rfl) (fun _ _ hu => hu.atHome)
  · dsimp only
    split
    · exact hs.refuse
    · exact State.MemOk.foldl (hs.of_contents rfl rfl) (fun _ _ hu => hu.readLine.retain)

/-! ### Control flow -/

theorem State.MemOk.closeAt {s : State} {c : Cx} (hs : s.MemOk) : (s.closeAt c).MemOk :=
  hs.of_ms rfl

theorem State.MemOk.fileAll {s : State} {c : Cx} {f : Thread → Addr} (hs : s.MemOk) : (s.fileAll c f).MemOk :=
  hs.of_ms rfl

theorem braUBody_memOk {s : State} {c : Cx} (hs : s.MemOk) : (braUBody c s).MemOk :=
  .ite hs (.ite hs.fallThrough trivial)

theorem braSBody_memOk {s : State} {c : Cx} (hs : s.MemOk) : (braSBody c s).MemOk :=
  hs.fileAll

theorem braMBody_memOk {s : State} {c : Cx} (hs : s.MemOk) : (braMBody c s).MemOk :=
  .ite (braUBody_memOk hs) (.ite (braSBody_memOk hs) hs.setSheaf.fallThrough)

theorem brxBody_memOk {s : State} {c : Cx} (hs : s.MemOk) : (brxBody c s).MemOk :=
  .ite trivial hs.fileAll

theorem callBody_memOk {s : State} {c : Cx} (hs : s.MemOk) : (callBody c s).MemOk :=
  .ite trivial hs.setGroup.fileAll

theorem yieldBody_memOk {s : State} {c : Cx} (hs : s.MemOk) : (yieldBody c s).MemOk :=
  .ite hs.fileAll hs.closeAt.setGroup

theorem trapBody_memOk {s : State} {cls : Nat} {c : Cx} (hs : s.MemOk) : (trapBody cls c s).MemOk :=
  .ite hs.closeAt.fallThrough hs.closeAt.takeAll

theorem exitBody_memOk {s : State} {c : Cx} (hs : s.MemOk) : (exitBody c s).MemOk :=
  .ite trivial hs.onBars

theorem swregBody_memOk {s : State} {c : Cx} (hs : s.MemOk) : (swregBody c s).MemOk := by
  unfold swregBody
  refine .ite hs.setGroup ?_
  split
  · exact hs
  · exact hs.setGroup

theorem State.MemOk.dropCode {s : State} {cl : Nat} (hs : s.MemOk) : (s.dropCode cl).MemOk :=
  hs.of_ms rfl

theorem icinvBody_memOk {s : State} {c : Cx} (hs : s.MemOk) : (icinvBody c s).MemOk :=
  .ite hs (.ite hs hs.dropCode)

/-! ### Full-empty words, atomics, barriers and fences -/

theorem State.MemOk.onFe {s : State} {gi new : Nat} {f : Group → Group} (hs : s.MemOk) : (s.onFe gi new f).MemOk := by
  unfold State.onFe
  split
  · exact hs
  · exact .ite hs.setGroup.unpin hs.setGroup

theorem State.MemOk.arriveAll {s : State} {c : Cx} {f : Group → Thread → Group} (hs : s.MemOk) :
    (s.arriveAll c f).MemOk :=
  hs.of_ms rfl

theorem feBody_memOk {s : State} {width : Cx → Nat} {hold : Cx → Thread → Hold} {w : Bool} {c : Cx} (hs : s.MemOk) :
    (feBody width hold w c s).MemOk :=
  .ite trivial (releaseFirst_memOk hs (fun _ hu => State.MemOk.onFe (State.MemOk.arriveAll (hu.of_ms rfl))))

theorem feinitBody_memOk {s : State} {c : Cx} (hs : s.MemOk) : (feinitBody c s).MemOk :=
  .ite trivial (releaseFirst_memOk hs (fun _ hu => hu.conflicts.onFe))

theorem evFeTimeout_memOk {s : State} {gi t : Nat} (hs : s.MemOk) : (evFeTimeout gi t s).MemOk := by
  unfold evFeTimeout
  split
  · exact hs
  · split
    · exact .ite hs.takeOne hs
    · exact hs

theorem waitaBody_memOk {c : Cx} {s : State} (hs : s.MemOk) : (waitaBody c s).MemOk := by
  unfold waitaBody
  refine gate_memOk hs fun hits u hu => State.MemOk.foldl hu.closeAt.setGroup fun v h hv => ?_
  have hr : (v.load h.pa (4 * c.n)).1.MemOk := hv.recall
  exact .ite (State.MemOk.setGroup (.ite hr (.ite hr.readLine hr.atHome)))
    (State.MemOk.setGroup (.ite hr (.ite hr.readLine hr.atHome)))

theorem evWaitaPoll_memOk {s : State} {gi t : Nat} (hs : s.MemOk) : (evWaitaPoll gi t s).MemOk := by
  unfold evWaitaPoll
  split
  · exact hs
  · split
    · exact .ite hs (.ite (hs.of_refusal rfl) (.ite (State.MemOk.setGroup (hs.recall.of_contents rfl rfl))
        (State.MemOk.setGroup (hs.recall.of_contents rfl rfl))))
    · exact hs

theorem State.MemOk.atomAt {s : State} {c : Cx} {j : Nat} {h : Hit} (hs : s.MemOk) : (s.atomAt c j h).1.MemOk := by
  unfold State.atomAt
  refine .ite_fst hs (.ite_fst ?_ (.ite_fst hs.note (State.MemOk.store (.ite hs.recall.readLine hs.recall))))
  split
  · exact .ite_fst hs hs.setFar
  · exact hs.askWrite

theorem atomBody_memOk {c : Cx} {s : State} (hs : s.MemOk) : (atomBody c s).MemOk := by
  unfold atomBody
  refine gate_memOk hs fun hits u hu => ?_
  split
  · exact hu.askFar
  · refine .ite hu.stalled (releaseFirst_memOk hu fun v hv => ?_)
    have hr := State.MemOk.foldl_fst (r := (v, [])) (l := hits.zipIdx) (f := fun (x : State × List Out) y =>
      let r := (if c.e.sc.toNat ≤ 1 then x.1.pinAt c y.1 else x.1).atomAt c y.2 y.1
      (r.1, x.2 ++ [r.2])) hv fun x y hx => State.MemOk.atomAt (.ite hx.pinAt hx)
    exact State.MemOk.setGroup (.ite (hr.foldl fun _ _ hw => hw.settleFar) hr)

/-- A contribution that lies in one line keeps the invariant. -/
theorem State.MemOk.addPartial {s : State} {cl vf arena pa op ty width v : Nat} (hs : s.MemOk)
    (hw : pa % 128 + width ≤ 128) : (s.addPartial cl vf arena pa op ty width v).MemOk := by
  refine ⟨hs.1, fun p hp => ?_⟩
  unfold State.addPartial at hp
  dsimp only [State.wakeLine] at hp
  split at hp
  · obtain ⟨q, hq, rfl⟩ := List.mem_map.mp hp
    have := hs.2 q hq
    split <;> exact this
  · rcases List.mem_append.mp hp with h | h
    · exact hs.2 p h
    · rw [List.mem_singleton.mp h]
      exact hw

theorem State.MemOk.stage {s : State} {cl vf group arena pa op ty width v : Nat} (hs : s.MemOk)
    (hw : pa % 128 + width ≤ 128) : (s.stage cl vf group arena pa op ty width v).MemOk := by
  unfold State.stage
  refine .ite hs.store ?_
  have hr : (if s.ms.partials.any fun p => p.differs cl pa op ty width then s.recall (pa / 128) else s).MemOk :=
    .ite hs.recall hs
  refine State.MemOk.listHolder (State.MemOk.addPartial ?_ hw)
  split
  · exact hr.recall
  · exact hr

theorem State.MemOk.redAt {s : State} {c : Cx} {h : Hit} (hs : s.MemOk) (hw : h.pa % 128 + c.atomBytes ≤ 128) :
    (s.redAt c h).MemOk := by
  unfold State.redAt
  refine .ite hs (.ite ?_ (hs.stage hw))
  split
  · exact hs.setFar
  · exact hs.askWrite

/-- What the checks let through is aligned (R134): its physical address is a multiple of its width. -/
theorem State.checkVa_ok_inLine {s : State} {c : Cx} {va width : Nat} {n : Need} {pa arena : Nat}
    (hw : width = 4 ∨ width = 8 ∨ width = 16) (h : s.checkVa c va width n = .ok pa arena) : pa % 128 + width ≤ 128 := by
  unfold State.checkVa at h
  dsimp only at h
  split at h
  · cases h
  · next ha =>
    split at h
    · cases h
    · split at h
      · next hx =>
        have hp := State.xlate_ok_offset hx
        split at h
        · cases h
        · split at h
          · cases h
          · cases h
            simp only [bne_iff_ne, ne_eq, not_not] at ha
            rcases hw with rfl | rfl | rfl <;> omega
      · cases h
      · split at h
        · split at h <;> cases h
        · cases h

theorem Cx.atomBytes_cases (c : Cx) : c.atomBytes = 4 ∨ c.atomBytes = 8 ∨ c.atomBytes = 16 := by
  unfold Cx.atomBytes Cx.n Ext.tyRegs regsOfType
  split
  · exact .inr (.inl rfl)
  · split
    · exact .inr (.inr rfl)
    · exact .inl rfl

theorem redBody_memOk {c : Cx} {s : State} (hs : s.MemOk) : (redBody c s).MemOk := by
  unfold redBody
  refine .ite trivial ?_
  split
  · exact hs.holdPage
  · refine .ite hs.stalled (releaseFirst_memOk hs fun u hu => ?_)
    refine List.foldlRecOn (motive := State.MemOk) _ _ hu fun v hv h hh => hv.redAt ?_
    obtain ⟨x, hx, he⟩ := List.mem_filterMap.mp hh
    obtain ⟨t, -, rfl⟩ := List.mem_map.mp hx
    dsimp only at he
    split at he
    · next pa arena hc =>
      obtain rfl := Option.some.inj he
      exact State.checkVa_ok_inLine c.atomBytes_cases hc
    · cases he

theorem atomsBody_memOk {s : State} {c : Cx} (hs : s.MemOk) : (atomsBody c s).MemOk :=
  .ite trivial hs.conflicts.setGroup

theorem State.MemOk.arrives {s : State} {c : Cx} {set : Option (Nat × Bool)} (hs : s.MemOk) : (s.arrives c set).MemOk :=
  hs.foldl (fun _ _ hu => hu.arriveAt)

theorem barArvBody_memOk {s : State} {c : Cx} (hs : s.MemOk) : (barArvBody c s).MemOk :=
  hs.arrives

theorem barWaitBody_memOk {s : State} {c : Cx} (hs : s.MemOk) : (barWaitBody c s).MemOk :=
  hs.arriveAll

theorem barSyncBody_memOk {s : State} {set : Cx → Option (Nat × Bool)} {c : Cx} (hs : s.MemOk) :
    (barSyncBody set c s).MemOk :=
  barWaitBody_memOk hs.arrives

theorem barexpBody_memOk {s : State} {c : Cx} (hs : s.MemOk) : (barexpBody c s).MemOk :=
  hs.onBars

theorem evSetPhaseComplete_memOk {s : State} {uid set : Nat} (hs : s.MemOk) : (evSetPhaseComplete uid set s).MemOk := by
  unfold evSetPhaseComplete
  split
  · exact hs
  · exact .ite hs (State.MemOk.setTask (hs.foldl (fun _ _ hu => .ite hu.onBars.onFe hu)))

theorem State.MemOk.fenceRecalls {s : State} (hs : s.MemOk) : s.fenceRecalls.MemOk :=
  hs.foldl (fun _ _ hu => hu.recall)

theorem State.MemOk.sweepFences {s : State} (hs : s.MemOk) : s.sweepFences.MemOk :=
  hs.fenceRecalls.of_ms rfl

theorem fenceBody_memOk {s : State} {c : Cx} (hs : s.MemOk) : (fenceBody c s).MemOk :=
  .ite hs (State.MemOk.setGroup (State.MemOk.foldl (.ite hs.unpin hs) (fun _ _ hu => hu.recall)))

/-! ### Arenas -/

theorem tableBody_memOk {s : State} {f : Thread → VF → VF × Nat} {n : Nat} {c : Cx} (hs : s.MemOk) :
    (tableBody f n c s).MemOk :=
  .ite trivial hs.setVf.setGroup

theorem arnewBody_memOk {s : State} {c : Cx} (hs : s.MemOk) : (arnewBody c s).MemOk :=
  tableBody_memOk hs

theorem aallocBody_memOk {s : State} {c : Cx} (hs : s.MemOk) : (aallocBody c s).MemOk :=
  tableBody_memOk hs

theorem arqryBody_memOk {s : State} {c : Cx} (hs : s.MemOk) : (arqryBody c s).MemOk :=
  tableBody_memOk hs

theorem State.MemOk.released {s : State} {c : Cx} (hs : s.MemOk) : (s.released c).1.MemOk :=
  hs.unpin

theorem changeBody_memOk {s : State} {drop : Bool} {c : Cx} (hs : s.MemOk) : (changeBody drop c s).MemOk := by
  unfold changeBody
  split
  · exact .ite hs hs
  · exact .ite trivial (.ite trivial (.ite hs (.ite hs.released.stalled
      (.ite (State.MemOk.setSheaf (hs.released.of_ms rfl)) (hs.released.of_ms rfl)))))

/-- What a drop point writes back are bytes, and the partials that it leaves are some of those there were (R292). -/
theorem State.MemOk.discard {s : State} {vf : Nat} {idxs : List Nat} (hs : s.MemOk) : (s.discard vf idxs).MemOk := by
  unfold State.discard
  refine State.MemOk.foldl (State.MemOk.foldl (State.MemOk.dropTags ?_) fun _ _ hu => hu.noteError) fun u x hu =>
    .ite hu hu.store
  refine hs.of_filter ?_ rfl
  exact List.foldlRecOn (motive := fun m => Memory.wf m = true) _ _ hs.1 fun m hm d _ => Memory.writeN_wf _ _ hm

theorem State.MemOk.complete {s : State} {vf : Nat} {idxs : List Nat} (hs : s.MemOk) : (s.complete vf idxs).MemOk :=
  State.MemOk.foldl (hs.endPins.foldl (fun _ _ hu => hu.recall)) (fun _ _ hu => hu.pushAll)

theorem evArenaChangePoint_memOk {s : State} {vf i : Nat} (hs : s.MemOk) : (evArenaChangePoint vf i s).MemOk := by
  unfold evArenaChangePoint
  dsimp only
  split
  · exact hs
  · exact .ite hs (.ite (State.MemOk.discard (hs.of_ms rfl)) hs.complete.setVf)

theorem evSealPoint_memOk {s : State} {vf idx : Nat} (hs : s.MemOk) : (evSealPoint vf idx s).MemOk := by
  unfold evSealPoint
  dsimp only
  split
  · exact hs
  · exact .ite hs (.ite hs.complete.setVf hs.complete.setVf)

theorem evSweepEnd_memOk {s : State} {vf idx : Nat} (hs : s.MemOk) : (evSweepEnd vf idx s).MemOk := by
  unfold evSweepEnd
  dsimp only
  split
  · exact hs
  · exact .ite hs hs.setVf.post

theorem State.MemOk.dropArena {s : State} {vf h : Nat} (hs : s.MemOk) : (s.dropArena vf h).MemOk := by
  unfold State.dropArena
  split
  · exact hs.of_ms rfl
  · exact hs.note

/-! ### The trace -/

theorem State.MemOk.tracePut {s : State} {vf : Nat} {bytes : List Byte} (hs : s.MemOk) : (s.tracePut vf bytes).MemOk :=
  .ite hs.setVf hs.devWrite.setVf

theorem State.MemOk.trace {s : State} {vf : Nat} {engine : Option Nat} {r : TraceRec} (hs : s.MemOk) :
    (s.trace vf engine r).MemOk :=
  .ite hs (State.MemOk.tracePut (.ite hs.tracePut.setVf hs))

/-! ### The copy engine -/

theorem State.MemOk.spotRead {s : State} {k : Copy} {n : Nat} {a : Spot} (hs : s.MemOk) :
    (s.spotRead k n a).1.MemOk := by
  unfold State.spotRead
  split
  · exact hs.recall.engineLine
  · exact hs
  · exact hs
  · exact hs
  · exact hs

theorem State.MemOk.spotWrite {s : State} {k : Copy} {unit : Nat} {stamp : Option Nat} {bytes : List Byte} {a : Spot}
    (hs : s.MemOk) :
    (s.spotWrite k unit stamp bytes a).MemOk := by
  unfold State.spotWrite
  split
  · exact hs.store
  · exact hs.setGroup
  · exact hs.askWrite
  · split
    · exact hs.setFar
    · exact hs
  · exact hs

theorem State.MemOk.copyCode {s : State} {k : Copy} {x : Nat} (hs : s.MemOk) : (s.copyCode k x).1.MemOk :=
  hs.spotRead

theorem State.MemOk.copyCodes {s : State} {k : Copy} {xs : List Nat} (hs : s.MemOk) : (s.copyCodes k xs).1.MemOk :=
  hs.foldl_fst (fun _ _ hu => hu.copyCode)

theorem State.MemOk.copyElem {s : State} {k : Copy} {p : CPart} {gi : Option Nat} {base : Nat} {d : Option Desc}
    {cs : List (Nat × Bool)} {x i : Nat} (hs : s.MemOk) :
    (s.copyElem k p gi base d cs x i).MemOk := by
  unfold State.copyElem
  refine .ite (State.MemOk.spotWrite ?_) ?_
  · split
    · exact hs.contribute
    · exact .ite hs.count hs
  · split
    · refine .ite ?_ (State.MemOk.spotWrite ?_)
      · split
        · exact hs.contribute
        · exact .ite hs.count hs
      · split
        · exact hs.contribute
        · exact .ite hs.count hs
    · refine State.MemOk.spotWrite (State.MemOk.spotRead ?_)
      split
      · exact hs.contribute
      · exact .ite hs.count hs

theorem State.MemOk.setCopy {s : State} {id : Nat} {f : Copy → Copy} (hs : s.MemOk) : (s.setCopy id f).MemOk :=
  hs.of_ms rfl

theorem State.MemOk.setPart {s : State} {id j : Nat} {f : CPart → CPart} (hs : s.MemOk) : (s.setPart id j f).MemOk :=
  hs.of_ms rfl

theorem State.MemOk.copyScale {s : State} {k : Copy} (hs : s.MemOk) : (s.copyScale k).1.MemOk := by
  unfold State.copyScale
  split
  · exact hs
  · refine .ite_fst hs ?_
    split
    · exact .ite_fst hs (.ite_fst (.ite hs.pushAll hs)
        (State.MemOk.engineLine (State.MemOk.recall (.ite hs.pushAll hs))))
    · exact hs
    · exact hs
    · exact hs
    · split <;> exact hs
    · exact hs
    · exact hs

theorem State.MemOk.partWaits {s : State} {k : Copy} {j : Nat} {a : Look} (hs : s.MemOk) :
    (s.partWaits k j a).MemOk := by
  unfold State.partWaits
  split
  · exact hs.miss.setPart
  · exact State.MemOk.setPart (State.MemOk.count (hs.of_refusal rfl))
  · exact hs.ask
  · exact hs.setPart

theorem State.MemOk.reserve {s : State} {k : Copy} {j gi : Nat} (hs : s.MemOk) : (s.reserve k j gi).MemOk := by
  unfold State.reserve
  dsimp only
  split
  · exact hs.setPart
  · exact .ite hs.setGroup.setPart hs.setPart

theorem State.MemOk.reserveFirst {s : State} {k : Copy} {j : Nat} {gi : Option Nat} (hs : s.MemOk) :
    (s.reserveFirst k j gi).MemOk := by
  unfold State.reserveFirst
  split
  · exact hs.reserve
  · exact hs

theorem State.MemOk.startPart {s : State} {k : Copy} {j : Nat} {gi : Option Nat} (hs : s.MemOk) :
    (s.startPart k j gi).MemOk := by
  unfold State.startPart
  have h := hs.reserveFirst (k := k) (j := j) (gi := gi)
  refine .ite h (.ite h.partWaits ?_)
  have hc : (if k.conv = 2 && k.sigma.isNone then
      (match (s.reserveFirst k j gi).copyScale k with
        | (s, .ok t) => (s, Except.ok (some t))
        | (s, .error e) => (s, Except.error e))
    else (s.reserveFirst k j gi, Except.ok k.sigma)).1.MemOk := by
    refine .ite_fst ?_ h
    split
    · next hr => exact .of_pair hr h.copyScale
    · next hr => exact .of_pair hr h.copyScale
  dsimp only
  split
  · exact hc.partWaits
  · exact hc.setCopy.setPart

theorem State.MemOk.readUnit {s : State} {k : Copy} {u : Nat} (hs : s.MemOk) : (s.readUnit k u).1.MemOk := by
  unfold State.readUnit
  split
  · exact hs
  · split
    · exact .ite hs.copyCodes.setCopy hs.copyCodes
    · exact hs

theorem State.MemOk.writeUnit {s : State} {k : Copy} {j : Nat} {p : CPart} {gi : Option Nat} {d : Option Desc}
    {cs : List (Nat × Bool)} {st : Option Nat} (hs : s.MemOk) :
    (s.writeUnit k j p gi d cs st).MemOk := by
  unfold State.writeUnit
  dsimp only
  split
  · split
    · exact State.MemOk.setPart (State.MemOk.foldl (State.MemOk.setPart (hs.of_contents rfl rfl))
        (fun _ _ hu => hu.copyElem))
    · exact State.MemOk.count (State.MemOk.setPart (State.MemOk.setCopy
        (State.MemOk.foldl (State.MemOk.setPart (hs.of_contents rfl rfl)) (fun _ _ hu => hu.copyElem))))
  · exact hs.partWaits

theorem State.MemOk.serveUnit {s : State} {k : Copy} {j : Nat} {p : CPart} {gi : Option Nat} (hs : s.MemOk) :
    (s.serveUnit k j p gi).MemOk := by
  unfold State.serveUnit
  refine .ite hs.setPart.partWaits ?_
  split
  · next hr => exact (State.MemOk.of_pair hr hs.setPart.readUnit).partWaits
  · next hr => exact (State.MemOk.of_pair hr hs.setPart.readUnit).writeUnit

theorem State.MemOk.answerOut {s : State} {tag x : Nat} (hs : s.MemOk) : (s.answerOut tag x).MemOk :=
  hs.of_ms rfl

theorem State.MemOk.endPart {s : State} {k : Copy} {p : CPart} (hs : s.MemOk) : (s.endPart k p).MemOk := by
  unfold State.endPart
  split
  · exact hs
  · split
    · split
      · split
        · split
          · exact hs.setGroup
          · exact hs
        · split
          · exact hs.subtract.setGroup
          · exact hs.subtract
      · split
        · exact hs.setGroup
        · exact hs
    · split
      · split
        · split
          · split
            · exact hs.setGroup
            · exact hs
          · split
            · exact hs.subtract.setGroup
            · exact hs.subtract
        · split
          · exact hs.setGroup
          · exact hs
      · exact hs

theorem State.MemOk.endParts {s : State} {id : Nat} (hs : s.MemOk) : (s.endParts id).MemOk := by
  unfold State.endParts
  split
  · exact hs
  · exact .ite hs (State.MemOk.setCopy (hs.foldl (fun _ _ hu => hu.endPart)))

theorem State.MemOk.endAll {s : State} {cl : Nat} (hs : s.MemOk) : (s.endAll cl).MemOk :=
  hs.foldl (fun _ _ hu => hu.endParts)

theorem State.MemOk.startBlock {s : State} {k : Copy} {a : Nat} (hs : s.MemOk) : (s.startBlock k a).MemOk := by
  unfold State.startBlock
  split
  · exact hs.partWaits.setCopy
  · exact hs.partWaits
  · exact hs.devRecall.setCopy

theorem State.MemOk.servePart {s : State} {k : Copy} {j : Nat} {p : CPart} (hs : s.MemOk) :
    (s.servePart k j p).MemOk := by
  unfold State.servePart
  split
  · exact hs.startBlock
  · split
    · exact hs.setPart
    · exact .ite hs.serveUnit hs.startPart
    · exact .ite hs.serveUnit hs.startPart

theorem evCopyUnitService_memOk {s : State} {cl : Nat} (hs : s.MemOk) : (evCopyUnitService cl s).MemOk := by
  unfold evCopyUnitService
  dsimp only
  split
  · exact hs.endAll
  · split
    · exact .ite hs.endAll.setCopy hs.endAll
    · exact State.MemOk.endParts (State.MemOk.servePart (.ite hs.endAll.setCopy hs.endAll))

theorem State.MemOk.writeToken {s : State} {k : Copy} (hs : s.MemOk) : (s.writeToken k).MemOk := by
  unfold State.writeToken
  split
  · exact .ite hs.note (.ite (.ite hs.note hs.ask) (.ite hs.note hs.devWrite))
  · exact hs.note

theorem State.MemOk.traceCopy {s : State} {k : Copy} (hs : s.MemOk) : (s.traceCopy k).MemOk := by
  unfold State.traceCopy
  split
  · split
    · exact hs.trace
    · exact hs
  · exact hs.trace.of_ms rfl

theorem evCopyComplete_memOk {cl i : Nat} {s : State} (hs : s.MemOk) : (evCopyComplete cl i s).MemOk := by
  unfold evCopyComplete
  split
  · exact hs
  · next k _ =>
    refine .ite hs (.ite hs.miss.setCopy ?_)
    have h := hs.foldl (l := k.parts.filter fun p => !p.ended) (f := fun s p => s.endPart k p) fun _ _ hu => hu.endPart
    exact State.MemOk.sweepFences (State.MemOk.traceCopy (.ite (State.MemOk.writeToken (h.of_ms rfl))
      (State.MemOk.answerOut (h.of_ms rfl))))

theorem State.MemOk.enterCopy {s : State} {c : Cx} {parts : List CPart} {t : Thread} (hs : s.MemOk) :
    (s.enterCopy c parts t).MemOk :=
  .ite (State.MemOk.reserve (State.MemOk.setGroup (hs.of_ms rfl))) (State.MemOk.setGroup (hs.of_ms rfl))

theorem copyBody_memOk {s : State} {parts : Thread → List CPart} {c : Cx} (hs : s.MemOk) : (copyBody parts c s).MemOk :=
  inTurn_memOk hs (fun _ _ hu => hu.enterCopy)

theorem evCopyApertureStart_memOk {s : State} {die chan : Nat} {data : BitVec 64} (hs : s.MemOk) :
    (evCopyApertureStart die chan data s).MemOk :=
  .ite hs.note (.ite hs (hs.of_ms rfl))

/-! ### Gleaning -/

theorem State.MemOk.startGlean {s : State} {gi : Nat} {k : Key} {gl : Glean} {solo : Bool} (hs : s.MemOk) :
    (s.startGlean gi k gl solo).1.MemOk := by
  unfold State.startGlean
  split
  · exact hs
  · exact .ite_fst hs.setGroup (State.MemOk.setGroup (hs.of_ms rfl))

theorem gleanBody_memOk {s : State} {c : Cx} (hs : s.MemOk) : (gleanBody c s).MemOk :=
  hs.closeAt.setGroup.foldl (fun _ _ hu => .ite (State.MemOk.startGlean (hu.of_ms rfl))
    (State.MemOk.setGroup (State.MemOk.startGlean (hu.of_ms rfl))))

theorem State.MemOk.releaseHelper {s : State} {gi : Nat} {k : Key} (hs : s.MemOk) : (s.releaseHelper gi k).MemOk := by
  unfold State.releaseHelper
  split
  · exact hs
  · split
    · exact hs
    · exact hs.giveBack.setGroup

theorem State.MemOk.afterRelease {s : State} {gi : Nat} {k : Key} (hs : s.MemOk) : (s.afterRelease gi k).MemOk :=
  hs.of_ms rfl

theorem State.MemOk.nextit {s : State} {c : Cx} {t : Thread} (hs : s.MemOk) : (s.nextit c t).MemOk := by
  unfold State.nextit
  split
  · exact hs
  · split
    · exact hs
    · refine .ite (.ite hs.setGroup.releaseHelper.afterRelease hs.setGroup) ?_
      split <;> exact hs.setGroup

theorem nextitBody_memOk {s : State} {c : Cx} (hs : s.MemOk) : (nextitBody c s).MemOk :=
  hs.foldl (fun _ _ hu => hu.nextit)

theorem gaddBody_memOk {s : State} {c : Cx} (hs : s.MemOk) : (gaddBody c s).MemOk :=
  hs.setGroup

theorem State.MemOk.glend {s : State} {c : Cx} {t : Thread} (hs : s.MemOk) : (s.glend c t).MemOk := by
  unfold State.glend
  split
  · exact hs
  · split
    · exact hs
    · exact .ite hs.setGroup.releaseHelper.afterRelease hs.setGroup.setGroup.setGroup

theorem glendBody_memOk {s : State} {c : Cx} (hs : s.MemOk) : (glendBody c s).MemOk :=
  hs.closeAt.setGroup.foldl (fun _ _ hu => hu.glend)

theorem State.MemOk.abandon {s : State} {gi : Nat} {k : Key} (hs : s.MemOk) : (s.abandon gi k).MemOk := by
  unfold State.abandon
  split
  · exact hs
  · split
    · exact hs
    · exact .ite hs.setGroup.setGroup hs.setGroup.releaseHelper.afterRelease

theorem evHelperAbandon_memOk {s : State} {gi id part : Nat} (hs : s.MemOk) : (evHelperAbandon gi id part s).MemOk := by
  unfold evHelperAbandon
  split
  · exact hs
  · split
    · exact hs
    · split
      · exact .ite hs.abandon hs
      · exact hs

/-! ### The matrix engine -/

theorem State.MemOk.mxEnter {s : State} {fill : Bool} {k : MxCmd} (hs : s.MemOk) : (s.mxEnter fill k).MemOk :=
  .ite (hs.of_ms rfl) (hs.of_ms rfl)

theorem enqueue_memOk {fill : Bool} {draws : Nat} {cmd : Thread → Nat → MxCmd} {c : Cx} {s : State} (hs : s.MemOk) :
    (enqueue fill draws cmd c s).MemOk := inTurn_memOk hs fun _ _ hu => hu.mxEnter.setGroup

theorem Cx.engineGate_memOk {c : Cx} {s : State} {n : Need} {as : List Nat} {k : Act} (hs : s.MemOk) (hk : k.MemOk) :
    (c.engineGate s n as k).MemOk := by
  unfold Cx.engineGate
  refine .ite hs ?_
  split
  · exact hk
  · trivial
  · exact hs.holdPage

theorem wbldBody_memOk {s : State} {c : Cx} (hs : s.MemOk) : (wbldBody c s).MemOk :=
  .ite hs (.ite trivial (.ite trivial (.ite (.ite trivial (enqueue_memOk hs))
    (Cx.engineGate_memOk hs (enqueue_memOk hs)))))

theorem mmaBody_memOk {s : State} {c : Cx} (hs : s.MemOk) : (mmaBody c s).MemOk := by
  unfold mmaBody
  refine .ite hs (.ite hs ?_)
  split
  · exact trivial
  · exact trivial
  · exact .ite trivial (.ite trivial (.ite trivial (enqueue_memOk hs)))

theorem azeroBody_memOk {c : Cx} {s : State} (hs : s.MemOk) : (azeroBody c s).MemOk := by
  unfold azeroBody
  exact enqueue_memOk hs

theorem adrainBody_memOk {s : State} {c : Cx} (hs : s.MemOk) : (adrainBody c s).MemOk := by
  unfold adrainBody
  refine .ite hs (.ite hs ?_)
  split
  · exact trivial
  · refine .ite ?_ (.ite trivial (.ite ?_ (Cx.engineGate_memOk hs (enqueue_memOk hs))))
    · split
      · exact trivial
      · exact Cx.engineGate_memOk hs (enqueue_memOk hs)
    · split
      · exact trivial
      · exact enqueue_memOk hs

theorem aaddBody_memOk {s : State} {c : Cx} (hs : s.MemOk) : (aaddBody c s).MemOk := by
  unfold aaddBody
  refine .ite hs (.ite hs ?_)
  split
  · exact trivial
  · exact trivial
  · exact .ite (enqueue_memOk hs) (.ite trivial (.ite (.ite trivial (enqueue_memOk hs))
      (Cx.engineGate_memOk hs (enqueue_memOk hs))))

theorem State.MemOk.mxEnd {s : State} {k : MxCmd} {fill : Bool} (hs : s.MemOk) : (s.mxEnd k fill).MemOk := by
  unfold State.mxEnd
  refine State.MemOk.sweepFences (State.MemOk.count ?_)
  split
  · exact State.MemOk.trace (hs.of_ms rfl)
  · exact hs.of_ms rfl

theorem areadBody_memOk {s : State} {c : Cx} (hs : s.MemOk) : (areadBody c s).MemOk := by
  unfold areadBody
  refine .ite hs ?_
  split
  · exact .ite hs.mxEnter.setSheaf hs
  · refine .ite hs ?_
    dsimp only
    split
    · exact trivial
    · exact .ite trivial (lanes_memOk hs.mxEnd)

theorem State.MemOk.setMx {s : State} {id : Nat} {f : MxCmd → MxCmd} (hs : s.MemOk) : (s.setMx id f).MemOk :=
  hs.of_ms rfl

theorem State.MemOk.engineLine128 {s : State} {vf : Nat} {k : MxCmd} {a : Nat} (hs : s.MemOk) :
    (s.engineLine128 vf k a).1.MemOk := by
  unfold State.engineLine128
  split
  · refine .ite_fst hs (.ite_fst ?_ (.ite_fst hs hs.recall.engineLine))
    split <;> exact hs
  · exact hs

theorem State.MemOk.engineRead {s : State} {vf : Nat} {k : MxCmd} {a n : Nat} (hs : s.MemOk) :
    (s.engineRead vf k a n).1.MemOk :=
  hs.foldl_fst (fun _ _ hu => hu.engineLine128)

theorem State.MemOk.wbldDone {s : State} {gi : Nat} {g : Group} {k : MxCmd} (hs : s.MemOk) :
    (s.wbldDone gi g k).MemOk :=
  State.MemOk.setGroup (.ite_fst hs hs.engineRead)

theorem State.MemOk.markTile {s : State} {gi : Nat} {k : MxCmd} {cls : Nat} (hs : s.MemOk) :
    (s.markTile gi k cls).MemOk :=
  hs.of_ms rfl

theorem State.MemOk.mmaDone {s : State} {gi : Nat} {g : Group} {k : MxCmd} (hs : s.MemOk) : (s.mmaDone gi g k).MemOk :=
  .ite (State.MemOk.subtract (.ite hs.setGroup (.ite hs.markTile hs.setGroup)))
    (.ite hs.setGroup (.ite hs.markTile hs.setGroup))

theorem State.MemOk.azeroDone {s : State} {gi : Nat} {k : MxCmd} (hs : s.MemOk) : (s.azeroDone gi k).MemOk :=
  hs.of_ms rfl

theorem State.MemOk.aaddDone {s : State} {gi : Nat} {g : Group} {k : MxCmd} (hs : s.MemOk) :
    (s.aaddDone gi g k).MemOk := by
  unfold State.aaddDone
  refine .ite hs.markTile ?_
  split
  · exact .ite hs.markTile hs.setGroup
  · dsimp only
    have h : (if k.e.lo.toNat / 2 = 2 then (s, g.engineSp k.base 16384) else s.engineRead g.vf k k.base 16384).1.MemOk
      :=
      .ite_fst hs hs.engineRead
    split
    · exact h.markTile
    · exact h.setGroup

theorem State.MemOk.engineWrite {s : State} {vf : Nat} {k : MxCmd} {a : Nat} {bytes : List Byte} (hs : s.MemOk) :
    (s.engineWrite vf k a bytes).1.MemOk := by
  unfold State.engineWrite
  split
  · refine .ite_fst hs (.ite_fst hs (.ite_fst ?_ hs.store))
    split
    · exact hs.setFar
    · exact hs.askWrite
  · exact hs

theorem State.MemOk.drainOld {s : State} {gi : Nat} {g : Group} {k : MxCmd} {a n : Nat} (hs : s.MemOk) :
    (s.drainOld gi g k a n).1.MemOk :=
  .ite_fst hs hs.engineRead

theorem drainPut_memOk {gi : Nat} {g : Group} {k : MxCmd} {a : Nat} {bytes : List Byte} {x : Drain} (hx : x.1.MemOk) :
    (drainPut gi g k a bytes x).1.MemOk := .ite_fst hx.setGroup hx.engineWrite

theorem drainElem_memOk {gi : Nat} {g : Group} {k : MxCmd} {d : Option Desc} {t : Tile} {x : Drain} {n : Nat}
    (hx : x.1.MemOk) : (drainElem gi g k d t x n).1.MemOk := by
  unfold drainElem
  split
  · exact hx
  · dsimp only
    refine .ite_fst (drainPut_memOk ?_) (.ite_fst (drainPut_memOk ?_) ?_)
    all_goals
      dsimp only
      split
      · exact State.MemOk.contribute (.ite_fst hx.drainOld hx)
      · exact .ite (State.MemOk.count (.ite_fst hx.drainOld hx)) (.ite_fst hx.drainOld hx)

theorem State.MemOk.adrainDone {s : State} {gi : Nat} {g : Group} {k : MxCmd} (hs : s.MemOk) :
    (s.adrainDone gi g k).MemOk := by
  unfold State.adrainDone
  generalize List.range 1024 = cells
  have h := State.MemOk.foldl_fst (r := (s, false)) (l := cells)
    (f := drainElem gi g k k.drainTo (g.tile k.e.op0.index)) hs fun _ _ hu => drainElem_memOk hu
  exact .ite hs.markTile (.ite h.markTile h)

theorem State.MemOk.adrainBytes {s : State} {gi : Nat} {g : Group} {k : MxCmd} (hs : s.MemOk) :
    (s.adrainBytes gi g k).MemOk :=
  .ite hs.subtract hs

theorem State.MemOk.mxAsk {s : State} {vf : Nat} {k : MxCmd} {lines : List Nat} (hs : s.MemOk) :
    (s.mxAsk vf k lines).MemOk :=
  hs.foldl (fun _ _ hu => .ite hu hu.ask)

theorem State.MemOk.mxEffect {s : State} {gi : Nat} {g : Group} {k : MxCmd} (hs : s.MemOk) :
    (s.mxEffect gi g k).MemOk := by
  unfold State.mxEffect
  split
  · exact hs.wbldDone
  · exact hs.mmaDone
  · exact hs.azeroDone
  · exact hs.adrainDone
  · exact hs.aaddDone

theorem State.MemOk.mxServe {s : State} {gi : Nat} {g : Group} {k : MxCmd} {fill : Bool} (hs : s.MemOk) :
    (s.mxServe gi g k fill).MemOk := by
  unfold State.mxServe
  refine .ite (.ite hs hs.adrainBytes.mxEnd) (.ite hs.mxAsk ?_)
  split
  · exact .ite hs (State.MemOk.count (hs.of_refusal rfl))
  · exact .ite (State.MemOk.mxEnd (State.MemOk.mxEffect (hs.of_contents rfl rfl)))
      (.ite (State.MemOk.setMx (State.MemOk.mxEffect (hs.of_contents rfl rfl)))
      (State.MemOk.mxEnd (State.MemOk.adrainBytes (State.MemOk.mxEffect (hs.of_contents rfl rfl)))))

theorem evMatrixCommandComplete_memOk {s : State} {cl : Nat} {fill : Bool} (hs : s.MemOk) :
    (evMatrixCommandComplete cl fill s).MemOk := by
  unfold evMatrixCommandComplete
  split
  · exact hs
  · refine .ite (.ite (hs.of_ms rfl) hs) (.ite hs ?_)
    split
    · exact hs.mxServe
    · exact hs.mxEnd

/-! ### Row-collectives and results -/

theorem State.MemOk.standBack {s : State} {gi : Nat} {k : Key} (hs : s.MemOk) : (s.standBack gi k).MemOk :=
  hs.of_ms rfl

theorem State.MemOk.finishSheaves {fuel : Nat} {s : State} {gi : Nat} (hs : s.MemOk) :
    (State.finishSheaves fuel s gi).MemOk := by
  induction fuel generalizing s with
  | zero => exact hs
  | succ fuel ih =>
    unfold State.finishSheaves
    split
    · exact hs
    · split
      · exact hs
      · split
        · split
          · refine ih ?_
            split
            · exact hs.advance.standBack
            · exact hs.advance
          · exact hs
        · exact hs

theorem State.MemOk.finishAll {s : State} {gi : Nat} (hs : s.MemOk) : (s.finishAll gi).MemOk := by
  unfold State.finishAll
  split
  · exact hs.finishSheaves
  · exact hs

theorem evRowCollectiveAct_memOk {s : State} {gi row : Nat} (hs : s.MemOk) : (evRowCollectiveAct gi row s).MemOk := by
  unfold evRowCollectiveAct
  split
  · exact hs
  · split
    · exact hs
    · split
      · exact hs
      · split
        · exact hs
        · exact hs.setGroup.takeAll.finishAll

theorem evRowStall_memOk {s : State} {gi row : Nat} (hs : s.MemOk) : (evRowStall gi row s).MemOk := by
  unfold evRowStall
  split
  · exact hs
  · split
    · exact hs
    · split
      · exact hs
      · exact .ite hs hs.setGroup.takeAll.finishAll

theorem rowBody_memOk {s : State} {c : Cx} (hs : s.MemOk) : (rowBody c s).MemOk :=
  .ite (.ite hs.setGroup hs.setGroup) hs.setGroup.countIssue.setSheaf.takeAll.mark

/-! ### Arrivals and draws -/

theorem State.MemOk.arriveOut {s : State} {gi i : Nat} {flagged : Bool} (hs : s.MemOk) :
    (s.arriveOut gi i flagged).MemOk := by
  unfold State.arriveOut
  split
  · exact hs
  · split
    · exact hs
    · exact .ite hs hs.setGroup

theorem evFlagCompletion_memOk {s : State} {gi i : Nat} (hs : s.MemOk) : (evFlagCompletion gi i s).MemOk :=
  hs.arriveOut

theorem evScoreboardResult_memOk {s : State} {gi i : Nat} (hs : s.MemOk) : (evScoreboardResult gi i s).MemOk :=
  hs.arriveOut

theorem State.MemOk.resumeSheaf {s : State} {gi : Nat} {k : Key} (hs : s.MemOk) : (s.resumeSheaf gi k).MemOk :=
  hs.of_ms rfl

theorem State.MemOk.drawBin {s : State} {d : Draw} (hs : s.MemOk) : (s.drawBin d).MemOk := by
  unfold State.drawBin
  split
  · exact hs
  · exact hs.setGroup.count

theorem evSheafDraw_memOk {s : State} {cl slot : Nat} (hs : s.MemOk) : (evSheafDraw cl slot s).MemOk := by
  unfold evSheafDraw
  refine .ite hs ?_
  split
  · exact hs.resumeSheaf
  · refine .ite hs ?_
    split
    · exact hs
    · split
      · exact hs.resumeSheaf
      · exact hs.drawBin

theorem evBinAgeExpiry_memOk {s : State} {gi : Nat} {pc : Addr} (hs : s.MemOk) : (evBinAgeExpiry gi pc s).MemOk := by
  unfold evBinAgeExpiry
  split
  · exact hs
  · exact .ite hs hs.setGroup

theorem evYieldDelayExpiry_memOk {s : State} {gi : Nat} {pc : Addr} (hs : s.MemOk) :
    (evYieldDelayExpiry gi pc s).MemOk := by
  unfold evYieldDelayExpiry
  split
  · exact hs
  · exact .ite hs.setGroup hs

theorem evPinTimeout_memOk {s : State} {line : Nat} (hs : s.MemOk) : (evPinTimeout line s).MemOk :=
  hs.endPins

/-! ### Halting, saving and restoring -/

theorem State.MemOk.haltWith {s : State} {gi : Nat} {stop : Stop} (hs : s.MemOk) : (s.haltWith gi stop).MemOk := by
  unfold State.haltWith
  split
  · exact hs
  · exact State.MemOk.setGroup (hs.foldl (fun _ _ hu => hu.setGroup))

theorem State.MemOk.restGleans {s : State} {gi : Nat} (hs : s.MemOk) : (s.restGleans gi).MemOk := by
  unfold State.restGleans
  split
  · exact hs
  · exact State.MemOk.foldl (hs.foldl (fun _ _ hu => hu.abandon)) (fun _ _ hu => hu.abandon)

theorem State.MemOk.settleHalt {s : State} {gi : Nat} (hs : s.MemOk) : (s.settleHalt gi).MemOk := by
  unfold State.settleHalt
  split
  · exact hs
  · split
    · refine .ite hs ?_
      dsimp only
      split
      · exact hs.restGleans.setGroup.devWrite
      · exact hs.restGleans.setGroup
    · exact hs

theorem State.MemOk.settleHalts {s : State} (hs : s.MemOk) : s.settleHalts.MemOk := by
  unfold State.settleHalts
  refine hs.foldl fun u x hu => ?_
  split
  · exact hu.settleHalt
  · exact hu

theorem State.MemOk.haltGroup {s : State} {gi : Nat} (hs : s.MemOk) : (s.haltGroup gi).MemOk := by
  unfold State.haltGroup
  split
  · exact hs
  · exact hs.haltWith.settleHalt
  · exact hs

theorem State.MemOk.haltAll {s : State} {p : Group → Bool} (hs : s.MemOk) : (s.haltAll p).MemOk :=
  hs.foldl (fun _ _ hu => hu.haltGroup)

theorem State.MemOk.writeFrame {s : State} {t : Task} {x : Saved} (hs : s.MemOk) : (s.writeFrame t x).MemOk :=
  hs.devWrite.devWrite.devWrite.devWrite.devWrite.devWrite.devWrite

theorem evSaveFrame_memOk {s : State} {gi : Nat} (hs : s.MemOk) : (evSaveFrame gi s).MemOk := by
  unfold evSaveFrame
  split
  · exact hs
  · refine .ite hs ?_
    dsimp only
    split
    · exact .ite hs.unpin.dropFills (State.MemOk.writeFrame (State.MemOk.setTask (hs.unpin.dropFills.of_ms rfl)))
    · exact hs.unpin.dropFills

theorem evResultDelivery_memOk {s : State} {i j : Nat} (hs : s.MemOk) : (evResultDelivery i j s).MemOk := by
  unfold evResultDelivery
  split
  · exact hs
  · split
    · exact hs
    · split
      · exact hs
      · exact hs.setTask.writeFrame

theorem State.MemOk.rejoin {s : State} {gi : Nat} {gl : Glean} (hs : s.MemOk) : (s.rejoin gi gl).MemOk :=
  hs.setGroup.startGlean.setGroup

theorem State.MemOk.restoreGroup {s : State} {i j cl s0 : Nat} (hs : s.MemOk) : (s.restoreGroup i j cl s0).MemOk := by
  unfold State.restoreGroup
  split
  · exact hs
  · split
    · exact hs
    · exact State.MemOk.fitContexts (State.MemOk.retryArrivals
        (State.MemOk.flushStx (State.MemOk.onFe (State.MemOk.foldl (State.MemOk.setTask (hs.takeWays.of_ms rfl))
        (fun _ _ hu => hu.rejoin)))))

theorem evWorldSwitch_memOk {s : State} {part vf : Nat} (hs : s.MemOk) : (evWorldSwitch part vf s).MemOk := by
  unfold evWorldSwitch
  refine .ite hs ?_
  split
  · exact .ite hs hs.setVf.haltAll
  · refine .ite hs ?_
    split <;> exact hs.of_ms rfl

theorem evCounterLowRead_memOk {s : State} {hart vf cl i : Nat} (hs : s.MemOk) :
    (evCounterLowRead hart vf cl i s).MemOk :=
  hs.of_ms rfl

theorem evCounterHighRead_memOk {s : State} {hart vf cl i : Nat} (hs : s.MemOk) :
    (evCounterHighRead hart vf cl i s).MemOk := by
  unfold evCounterHighRead
  split <;> exact hs.of_ms rfl

theorem evDebugHalt_memOk {s : State} {gi : Nat} (hs : s.MemOk) : (evDebugHalt gi s).MemOk := by
  unfold evDebugHalt
  split
  · exact hs
  · exact .ite hs.haltWith hs

theorem evDebuggerHold_memOk {s : State} {gi : Nat} {on : Bool} (hs : s.MemOk) : (evDebuggerHold gi on s).MemOk :=
  .ite hs.setGroup hs.setGroup.fitContexts

/-! ### Submission and task instructions -/

theorem State.MemOk.submit {s : State} {vf q i : Nat} (hs : s.MemOk) : (s.submit vf q i).MemOk := by
  unfold State.submit
  dsimp only
  split
  · exact hs.devRecall.devRecall.setVf.tcbPut.tcbPut.abortNew
  · refine .ite (State.MemOk.tcbPut ?_) (State.MemOk.makeReady ?_)
    · split
      · exact State.MemOk.setVf (State.MemOk.setVf (hs.devRecall.devRecall.setVf.tcbPut.tcbPut.of_ms rfl))
      · exact State.MemOk.setVf (hs.devRecall.devRecall.setVf.tcbPut.tcbPut.of_ms rfl)
    · split
      · exact State.MemOk.setVf (State.MemOk.setVf (hs.devRecall.devRecall.setVf.tcbPut.tcbPut.of_ms rfl))
      · exact State.MemOk.setVf (hs.devRecall.devRecall.setVf.tcbPut.tcbPut.of_ms rfl)

theorem evQueueSubmit_memOk {s : State} {vf q : Nat} {data : BitVec 64} (hs : s.MemOk) :
    (evQueueSubmit vf q data s).MemOk :=
  .ite hs.note (.ite hs.note (.ite hs.submit hs))

theorem State.MemOk.raisePrio {s : State} {vf i p : Nat} (hs : s.MemOk) : (s.raisePrio vf i p).MemOk :=
  .ite hs.tcbPut hs

theorem State.MemOk.inherit {fuel : Nat} {s : State} {vf i p : Nat} (hs : s.MemOk) :
    (State.inherit fuel s vf i p).MemOk := by
  induction fuel generalizing s i with
  | zero => exact hs.raisePrio
  | succ fuel ih => exact hs.raisePrio.foldl fun u o hu => .ite (ih hu) hu

theorem State.MemOk.link {s : State} {vf p x : Nat} (hs : s.MemOk) : (s.link vf p x).MemOk := by
  unfold State.link
  refine State.MemOk.inherit ?_
  split
  · exact hs.tcbPut
  · exact hs

theorem State.MemOk.taskOp {s : State} {vf q x : Nat} (hs : s.MemOk) : ∀ r ∈ s.taskOp vf q x, r.1.MemOk := by
  intro r hr
  unfold State.taskOp at hr
  have h : (s.submit vf q x).MemOk := hs.submit
  generalize s.submit vf q x = u at h hr
  split at hr
  · obtain rfl := Option.some.inj hr
    exact hs
  · split at hr
    · obtain rfl := Option.some.inj hr
      exact hs
    · split at hr
      · cases hr
      · obtain rfl := Option.some.inj hr
        exact h

theorem State.MemOk.tdepOp {s : State} {vf p x : Nat} {pre : Bool} {n : Nat} (hs : s.MemOk) :
    (s.tdepOp vf p x pre n).1.MemOk := by
  unfold State.tdepOp
  have ha : (s.abort vf x 9).MemOk := hs.abort
  generalize s.abort vf x 9 = u at ha
  refine .ite_fst hs (.ite_fst hs (.ite_fst hs (.ite_fst ha ?_)))
  split
  · exact hs
  · dsimp only
    exact hs.tcbPut.devWrite.link

theorem State.MemOk.tsigOp {s : State} {vf x : Nat} (hs : s.MemOk) : (s.tsigOp vf x).1.MemOk :=
  .ite_fst hs (.ite_fst hs hs.decPred)

/-- Task instructions keep the invariant if their operation does. -/
theorem statusBody_memOk {f : Cx → Thread → State → Option (State × Nat)} {c : Cx} {s : State} (hs : s.MemOk)
    (hf : ∀ t u, u.MemOk → ∀ r ∈ f c t u, r.1.MemOk) : (statusBody f c s).MemOk := by
  unfold statusBody
  refine inTurn_memOk hs fun u t hu => ?_
  split
  · exact hu
  · next r st h => exact (hf t u hu _ h).setGroup

theorem execTask_memOk {e : Ext} {s : State} (hs : s.MemOk) : NextMemOk (execTask e s) :=
  issueE_memOk hs fun _ => statusBody_memOk hs fun _ _ hu => hu.taskOp

theorem execTdep_memOk {e : Ext} {s : State} (hs : s.MemOk) : NextMemOk (execTdep e s) :=
  issueE_memOk hs fun _ => statusBody_memOk hs fun _ _ hu _ hr => Option.some.inj hr ▸ hu.tdepOp

theorem execTsig_memOk {e : Ext} {s : State} (hs : s.MemOk) : NextMemOk (execTsig e s) :=
  issueE_memOk hs fun _ => statusBody_memOk hs fun _ _ hu _ hr => Option.some.inj hr ▸ hu.tsigOp

theorem uintBody_memOk {s : State} {c : Cx} (hs : s.MemOk) : (uintBody c s).MemOk :=
  .ite hs (.ite hs.released.stalled (hs.released.foldl (fun _ _ hu => hu.post)))

theorem clkBody_memOk {s : State} {c : Cx} (hs : s.MemOk) : (clkBody c s).MemOk :=
  lanesOut_memOk hs

theorem pmrdBody_memOk {s : State} {c : Cx} (hs : s.MemOk) : (pmrdBody c s).MemOk :=
  lanesOut_memOk hs

theorem markBody_memOk {s : State} {c : Cx} (hs : s.MemOk) : (markBody c s).MemOk := by
  unfold markBody
  split
  · exact hs
  · exact hs.trace

/-! ### Placement and retirement -/

theorem State.MemOk.noteSets {s : State} {uid gidx : Nat} (hs : s.MemOk) : (s.noteSets uid gidx).MemOk := by
  unfold State.noteSets
  split
  · exact hs
  · exact hs.setTask

theorem State.MemOk.placeAt {s : State} {t : Task} {gidx cl s0 : Nat} (hs : s.MemOk) :
    (s.placeAt t gidx cl s0).MemOk := by
  unfold State.placeAt
  refine .ite hs (State.MemOk.noteSets ?_)
  split
  · exact State.MemOk.restoreGroup (State.MemOk.tcbPut (.ite hs.tcbPut hs))
  · exact State.MemOk.flushStx (State.MemOk.setTask
      (State.MemOk.of_ms (State.MemOk.takeWays (State.MemOk.tcbPut (.ite hs.tcbPut hs))) rfl))

theorem State.MemOk.freeStrays {s : State} {cl : Nat} (hs : s.MemOk) : (s.freeStrays cl).MemOk :=
  hs.foldl (fun _ _ hu => hu.setGroup)

theorem State.MemOk.keep {s : State} {uid : Nat} {cl : Option Nat} (hs : s.MemOk) : (s.keep uid cl).MemOk :=
  hs.of_ms rfl

theorem State.MemOk.promise {s : State} {uid gidx cl : Nat} (hs : s.MemOk) : (s.promise uid gidx cl).MemOk :=
  hs.of_ms rfl

theorem State.MemOk.decideGroup {s : State} {part : Nat} {t : Task} {gidx : Nat} (hs : s.MemOk) :
    (s.decideGroup part t gidx).1.MemOk := by
  unfold State.decideGroup
  dsimp only
  split
  · exact .ite_fst hs.placeAt hs
  · split
    · exact hs.promise
    · split
      · exact hs.freeStrays.promise
      · split
        · exact State.MemOk.promise (State.MemOk.freeStrays (hs.foldl (fun _ _ hu => hu.haltGroup)))
        · exact hs.keep

theorem State.MemOk.decideFor {s : State} {part : Nat} {t : Task} (hs : s.MemOk) : (s.decideFor part t).1.MemOk := by
  unfold State.decideFor
  dsimp only
  split
  · exact .ite_fst (State.MemOk.placeAt (.ite hs hs.setTask)) (.ite hs hs.setTask)
  · split
    · exact .ite hs hs.setTask
    · exact State.MemOk.decideGroup (.ite hs hs.setTask)

theorem State.MemOk.placeOne {part : Nat} {ts : List Task} {s : State} (hs : s.MemOk) :
    (State.placeOne part ts s).MemOk := by
  induction ts generalizing s with
  | nil => exact hs
  | cons t ts ih => exact .ite hs.decideFor (ih hs.decideFor)

/-- Groups that are placed together, or room that is made for them, keep the invariant. -/
theorem State.MemOk.tryTogether {s : State} {part : Nat} {t : Task} {members : List Nat} (hs : s.MemOk) :
    ∀ u ∈ s.tryTogether part t members, u.MemOk := by
  intro u hu
  unfold State.tryTogether at hu
  dsimp only at hu
  split at hu
  · cases hu
  · split at hu
    · cases hu
      refine .ite (hs.foldl fun v x hv => ?_) hs
      split
      · exact hv.placeAt
      · exact hv
    · obtain ⟨r, -, rfl⟩ := Option.map_eq_some_iff.mp hu
      exact (hs.foldl fun _ _ hv => hv.haltGroup).foldl fun _ _ hv => hv.freeStrays

theorem State.MemOk.gangFirst {s : State} {part : Nat} {ts : List Task} (hs : s.MemOk) :
    ∀ u ∈ s.gangFirst part ts, u.MemOk := fun _ hu =>
  have ⟨_, _, h⟩ := List.exists_of_findSome?_eq_some hu
  hs.tryTogether _ h

theorem State.MemOk.failedSet {s : State} {part : Nat} {ts : List Task} (hs : s.MemOk) :
    ∀ u ∈ s.failedSet part ts, u.MemOk := fun _ hu =>
  have ⟨_, _, h⟩ := List.exists_of_findSome?_eq_some hu
  have ⟨_, _, h⟩ := List.exists_of_findSome?_eq_some h
  hs.tryTogether _ h

theorem evPlacement_memOk {part : Nat} {s : State} (hs : s.MemOk) : (evPlacement part s).MemOk := by
  unfold evPlacement
  dsimp only
  split
  · next h => exact hs.gangFirst _ h
  · split
    · next h => exact hs.failedSet _ h
    · exact hs.placeOne

theorem evRestore_memOk {s : State} {i cl : Nat} (hs : s.MemOk) : (evRestore i cl s).MemOk := by
  unfold evRestore
  split
  · exact hs
  · exact .ite (evPlacement_memOk hs) hs

theorem evAgingTick_memOk {s : State} {uid : Nat} (hs : s.MemOk) : (evAgingTick uid s).MemOk := by
  unfold evAgingTick
  split
  · exact hs
  · exact .ite hs.tcbPut.setTask hs

theorem evCoresidentSetTimeout_memOk {s : State} {uid set : Nat} (hs : s.MemOk) :
    (evCoresidentSetTimeout uid set s).MemOk := by
  unfold evCoresidentSetTimeout
  split
  · exact hs
  · split
    · exact hs
    · exact .ite hs.haltAll.setTask hs

theorem State.MemOk.reportCursor {s : State} {t : Task} {old new : Nat} (hs : s.MemOk) :
    (s.reportCursor t old new).MemOk :=
  .ite hs (hs.tcbPut.foldl (fun _ _ hu => hu.decPred))

theorem evGroupExit_memOk {s : State} {gi : Nat} (hs : s.MemOk) : (evGroupExit gi s).MemOk := by
  unfold evGroupExit
  split
  · exact hs
  · refine .ite (.ite hs.unpin.dropFills hs) ?_
    split
    · dsimp only
      split
      · exact State.MemOk.foldl (hs.unpin.dropFills.of_ms rfl) (fun _ _ hu => hu.note)
      · exact State.MemOk.reportCursor (State.MemOk.setTask
          (State.MemOk.foldl (hs.unpin.dropFills.of_ms rfl) (fun _ _ hu => hu.note)))
    · dsimp only
      split
      · exact State.MemOk.foldl (hs.of_ms rfl) (fun _ _ hu => hu.note)
      · exact State.MemOk.reportCursor (State.MemOk.setTask (State.MemOk.foldl (hs.of_ms rfl) (fun _ _ hu => hu.note)))

theorem evTaskRetire_memOk {s : State} {uid : Nat} (hs : s.MemOk) : (evTaskRetire uid s).MemOk := by
  unfold evTaskRetire
  split
  · exact hs
  · exact .ite hs (State.MemOk.completionNotice (State.MemOk.setVf
      (.ite (State.MemOk.dropArena (hs.dropTask.tcbPut.tcbPut.foldl (fun _ _ hu => hu.decPred)))
      (hs.dropTask.tcbPut.tcbPut.foldl (fun _ _ hu => hu.decPred)))))

/-! ### Flits that arrive and windows -/

theorem State.MemOk.refuseFlit {s : State} {f : Flit} {kind : Nat} (hs : s.MemOk) : (s.refuseFlit f kind).MemOk :=
  hs.of_ms rfl

theorem State.MemOk.pinWait {s : State} {line : Nat} {k : Key} (hs : s.MemOk) : (s.pinWait line k).MemOk :=
  hs.of_refusal rfl

theorem State.MemOk.pinServed {s : State} {k : Key} (hs : s.MemOk) : (s.pinServed k).MemOk :=
  hs.of_contents rfl rfl

theorem State.MemOk.serveRead {s : State} {f : Flit} (hs : s.MemOk) : (State.serveRead f s).1.MemOk := by
  unfold State.serveRead
  split
  · exact .ite_fst hs.pinServed.refuseFlit hs.pinServed.recall.engineLine.respond
  · exact hs.respond
  · exact hs.respond
  · exact hs.refuseFlit
  · exact hs.refuseFlit
  · exact hs.pinWait
  · exact hs

theorem evFolakRead_memOk {s : State} {f : Flit} (hs : s.MemOk) : (evFolakRead f s).MemOk :=
  hs.arrived (fun _ hu => hu.serveRead)

theorem State.MemOk.bankWrite {s : State} {waited : Bool} {f : Flit} {w : Window} (hs : s.MemOk) :
    (s.bankWrite waited f w).1.MemOk := by
  unfold State.bankWrite
  split
  · exact hs.refuseFlit
  · refine .ite_fst hs.refuseFlit (.ite_fst hs.refuseFlit ?_)
    split
    · exact hs.setGroup.respond
    · split
      · refine .ite_fst (State.MemOk.respond ?_) hs
        split
        · exact hs.setTask.writeFrame
        · exact hs.setTask
      · exact .ite_fst hs hs.refuseFlit

theorem State.MemOk.serveWrite {s : State} {waited : Bool} {f : Flit} (hs : s.MemOk) :
    (State.serveWrite waited f s).1.MemOk := by
  unfold State.serveWrite
  split
  · exact hs.pinServed.store.respond
  · exact hs.bankWrite
  · exact hs.respond
  · exact hs.note.respond
  · exact hs.refuseFlit
  · exact hs.pinWait
  · exact hs

theorem evFolakWrite_memOk {s : State} {f : Flit} (hs : s.MemOk) : (evFolakWrite f s).MemOk :=
  hs.arrived (fun _ hu => hu.serveWrite)

theorem State.MemOk.serveAtomic {s : State} {f : Flit} (hs : s.MemOk) : (State.serveAtomic f s).1.MemOk := by
  unfold State.serveAtomic
  split
  · exact .ite_fst hs.pinServed.refuseFlit hs.pinServed.recall.store.respond
  · exact hs.respond
  · split
    · exact hs.recall.note.respond
    · exact hs.pinWait
    · exact hs.refuseFlit
  · exact hs.refuseFlit
  · exact hs.refuseFlit
  · exact hs.pinWait
  · exact hs

theorem evFolakAtomic_memOk {s : State} {f : Flit} (hs : s.MemOk) : (evFolakAtomic f s).MemOk :=
  hs.arrived (fun _ hu => hu.serveAtomic)

/-- A reduction that arrives is staged only if it lies in one line (log 99). -/
theorem State.MemOk.serveReduction {f : Flit} {s : State} (hs : s.MemOk) : (State.serveReduction f s).1.MemOk := by
  unfold State.serveReduction
  split
  · next pa _ _ =>
    dsimp only
    split
    · exact hs.refuseFlit
    · next hw =>
      refine .ite_fst hs.pinWait (State.MemOk.respond (State.MemOk.addPartial (State.MemOk.pinServed ?_) (by omega)))
      exact .ite hs.recall hs
  · exact hs.respond
  · exact hs.note.respond
  · exact hs.refuseFlit
  · exact hs.refuseFlit
  · exact hs.pinWait
  · exact hs

theorem evFolakReduction_memOk {s : State} {f : Flit} (hs : s.MemOk) : (evFolakReduction f s).MemOk :=
  hs.arrived (fun _ hu => hu.serveReduction)

theorem State.MemOk.endReq {s : State} {r : Req} (hs : s.MemOk) : (s.endReq r).MemOk :=
  hs.of_ms rfl

theorem State.MemOk.markOut {s : State} {tag : Nat} {m : MarkKind} (hs : s.MemOk) : (s.markOut tag m).MemOk :=
  hs.of_ms rfl

theorem State.MemOk.failCopy {s : State} {r : Req} {status : Nat} (hs : s.MemOk) : (s.failCopy r status).MemOk :=
  hs.setCopy.endParts

theorem State.MemOk.lineCame {s : State} {r : Req} {data : List Byte} {status cls : Nat} (hs : s.MemOk) :
    (s.lineCame r data status cls).MemOk :=
  .ite hs.setMx hs.setCopy

theorem State.MemOk.fillCame {s : State} {r : Req} {data old : List Byte} (hs : s.MemOk) :
    (s.fillCame r data old).MemOk := by
  unfold State.fillCame
  split
  · exact hs
  · exact .ite hs (hs.of_contents rfl rfl)

theorem State.MemOk.answered {s : State} (hs : s.MemOk) : s.answered.MemOk :=
  hs.sweepFences.retryAll

theorem State.MemOk.dataCame {s : State} {f : Flit} (hs : s.MemOk) : (State.dataCame f s).MemOk := by
  unfold State.dataCame
  split
  · exact hs.note
  · refine State.MemOk.answered (.ite (.ite hs.endReq.lineCame hs.endReq.lineCame)
      (.ite (.ite hs.endReq.fillCame hs.endReq.fillCame) ?_))
    split
    · exact hs.of_ms rfl
    · exact .ite hs.endReq (.ite hs.endReq.markOut hs.endReq.answerOut)

theorem evFolakDataResponse_memOk {s : State} {f : Flit} (hs : s.MemOk) : (evFolakDataResponse f s).MemOk :=
  hs.arrived (fun _ hu => hu.dataCame)

theorem State.MemOk.drainSealed {s : State} {r : Req} (hs : s.MemOk) : (s.drainSealed r).MemOk := by
  unfold State.drainSealed
  split
  · exact hs
  · split
    · exact hs.setGroup
    · exact hs

theorem State.MemOk.ackCame {s : State} {f : Flit} (hs : s.MemOk) : (State.ackCame f s).MemOk := by
  unfold State.ackCame
  split
  · exact hs.note
  · exact State.MemOk.answered (.ite (.ite hs.endReq.note hs.endReq)
      (.ite hs.endReq (.ite (.ite hs.endReq.drainSealed hs.endReq)
      (.ite hs.endReq.failCopy (.ite hs.endReq.failCopy hs.endReq)))))

theorem evFolakAcknowledgement_memOk {s : State} {f : Flit} (hs : s.MemOk) : (evFolakAcknowledgement f s).MemOk :=
  hs.arrived (fun _ hu => hu.ackCame)

theorem State.MemOk.failReq {s : State} {r : Req} {status : Nat} (hs : s.MemOk) : (s.failReq r status).MemOk := by
  unfold State.failReq
  refine .ite hs.endReq.note (.ite (.ite hs.endReq.lineCame (.ite hs.endReq hs.endReq.failCopy))
    (.ite hs.endReq.fillCame ?_))
  split
  · exact hs.of_ms rfl
  · exact .ite hs.endReq hs.endReq.markOut

theorem State.MemOk.refusalCame {s : State} {status : Nat} {f : Flit} (hs : s.MemOk) :
    (State.refusalCame status f s).MemOk := by
  unfold State.refusalCame
  split
  · exact hs.note
  · exact hs.failReq.answered

theorem evFolakRevoked_memOk {s : State} {f : Flit} (hs : s.MemOk) : (evFolakRevoked f s).MemOk :=
  hs.arrived (fun _ hu => hu.refusalCame)

theorem evFolakError_memOk {s : State} {f : Flit} (hs : s.MemOk) : (evFolakError f s).MemOk :=
  hs.arrived (fun _ hu => hu.refusalCame)

theorem State.MemOk.sendWaiting {s : State} (hs : s.MemOk) : s.sendWaiting.MemOk :=
  State.MemOk.foldl (hs.of_ms rfl) (fun _ _ hu => hu.transmit)

theorem State.MemOk.dropFrame {s : State} {owner : Nat} (hs : s.MemOk) : (s.dropFrame owner).MemOk :=
  hs.of_ms rfl

theorem evFolakFrame_memOk {s : State} {f : Frame} (hs : s.MemOk) : (evFolakFrame f s).MemOk := by
  unfold evFolakFrame
  split
  · exact .ite hs.dropFrame (hs.of_ms rfl)
  · exact hs.dropFrame
  · exact hs.note

theorem State.MemOk.noteLost {s : State} (hs : s.MemOk) : s.noteLost.MemOk :=
  hs.of_ms rfl

theorem evLinkRetransmit_memOk {s : State} {port : Nat} (hs : s.MemOk) : (evLinkRetransmit port s).MemOk := by
  unfold evLinkRetransmit
  split
  · exact hs
  · exact .ite hs (.ite (State.MemOk.foldl (State.MemOk.noteLost (hs.of_ms rfl)) (fun _ _ hu => hu.transmit))
      (hs.of_ms rfl))

theorem evLinkUp_memOk {s : State} {port : Nat} (hs : s.MemOk) : (evLinkUp port s).MemOk := by
  unfold evLinkUp
  split
  · exact hs
  · exact .ite hs (State.MemOk.sendWaiting (hs.of_ms rfl))

theorem evMkaSakInstall_memOk {s : State} {port owner sak : Nat} (hs : s.MemOk) :
    (evMkaSakInstall port owner sak s).MemOk := by
  unfold evMkaSakInstall
  split
  · split
    · exact hs
    · exact .ite hs (State.MemOk.sendWaiting (hs.of_ms rfl))
  · split
    · exact hs
    · exact .ite hs (State.MemOk.sendWaiting (hs.of_ms rfl))

theorem State.MemOk.setWindow {s : State} {w : Nat} {f : Window → Window} (hs : s.MemOk) : (s.setWindow w f).MemOk :=
  hs.of_ms rfl

theorem State.MemOk.settleWindow {s : State} {w : Nat} (hs : s.MemOk) : (s.settleWindow w).MemOk :=
  .ite hs.setWindow.post hs

theorem evWindowExport_memOk {s : State} {w : Nat} {r : WindowReq} (hs : s.MemOk) : (evWindowExport w r s).MemOk :=
  .ite hs.setWindow hs.note

theorem evWindowImport_memOk {s : State} {j : Nat} {r : ImportReq} (hs : s.MemOk) : (evWindowImport j r s).MemOk := by
  unfold evWindowImport
  split
  · exact hs.note
  · exact .ite hs.note (hs.of_contents rfl rfl)

theorem evWindowRevoke_memOk {s : State} {w : Nat} (hs : s.MemOk) : (evWindowRevoke w s).MemOk :=
  .ite hs.note (State.MemOk.settleWindow (hs.setWindow.foldl (fun _ _ hu => hu.transmit)))

theorem State.MemOk.revokeCame {s : State} {owner node w : Nat} (hs : s.MemOk) :
    (State.revokeCame owner node w s).MemOk :=
  hs.of_ms rfl

theorem evRevokeFlit_memOk {s : State} {node w : Nat} (hs : s.MemOk) : (evRevokeFlit node w s).MemOk := by
  unfold evRevokeFlit
  dsimp only
  split
  · exact hs.arrived (fun _ hu => hu.revokeCame)
  · exact hs

theorem State.MemOk.drainCame {s : State} {owner node w : Nat} (hs : s.MemOk) :
    (State.drainCame owner node w s).MemOk :=
  .ite hs.setWindow.settleWindow hs.note

theorem evDrainMarker_memOk {s : State} {w node : Nat} (hs : s.MemOk) : (evDrainMarker w node s).MemOk := by
  unfold evDrainMarker
  dsimp only
  split
  · exact hs.arrived (fun _ hu => hu.drainCame)
  · exact hs

theorem evNodeLoss_memOk {s : State} {node : Nat} (hs : s.MemOk) : (evNodeLoss node s).MemOk := by
  unfold evNodeLoss
  split
  · exact hs
  · exact .ite hs (State.MemOk.answered (State.MemOk.foldl (State.MemOk.foldl (hs.of_ms rfl) (fun _ _ hu => hu.failReq))
      (fun _ _ hu => .ite hu.setWindow.settleWindow hu)))

theorem evTreg_memOk {s : State} {vf : Nat} {data : BitVec 64} (hs : s.MemOk) : (evTreg vf data s).MemOk :=
  .ite hs.note hs.setVf

/-! ### Reads of statistics records -/

theorem State.MemOk.readRecord {s : State} {vf arena pa : Nat} (hs : s.MemOk) : (s.readRecord vf arena pa).1.MemOk :=
  hs.recall.recall.atHome.atHome

/-- An access to records keeps the invariant if what follows its gate does. -/
theorem recordGate_memOk {c : Cx} {s : State} {ts : List Thread} {h : Thread → Nat} {waits merges : Bool}
    {k : List Hit → State → Act} (hs : s.MemOk) (hk : ∀ hits u, u.MemOk → (k hits u).MemOk) :
    (recordGate c s ts h waits merges k).MemOk := by
  unfold recordGate
  refine gate_memOk hs fun hits u hu => .ite hu.stalled ?_
  split
  · exact hu.refuse
  · split
    · exact hu.refuse
    · split
      · exact hu.askFar
      · exact hk _ _ hu

theorem State.MemOk.recordLines {s : State} {c : Cx} {h : Hit} (hs : s.MemOk) : (s.recordLines c h).1.MemOk := by
  unfold State.recordLines
  refine .ite_fst hs (.ite_fst ?_ (.ite_fst hs hs.readRecord))
  split
  · exact .ite_fst hs hs
  · exact hs

theorem State.MemOk.recordsRead {s : State} {c : Cx} {hits : List Hit} (hs : s.MemOk) : (s.recordsRead c hits).MemOk :=
  hs.foldl (fun _ _ hu => hu.settleFar)

theorem recordOut_memOk {c : Cx} {n : Nat} {f : Thread → List Byte → Nat} {x : State × List Out} {h : Hit × Nat}
    (hx : x.1.MemOk) : (recordOut c n f x h).1.MemOk := by
  unfold recordOut
  dsimp only
  split
  · exact hx.recordLines
  · exact hx.recordLines

theorem recordRead_memOk {s : State} {fresh : Bool} {n : Nat} {f : Thread → List Byte → Nat} {c : Cx} (hs : s.MemOk) :
    (recordRead fresh n f c s).MemOk :=
  recordGate_memOk hs (fun _ _ hu => State.MemOk.setGroup
    (State.MemOk.recordsRead (State.MemOk.foldl_fst (.ite (hu.foldl (fun _ _ hv => hv.pushAll)) hu)
    (fun _ _ hv => recordOut_memOk hv))))

theorem statrdBody_memOk {s : State} {c : Cx} (hs : s.MemOk) : (statrdBody c s).MemOk :=
  .ite trivial (recordRead_memOk hs)

theorem qsclBody_memOk {s : State} {c : Cx} (hs : s.MemOk) : (qsclBody c s).MemOk :=
  recordRead_memOk hs

theorem recordAct_memOk {f : State → Nat → State} {c : Cx} {s : State} (hs : s.MemOk)
    (hf : ∀ u a, u.MemOk → (f u a).MemOk) : (recordAct f c s).MemOk :=
  recordGate_memOk hs fun _ _ hu => State.MemOk.foldl hu fun v _ hv => hf v _ hv

theorem qntStat_memOk {c : Cx} {s : State} (hs : s.MemOk) : (qntStat c s).MemOk := by
  unfold qntStat
  split
  · exact hs
  · refine recordGate_memOk hs fun hits u hu => ?_
    split
    · exact hu
    · dsimp only
      split
      · trivial
      · next hr =>
        have hl := State.MemOk.of_pair hr (State.MemOk.recordLines (.ite hu.pushAll hu))
        exact qntFinish_memOk (hl.recordsRead.foldl fun _ _ hv => hv.contribute)

theorem qntBody_memOk {s : State} {c : Cx} (hs : s.MemOk) : (qntBody c s).MemOk :=
  .ite (qntStat_memOk hs) (qntFinish_memOk hs)

theorem evWindrowPushTimer_memOk {s : State} {i : Nat} (hs : s.MemOk) : (evWindrowPushTimer i s).MemOk := by
  unfold evWindrowPushTimer
  split
  · exact hs
  · exact .ite (hs.of_contents rfl rfl) hs

theorem evWindrowMerge_memOk {s : State} {i : Nat} (hs : s.MemOk) : (evWindrowMerge i s).MemOk := by
  unfold evWindrowMerge
  split
  · exact hs
  · refine .ite ?_ (State.MemOk.mergeHome (hs.of_contents rfl rfl))
    split
    · exact hs.of_refusal rfl
    · exact hs

/-! ### Power, partitions and registers -/

/-- POWER_GOOD keeps memory, and no partial is left (log 110). -/
theorem evPowerGood_memOk {s : State} (hs : s.MemOk) : (evPowerGood s).MemOk :=
  ⟨hs.1, fun _ hp => absurd hp List.not_mem_nil⟩

theorem State.MemOk.abortVf {s : State} {vf : Nat} (hs : s.MemOk) : (s.abortVf vf).MemOk :=
  hs.foldl (fun _ _ hu => hu.abort)

theorem State.MemOk.dropVf {s : State} {vf : Nat} (hs : s.MemOk) : (s.dropVf vf).MemOk := by
  unfold State.dropVf
  have h : ((s.hier.slices.filter fun x => s.ms.errored.contains x.line && (s.vf vf).frames.contains
    (x.line / 32)).foldl
    (fun s x => s.noteError .sliceDirty (x.slice / 48) x.line true none) s).MemOk := hs.foldl fun _ _ hu => hu.noteError
  exact h.of_filter h.1 rfl

theorem State.MemOk.resetVf {s : State} {vf : Nat} (hs : s.MemOk) : (s.resetVf vf).MemOk := by
  unfold State.resetVf
  dsimp only
  split <;> exact State.MemOk.setVf (hs.abortVf.dropVf.of_ms rfl)

theorem evVfReset_memOk {s : State} {vf : Nat} (hs : s.MemOk) : (evVfReset vf s).MemOk :=
  .ite hs.resetVf hs

theorem State.MemOk.closePart {s : State} {part : Nat} (hs : s.MemOk) : (s.closePart part).MemOk := by
  have h := hs.foldl (l := List.range 16) (f := fun s i => s.resetVf (16 * part + i)) fun _ _ hu => hu.resetVf
  simpa only [State.closePart, State.MemOk] using h

theorem State.MemOk.openPart {s : State} {p : PartRec} (hs : s.MemOk) : (s.openPart p).MemOk :=
  hs.foldl (fun _ _ hu => hu.setVf)

theorem State.MemOk.quiesce {s : State} {slice : Nat} (hs : s.MemOk) : (s.quiesce slice).MemOk :=
  State.MemOk.foldl (hs.of_contents rfl rfl) (fun _ _ hu => hu.spillLine)

theorem State.MemOk.settleSlices {s : State} {slices : List Nat} (hs : s.MemOk) : (s.settleSlices slices).1.MemOk :=
  .ite_fst (hs.foldl (fun _ _ hu => hu.recall)) (State.MemOk.foldl (hs.foldl (fun _ _ hu => hu.recall))
    (fun _ _ hu => hu.quiesce))

theorem State.MemOk.applyRecord {s : State} {r : ProvRecord} (hs : s.MemOk) : (s.applyRecord r).MemOk := by
  unfold State.applyRecord
  have h := hs.foldl (l := s.chip.closes r) (f := State.closePart) fun _ _ hu => hu.closePart
  exact State.MemOk.foldl (h.of_ms rfl) fun _ _ hu => hu.openPart

theorem State.MemOk.takeRecord {s : State} (hs : s.MemOk) : s.takeRecord.MemOk := by
  unfold State.takeRecord
  split
  · exact .ite (.ite hs.settleSlices.applyRecord hs.settleSlices) hs
  · exact hs

theorem evProvisioningRecord_memOk {s : State} {r : ProvRecord} (hs : s.MemOk) : (evProvisioningRecord r s).MemOk :=
  .ite hs.note (State.MemOk.takeRecord (hs.of_ms rfl))

theorem evStageBComplete_memOk {s : State} {quarters ports : List Nat} (hs : s.MemOk) :
    (evStageBComplete quarters ports s).MemOk :=
  .ite hs (State.MemOk.takeRecord (hs.of_ms rfl))

theorem evPartitionStart_memOk {s : State} {part : Nat} {meas : BitVec 256} (hs : s.MemOk) :
    (evPartitionStart part meas s).MemOk :=
  .ite (hs.of_ms rfl) hs

theorem evClusterRelease_memOk {part : Nat} {s : State} (hs : s.MemOk) : (evClusterRelease part s).MemOk := by
  unfold evClusterRelease
  split
  · exact hs
  · refine .ite hs (State.MemOk.of_ms (hs.foldl fun u v hu => ?_) rfl)
    exact hu.setVf

theorem evReshape_memOk {s : State} {r : ReshapeReq} (hs : s.MemOk) : (evReshape r s).MemOk :=
  .ite hs.note (.ite hs.settleSlices (hs.settleSlices.of_ms rfl))

theorem evAttestationQuote_memOk {s : State} {nonce : BitVec 256} (hs : s.MemOk) : (evAttestationQuote nonce s).MemOk :=
  .ite hs (hs.of_ms rfl)

theorem evThermalThrottle_memOk {s : State} {on : Bool} (hs : s.MemOk) : (evThermalThrottle on s).MemOk :=
  hs.of_ms rfl

theorem evThermalShutdown_memOk {s : State} (hs : s.MemOk) : (evThermalShutdown s).MemOk := by
  have h := hs.foldl (l := List.range 128) (f := State.abortVf) fun _ _ hu => hu.abortVf
  simpa only [evThermalShutdown, State.MemOk] using h

theorem State.MemOk.setCnt {s : State} {vf cl : Nat} {f : Counters → Counters} (hs : s.MemOk) :
    (s.setCnt vf cl f).MemOk := by
  unfold State.setCnt
  refine .ite hs ?_
  split
  · exact hs.of_ms rfl
  · exact hs.setVf

theorem evRegisterWrite_memOk {s : State} {r : RegName} {v : BitVec 64} (hs : s.MemOk) :
    (evRegisterWrite r v s).MemOk := by
  unfold evRegisterWrite
  split
  · exact hs.setVf
  · exact hs.setVf
  · exact .ite hs.setVf hs.note
  · exact hs.setCnt
  · exact hs.setCnt
  · exact hs.setCnt
  · exact hs.setCnt
  · exact hs.setCnt
  · exact hs.setCnt
  · exact hs.setVf
  · exact hs.setVf
  · exact hs.setVf
  · exact hs.setVf
  · exact hs.setVf
  · exact hs

/-! ### Gangs -/

theorem State.MemOk.setGang {s : State} {vf e : Nat} {f : Gang → Gang} (hs : s.MemOk) : (s.setGang vf e f).MemOk :=
  hs.of_ms rfl

theorem State.MemOk.gangNotice {s : State} {vf e event : Nat} {member : Option Nat} (hs : s.MemOk) :
    (s.gangNotice vf e event member).MemOk :=
  hs.post

theorem State.MemOk.gangSend {s : State} {vf e : Nat} {k : GangKind} {time node : Nat} (hs : s.MemOk) :
    (s.gangSend vf e k time node).MemOk :=
  hs.of_ms rfl

theorem State.MemOk.gangTell {s : State} {vf e : Nat} {k : GangKind} {time : Nat} (hs : s.MemOk) :
    (s.gangTell vf e k time).MemOk :=
  hs.foldl (fun _ _ hu => hu.gangSend)

theorem State.MemOk.gangFlush {s : State} {vf e : Nat} (hs : s.MemOk) : (s.gangFlush vf e).MemOk := by
  unfold State.gangFlush
  refine State.MemOk.setGang (hs.foldl fun u x hu => ?_)
  dsimp only
  split
  · exact hu.transmit
  · exact hu.of_ms rfl

theorem State.MemOk.gangReport {s : State} {vf e : Nat} {k : GangKind} {time : Nat} (hs : s.MemOk) :
    (s.gangReport vf e k time).MemOk := by
  unfold State.gangReport
  split
  · exact hs.gangSend
  · exact hs

theorem State.MemOk.hear {s : State} {vf e : Nat} {k : GangKind} {member : Nat} (hs : s.MemOk) :
    (s.hear vf e k member).MemOk :=
  hs.of_ms rfl

theorem State.MemOk.gangDie {s : State} {vf e : Nat} (hs : s.MemOk) : (s.gangDie vf e).MemOk :=
  State.MemOk.gangNotice (.ite hs.setGang hs.setGang.abort)

theorem State.MemOk.gangKill {s : State} {vf e : Nat} (hs : s.MemOk) : (s.gangKill vf e).MemOk :=
  hs.gangTell.gangDie

theorem State.MemOk.gangLaunch {s : State} {vf e : Nat} (hs : s.MemOk) : (s.gangLaunch vf e).MemOk :=
  .ite hs.setGang.makeReady hs.setGang

theorem State.MemOk.gangRelease {s : State} {vf e : Nat} (hs : s.MemOk) : (s.gangRelease vf e).MemOk :=
  .ite hs.gangTell.gangLaunch hs

theorem State.MemOk.gangHalt {s : State} {vf e : Nat} {byTime : Bool} (hs : s.MemOk) :
    (s.gangHalt vf e byTime).MemOk := by
  unfold State.gangHalt
  split
  · exact hs.setGang.haltAll
  · exact hs.setGang

theorem State.MemOk.gangStopping {s : State} {vf e time guard : Nat} (hs : s.MemOk) :
    (s.gangStopping vf e time guard).MemOk :=
  .ite hs.setGang.gangHalt hs.setGang

theorem State.MemOk.gangResumed {s : State} {vf e member delay : Nat} (hs : s.MemOk) :
    (s.gangResumed vf e member delay).MemOk :=
  .ite (State.MemOk.gangKill (.ite hs hs.gangNotice.setGang))
    (.ite (State.MemOk.gangNotice (.ite hs hs.gangNotice.setGang)) (.ite hs hs.gangNotice.setGang))

theorem State.MemOk.gangOpen {s : State} {vf e : Nat} (hs : s.MemOk) : (s.gangOpen vf e).MemOk :=
  .ite (State.MemOk.gangResumed (State.MemOk.hear (State.MemOk.setGang (hs.of_ms rfl))))
    (State.MemOk.gangReport (State.MemOk.setGang (hs.of_ms rfl)))

theorem State.MemOk.gangGo {s : State} {vf e : Nat} (hs : s.MemOk) : (s.gangGo vf e).MemOk :=
  .ite hs.gangTell.setGang.gangOpen hs

theorem State.MemOk.gangSetMode {s : State} {vf e : Nat} (hs : s.MemOk) : (s.gangSetMode vf e).MemOk :=
  State.MemOk.setGang (.ite (State.MemOk.gangFlush (.ite hs.gangHalt hs)) (.ite hs.gangHalt hs))

theorem State.MemOk.gangMode {s : State} {vf e : Nat} (hs : s.MemOk) : (s.gangMode vf e).MemOk :=
  .ite hs.gangSetMode.setGang.gangReport (.ite hs.gangSetMode.setGang.gangTell.gangNotice.gangTell.setGang.gangHalt
    (.ite hs.gangSetMode.setGang.gangTell.gangNotice.gangTell.setGang hs.gangSetMode.setGang.gangTell.gangNotice))

theorem State.MemOk.forGangs {s : State} {p : Gang → Bool} {f : State → Nat → Nat → State} (hs : s.MemOk)
    (hf : ∀ u vf e, u.MemOk → (f u vf e).MemOk) : (s.forGangs p f).MemOk :=
  hs.foldl fun _ _ hu => hu.foldl fun v e hv => .ite (hf v _ e hv) hv

theorem State.MemOk.gangReject {s : State} {vf e : Nat} (hs : s.MemOk) : (s.gangReject vf e).MemOk :=
  hs.gangNotice

theorem evGangRegister_memOk {s : State} {vf : Nat} {c : GangCmd} (hs : s.MemOk) : (evGangRegister vf c s).MemOk := by
  unfold evGangRegister
  split
  · exact hs.gangReject
  · split
    · exact hs.post
    · exact .ite hs.post hs.setGang

theorem State.MemOk.gangRefuse {s : State} {vf : Nat} {c : GangCmd} (hs : s.MemOk) : (s.gangRefuse vf c).MemOk := by
  unfold State.gangRefuse
  split
  · exact hs.gangReject
  · exact hs.post

theorem evGangStop_memOk {s : State} {vf : Nat} {c : GangCmd} (hs : s.MemOk) : (evGangStop vf c s).MemOk := by
  unfold evGangStop
  split
  · exact hs.gangRefuse
  · exact .ite hs.gangRefuse hs.setGang.gangTell.gangStopping

theorem evGangResume_memOk {s : State} {vf : Nat} {c : GangCmd} (hs : s.MemOk) : (evGangResume vf c s).MemOk := by
  unfold evGangResume
  split
  · exact hs.gangRefuse
  · exact .ite hs.gangRefuse hs.gangTell.setGang

theorem evGangAbort_memOk {s : State} {vf : Nat} {c : GangCmd} (hs : s.MemOk) : (evGangAbort vf c s).MemOk := by
  unfold evGangAbort
  split
  · exact hs.gangRefuse
  · exact .ite hs.gangKill hs.gangRefuse

theorem evGangUnregister_memOk {s : State} {vf : Nat} {c : GangCmd} (hs : s.MemOk) :
    (evGangUnregister vf c s).MemOk := by
  unfold evGangUnregister
  split
  · exact hs.gangRefuse
  · exact .ite hs.setGang hs.gangRefuse

theorem State.MemOk.gangRecord {s : State} {vf : Nat} {b : List Byte} (hs : s.MemOk) : (s.gangRecord vf b).MemOk := by
  unfold State.gangRecord
  refine .ite hs.note ?_
  split
  · exact evGangRegister_memOk hs
  · exact evGangStop_memOk hs
  · exact evGangResume_memOk hs
  · exact evGangAbort_memOk hs
  · exact evGangUnregister_memOk hs
  · exact hs.note

theorem State.MemOk.gangBytes {s : State} {vf off : Nat} {data : List Byte} (hs : s.MemOk) :
    (s.gangBytes vf off data).MemOk :=
  .ite hs.setVf.gangRecord hs.setVf

theorem evGangStartTime_memOk {s : State} {vf e : Nat} (hs : s.MemOk) : (evGangStartTime vf e s).MemOk :=
  .ite hs (.ite (.ite hs (.ite hs.setGang.hear.gangRelease hs.setGang.gangReport))
    (.ite hs.setGang.gangTell.gangLaunch hs.gangLaunch))

theorem evGangStopTime_memOk {s : State} {vf e : Nat} (hs : s.MemOk) : (evGangStopTime vf e s).MemOk :=
  .ite (.ite hs.gangHalt hs) (.ite (.ite (State.MemOk.hear (.ite hs.setGang.gangFlush hs.setGang))
    (State.MemOk.gangReport (.ite hs.setGang.gangFlush hs.setGang))) hs)

theorem evGangGuardExpiry_memOk {s : State} {vf e : Nat} (hs : s.MemOk) : (evGangGuardExpiry vf e s).MemOk :=
  .ite (.ite (State.MemOk.setGang (hs.foldl (fun _ _ hu => hu.gangNotice)))
    (State.MemOk.gangKill (State.MemOk.setGang (hs.foldl (fun _ _ hu => hu.gangNotice)))))
    (.ite hs.setGang (.ite (.ite (.ite hs.setGang.hear.gangNotice hs.setGang.hear) hs.setGang.gangReport) hs))

theorem evStragglerPolicyExpiry_memOk {s : State} {vf e : Nat} (hs : s.MemOk) :
    (evStragglerPolicyExpiry vf e s).MemOk :=
  .ite (.ite hs.setGang hs.gangKill) (.ite (.ite hs.setGang hs.gangKill) hs)

theorem evGangResumeTime_memOk {s : State} {vf e : Nat} (hs : s.MemOk) : (evGangResumeTime vf e s).MemOk :=
  .ite hs (.ite (.ite hs (.ite hs.gangOpen (.ite hs (.ite hs.setGang.hear.gangGo hs.setGang.gangReport))))
    (.ite hs (.ite hs.gangOpen hs.setGang)))

theorem evGangSilenceTimeout_memOk {s : State} {vf e : Nat} (hs : s.MemOk) : (evGangSilenceTimeout vf e s).MemOk :=
  .ite hs.gangDie hs

theorem State.MemOk.onGang {s : State} {k : GangKind} {vf : Nat} {m : GangMsg} {f : State → Nat → State} (hs : s.MemOk)
    (hf : ∀ u e, u.MemOk → (f u e).MemOk) : (s.onGang k vf m f).MemOk := by
  unfold State.onGang
  refine hs.arrived fun u hu => ?_
  dsimp only
  split
  · exact hu.note
  · exact .ite (hf _ _ (.ite hu.setGang hu)) hu.note

theorem evGangMsgStop_memOk {s : State} {vf : Nat} {m : GangMsg} (hs : s.MemOk) : (evGangMsgStop vf m s).MemOk :=
  hs.onGang (fun _ _ hu => .ite hu.gangStopping (.ite hu.gangHalt hu))

theorem evGangMsgResume_memOk {s : State} {vf : Nat} {m : GangMsg} (hs : s.MemOk) : (evGangMsgResume vf m s).MemOk :=
  hs.onGang (fun _ _ hu => .ite hu.setGang hu)

theorem evGangMsgAbort_memOk {s : State} {vf : Nat} {m : GangMsg} (hs : s.MemOk) : (evGangMsgAbort vf m s).MemOk :=
  hs.onGang (fun _ _ hu => .ite hu hu.gangDie)

theorem evGangMsgHalted_memOk {s : State} {vf : Nat} {m : GangMsg} (hs : s.MemOk) : (evGangMsgHalted vf m s).MemOk :=
  hs.onGang (fun _ _ hu => .ite hu.hear hu)

theorem evGangMsgSaved_memOk {s : State} {vf : Nat} {m : GangMsg} (hs : s.MemOk) : (evGangMsgSaved vf m s).MemOk :=
  hs.onGang (fun _ _ hu => .ite (.ite hu.hear.gangNotice hu.hear) hu)

theorem evGangMsgResumed_memOk {s : State} {vf : Nat} {m : GangMsg} (hs : s.MemOk) : (evGangMsgResumed vf m s).MemOk :=
  hs.onGang (fun _ _ hu => .ite hu hu.hear.gangResumed)

theorem evGangMsgMode_memOk {s : State} {vf : Nat} {m : GangMsg} (hs : s.MemOk) : (evGangMsgMode vf m s).MemOk :=
  hs.onGang (fun _ _ hu => .ite hu.setGang (.ite hu.setGang (.ite hu.gangMode hu.gangSetMode)))

theorem State.MemOk.gangAnswer {s : State} {vf e : Nat} {k : GangKind} {member : Nat} (hs : s.MemOk) :
    (s.gangAnswer vf e k member).MemOk := by
  unfold State.gangAnswer
  split
  · exact hs.gangSend
  · exact hs

theorem evGangMsgArrive_memOk {s : State} {vf : Nat} {m : GangMsg} (hs : s.MemOk) : (evGangMsgArrive vf m s).MemOk :=
  hs.onGang (fun _ _ hu => .ite hu (.ite hu.hear.gangRelease (.ite hu hu.gangAnswer)))

theorem evGangMsgRelease_memOk {s : State} {vf : Nat} {m : GangMsg} (hs : s.MemOk) : (evGangMsgRelease vf m s).MemOk :=
  hs.onGang (fun _ _ hu => .ite hu.gangLaunch hu)

theorem evGangMsgReadyToGo_memOk {s : State} {vf : Nat} {m : GangMsg} (hs : s.MemOk) :
    (evGangMsgReadyToGo vf m s).MemOk :=
  hs.onGang (fun _ _ hu => .ite hu (.ite hu.gangAnswer hu.hear.gangGo))

theorem evGangMsgGo_memOk {s : State} {vf : Nat} {m : GangMsg} (hs : s.MemOk) : (evGangMsgGo vf m s).MemOk :=
  hs.onGang (fun _ _ hu => evGangResumeTime_memOk hu.setGang)

theorem evGangMsgFlush_memOk {s : State} {vf : Nat} {m : GangMsg} (hs : s.MemOk) : (evGangMsgFlush vf m s).MemOk :=
  hs.onGang (fun _ _ hu => hu.setGang)

theorem evPtpMessage_memOk {s : State} {m : PtpMsg} (hs : s.MemOk) : (evPtpMessage m s).MemOk :=
  .ite hs.note (.ite (hs.of_ms rfl) (.ite (State.MemOk.forGangs (hs.of_ms rfl)
    (fun _ _ _ hu => .ite hu.setGang hu.gangReport)) (hs.of_ms rfl)))

theorem evLossOfLock_memOk {s : State} (hs : s.MemOk) : (evLossOfLock s).MemOk :=
  .ite (hs.of_ms rfl) hs

theorem evClockLoss_memOk {s : State} (hs : s.MemOk) : (evClockLoss s).MemOk :=
  .ite hs (State.MemOk.forGangs (hs.of_ms rfl) (fun _ _ _ hu => hu.gangNotice.gangMode))

/-! ### Application cores -/

theorem State.MemOk.readPage {s : State} {a : CoreAccess} (hs : s.MemOk) : (s.readPage a).MemOk := by
  unfold State.readPage
  split
  · dsimp only
    split
    · exact .ite (evCounterLowRead_memOk hs) (evCounterHighRead_memOk hs)
    · exact hs.of_ms rfl
  · exact hs.of_ms rfl

theorem State.MemOk.storeWord {s : State} {vf : Nat} {p : Page} {off : Nat} {v : BitVec 64} (hs : s.MemOk) :
    (s.storeWord vf p off v).MemOk := by
  unfold State.storeWord
  split
  · exact hs
  · exact hs
  · split
    · exact evRegisterWrite_memOk hs
    · exact evRegisterWrite_memOk hs
    · exact evRegisterWrite_memOk hs
    · exact evTreg_memOk hs
    · exact hs
    · exact hs.note
  · split
    · exact evRegisterWrite_memOk hs
    · exact hs
  · exact .ite hs.gangBytes hs.note
  · exact .ite (evPagerInval_memOk hs) (.ite hs.note (.ite (evPagerReplayFail_memOk hs) (evPagerReplay_memOk hs)))
  · exact .ite (evQueueSubmit_memOk hs) hs.note
  · exact .ite (evCopyApertureStart_memOk hs) hs.note

theorem State.MemOk.storePage {s : State} {a : CoreAccess} (hs : s.MemOk) : (s.storePage a).MemOk := by
  unfold State.storePage
  refine .ite hs.storeWord ?_
  split
  · exact hs
  · exact .ite hs.gangBytes hs.note
  · exact hs.note

theorem State.MemOk.coreStore {s : State} {vf arena pa : Nat} {bytes : List Byte} (hs : s.MemOk) :
    (s.coreStore vf arena pa bytes).MemOk :=
  .ite (State.MemOk.wakeLine (hs.of_writeN rfl rfl)) hs.store

theorem State.MemOk.coreMemory {s : State} {a : CoreAccess} (hs : s.MemOk) : (s.coreMemory a).MemOk := by
  unfold State.coreMemory
  split
  · split
    · dsimp only
      split
      · exact hs.of_ms rfl
      · exact hs.of_ms rfl
      · exact hs.of_ms rfl
      · exact .ite hs.note (.ite (hs.of_ms rfl) (.ite (.ite (hs.of_ms rfl) hs.ask)
          (.ite hs.pinWait hs.pinServed.coreStore)))
    · dsimp only
      split
      · exact hs.of_ms rfl
      · exact hs.of_ms rfl
      · exact hs.of_ms rfl
      · exact .ite (hs.of_ms rfl) (.ite (hs.of_ms rfl)
          (.ite (.ite (hs.of_ms rfl) (hs.of_ms rfl))
          (.ite hs.pinWait (.ite (hs.pinServed.of_ms rfl) (hs.pinServed.recall.engineLine.of_ms rfl)))))
  · split
    · dsimp only
      split
      · exact hs.of_ms rfl
      · exact hs.of_ms rfl
      · exact hs.of_ms rfl
      · exact .ite hs.note (.ite (hs.of_ms rfl) (.ite (.ite (hs.of_ms rfl) hs.ask)
          (.ite hs.pinWait hs.pinServed.coreStore)))
    · dsimp only
      split
      · exact hs.of_ms rfl
      · exact hs.of_ms rfl
      · exact hs.of_ms rfl
      · exact .ite (hs.of_ms rfl) (.ite (hs.of_ms rfl)
          (.ite (.ite (hs.of_ms rfl) (hs.of_ms rfl))
          (.ite hs.pinWait (.ite (hs.pinServed.of_ms rfl) (hs.pinServed.recall.engineLine.of_ms rfl)))))

theorem evCoreAccess_memOk {s : State} {a : CoreAccess} (hs : s.MemOk) : (evCoreAccess a s).MemOk :=
  .ite (hs.of_ms rfl) (.ite hs.coreMemory (.ite hs.storePage hs.readPage))

/-! ### Queues -/

theorem State.MemOk.holdStream {s : State} {c : Cx} {rst : Bool} (hs : s.MemOk) : (s.holdStream c rst).MemOk := by
  unfold State.holdStream
  split
  · exact hs
  · exact State.MemOk.setSheaf (hs.of_ms rfl)

theorem qpopBody_memOk {s : State} {c : Cx} (hs : s.MemOk) : (qpopBody c s).MemOk := by
  unfold qpopBody
  split
  · exact hs
  · split
    · dsimp only
      split <;> exact hs.holdStream
    · dsimp only
      split
      · exact hs.setGroup
      · exact hs.holdStream

theorem qpeekBody_memOk {s : State} {c : Cx} (hs : s.MemOk) : (qpeekBody c s).MemOk := by
  unfold qpeekBody
  split
  · exact hs
  · exact hs.setGroup

theorem qpushBody_memOk {s : State} {c : Cx} (hs : s.MemOk) : (qpushBody c s).MemOk := by
  unfold qpushBody
  split
  · exact hs
  · exact .ite hs.setGroup hs.holdStream

theorem qadvBody_memOk {s : State} {c : Cx} (hs : s.MemOk) : (qadvBody c s).MemOk := by
  unfold qadvBody
  split
  · exact hs
  · exact .ite (.ite hs.setGroup hs) hs.setGroup

theorem qrstBody_memOk {s : State} {c : Cx} (hs : s.MemOk) : (qrstBody c s).MemOk := by
  unfold qrstBody
  split
  · exact hs
  · exact .ite hs.setGroup hs.holdStream

theorem evQpushTileFilled_memOk {s : State} {gi q tile : Nat} (hs : s.MemOk) :
    (evQpushTileFilled gi q tile s).MemOk := by
  unfold evQpushTileFilled
  split
  · exact .ite hs hs.setGroup
  · exact hs

theorem evQadvTileFree_memOk {s : State} {gi q tile : Nat} (hs : s.MemOk) : (evQadvTileFree gi q tile s).MemOk := by
  unfold evQadvTileFree
  split
  · exact .ite hs hs.setGroup
  · exact hs

theorem evQrstReset_memOk {s : State} {gi q : Nat} (hs : s.MemOk) : (evQrstReset gi q s).MemOk := by
  unfold evQrstReset
  split
  · exact hs
  · dsimp only
    split
    · refine .ite ?_ hs
      split
      · exact .ite hs.setGroup.advance hs.setGroup.advance.setSheaf
      · exact hs.setGroup
    · exact hs

/-! ### Every instruction and event -/

/-- Every instruction and every event keeps the invariant. -/
theorem exec_memOk {i : Instr} {s : State} (hs : s.MemOk) : NextMemOk (exec i s) := by
  unfold exec
  cases i with
  | runClause _ => exact execRunClause_memOk hs
  | addBase _ | subBase _ | mulBase _ | andBase _ | orBase _ | xorBase _ | andnBase _ | shlBase _ | shrlBase _
  | shraBase _ | minI32Base _ | maxI32Base _ | minN32Base _ | maxN32Base _ | faddBase _ | fsubBase _ | fmulBase _
  | fminBase _ | fmaxBase _ | ffmaBase _ | pfmaBf16x2Base _ | pfmaF16x2Base _ | madBase _ | rotBase _ =>
    exact issueB_memOk hs (fun _ => lanes_memOk hs)
  | add _ | sub _ | mul _ | mulh _ | mad _ | min _ | max _ | abs _ | neg _ | lea _ | cmp _ | sel _ | mov _ | movi _
  | cvti _ | and _ | or _ | xor _ | andn _ | not _ | shl _ | shrl _ | shra _ | rot _ | bfe _ | bfi _ | popc _
  | clz _ | ctz _ | brev _ | permb _ | plop _ | pmov _ | fsub _ | fmin _ | fmax _ | fclass _ | fround _ | fldexp _
  | ffrexp _ | pfma _ | fdot2 _ | cvtf _ | cvtn _ | dqn _ | pack _ | unpk _ | sreg _ =>
    exact issueE_memOk hs (fun _ => lanes_memOk hs)
  | div _ | frcp _ | frsq _ | fsqrt _ | fdiv _ | fexp2 _ | flog2 _ | fsinp _ | fcosp _ | glstat _ =>
    exact issueE_memOk hs (fun _ => lanesOut_memOk hs)
  | fadd _ | fmul _ | ffma _ | fcmp _ => exact issueE_memOk hs (fun _ => lanesF64_memOk hs)
  | cvt _ => exact issueE_memOk hs (fun _ => cvtBody_memOk hs)
  | qnt _ => exact issueE_memOk hs (fun _ => qntBody_memOk hs)
  | qblk _ | rowMatch _ | bfly _ | shfl _ | vote _ | rowred _ | elect _ =>
    exact issueE_memOk hs (fun _ => rowBody_memOk hs)
  | qscl _ => exact issueE_memOk hs (fun _ => qsclBody_memOk hs)
  | rnd _ => exact issueE_memOk hs (fun _ => lanesDraw_memOk hs)
  | braU _ => exact issueE_memOk hs (fun _ => braUBody_memOk hs)
  | braS _ => exact issueE_memOk hs (fun _ => braSBody_memOk hs)
  | braM _ => exact issueE_memOk hs (fun _ => braMBody_memOk hs)
  | brx _ | ret _ => exact issueE_memOk hs (fun _ => brxBody_memOk hs)
  | call _ => exact issueE_memOk hs (fun _ => callBody_memOk hs)
  | reform _ => exact issueE_memOk hs (fun _ => hs.fileAll)
  | exit _ => exact issueE_memOk hs (fun _ => exitBody_memOk hs)
  | yield _ => exact issueE_memOk hs (fun _ => yieldBody_memOk hs)
  | nop _ => exact issueE_memOk hs (fun _ => hs)
  | trap _ | brk _ => exact issueE_memOk hs (fun _ => trapBody_memOk hs)
  | swreg _ => exact issueE_memOk hs (fun _ => swregBody_memOk hs)
  | icinv _ => exact issueE_memOk hs (fun _ => icinvBody_memOk hs)
  | ld _ => exact issueE_memOk hs (fun _ => ldBody_memOk hs)
  | st _ => exact issueE_memOk hs (fun _ => stBody_memOk hs)
  | lds _ => exact issueE_memOk hs (fun _ => ldsBody_memOk hs)
  | sts _ => exact issueE_memOk hs (fun _ => stsBody_memOk hs)
  | ldt _ => exact issueE_memOk hs (fun _ => ldtBody_memOk hs)
  | stt _ => exact issueE_memOk hs (fun _ => sttBody_memOk hs)
  | ldc _ => exact issueE_memOk hs (fun _ => ldcBody_memOk hs)
  | pref _ => exact issueE_memOk hs (fun _ => prefBody_memOk hs)
  | stx _ => exact issueE_memOk hs (fun _ => stxBody_memOk hs)
  | ldf _ | ste _ => exact issueE_memOk hs (fun _ => feBody_memOk hs)
  | feinit _ => exact issueE_memOk hs (fun _ => feinitBody_memOk hs)
  | waita _ => exact issueE_memOk hs (fun _ => waitaBody_memOk hs)
  | atom _ => exact issueE_memOk hs (fun _ => atomBody_memOk hs)
  | red _ => exact issueE_memOk hs (fun _ => redBody_memOk hs)
  | atoms _ => exact issueE_memOk hs (fun _ => atomsBody_memOk hs)
  | barArv _ => exact issueE_memOk hs (fun _ => barArvBody_memOk hs)
  | barWait _ => exact issueE_memOk hs (fun _ => barWaitBody_memOk hs)
  | barSync _ | barSet _ | barSwap _ => exact issueE_memOk hs (fun _ => barSyncBody_memOk hs)
  | barexp _ => exact issueE_memOk hs (fun _ => barexpBody_memOk hs)
  | fence _ => exact issueE_memOk hs (fun _ => fenceBody_memOk hs)
  | cpy _ | cpym _ => exact issueE_memOk hs (fun _ => copyBody_memOk hs)
  | qpop _ => exact issueE_memOk hs (fun _ => qpopBody_memOk hs)
  | qpeek _ => exact issueE_memOk hs (fun _ => qpeekBody_memOk hs)
  | qpush _ => exact issueE_memOk hs (fun _ => qpushBody_memOk hs)
  | qadv _ => exact issueE_memOk hs (fun _ => qadvBody_memOk hs)
  | qrst _ => exact issueE_memOk hs (fun _ => qrstBody_memOk hs)
  | wbld _ => exact issueE_memOk hs (fun _ => wbldBody_memOk hs)
  | mma _ => exact issueE_memOk hs (fun _ => mmaBody_memOk hs)
  | azero _ => exact issueE_memOk hs (fun _ => azeroBody_memOk hs)
  | adrain _ => exact issueE_memOk hs (fun _ => adrainBody_memOk hs)
  | aread _ => exact issueE_memOk hs (fun _ => areadBody_memOk hs)
  | aadd _ => exact issueE_memOk hs (fun _ => aaddBody_memOk hs)
  | glean _ => exact issueE_memOk hs (fun _ => gleanBody_memOk hs)
  | nextit _ => exact issueE_memOk hs (fun _ => nextitBody_memOk hs)
  | glend _ => exact issueE_memOk hs (fun _ => glendBody_memOk hs)
  | gadd _ => exact issueE_memOk hs (fun _ => gaddBody_memOk hs)
  | arnew _ => exact issueE_memOk hs (fun _ => arnewBody_memOk hs)
  | ardrop _ | arseal _ => exact issueE_memOk hs (fun _ => changeBody_memOk hs)
  | arqry _ => exact issueE_memOk hs (fun _ => arqryBody_memOk hs)
  | aalloc _ => exact issueE_memOk hs (fun _ => aallocBody_memOk hs)
  | statrd _ => exact issueE_memOk hs (fun _ => statrdBody_memOk hs)
  | statfl _ => exact issueE_memOk hs (fun _ => recordAct_memOk hs (fun _ _ hu => hu.pushAll))
  | statrst _ => exact issueE_memOk hs (fun _ => recordAct_memOk hs (fun _ _ hu => hu.resetRecord))
  | task _ => exact execTask_memOk hs
  | tdep _ => exact execTdep_memOk hs
  | tsig _ => exact execTsig_memOk hs
  | uint _ => exact issueE_memOk hs (fun _ => uintBody_memOk hs)
  | pmrd _ => exact issueE_memOk hs (fun _ => pmrdBody_memOk hs)
  | mark _ => exact issueE_memOk hs (fun _ => markBody_memOk hs)
  | clk _ => exact issueE_memOk hs (fun _ => clkBody_memOk hs)
  | rowCollectiveAct _ _ => exact evRowCollectiveAct_memOk hs
  | rowStall _ _ => exact evRowStall_memOk hs
  | flagCompletion _ _ => exact evFlagCompletion_memOk hs
  | scoreboardResult _ _ => exact evScoreboardResult_memOk hs
  | feTimeout _ _ => exact evFeTimeout_memOk hs
  | waitaPoll _ _ => exact evWaitaPoll_memOk hs
  | setPhaseComplete _ _ => exact evSetPhaseComplete_memOk hs
  | copyUnitService _ => exact evCopyUnitService_memOk hs
  | copyComplete _ _ => exact evCopyComplete_memOk hs
  | qpushTileFilled _ _ _ => exact evQpushTileFilled_memOk hs
  | qadvTileFree _ _ _ => exact evQadvTileFree_memOk hs
  | qrstReset _ _ => exact evQrstReset_memOk hs
  | copyApertureStart _ _ _ => exact evCopyApertureStart_memOk hs
  | matrixCommandComplete _ _ => exact evMatrixCommandComplete_memOk hs
  | helperAbandon _ _ _ => exact evHelperAbandon_memOk hs
  | arenaChangePoint _ _ => exact evArenaChangePoint_memOk hs
  | sealPoint _ _ => exact evSealPoint_memOk hs
  | sweepEnd _ _ => exact evSweepEnd_memOk hs
  | windrowPushTimer _ => exact evWindrowPushTimer_memOk hs
  | windrowMerge _ => exact evWindrowMerge_memOk hs
  | queueSubmit _ _ _ => exact evQueueSubmit_memOk hs
  | placement _ => exact evPlacement_memOk hs
  | agingTick _ => exact evAgingTick_memOk hs
  | coresidentSetTimeout _ _ => exact evCoresidentSetTimeout_memOk hs
  | groupExit _ => exact evGroupExit_memOk hs
  | taskRetire _ => exact evTaskRetire_memOk hs
  | sheafDraw _ _ => exact evSheafDraw_memOk hs
  | binAgeExpiry _ _ => exact evBinAgeExpiry_memOk hs
  | yieldDelayExpiry _ _ => exact evYieldDelayExpiry_memOk hs
  | pinTimeout _ => exact evPinTimeout_memOk hs
  | saveFrame _ => exact evSaveFrame_memOk hs
  | resultDelivery _ _ => exact evResultDelivery_memOk hs
  | restore _ _ => exact evRestore_memOk hs
  | worldSwitch _ _ => exact evWorldSwitch_memOk hs
  | counterLowRead _ _ _ _ => exact evCounterLowRead_memOk hs
  | counterHighRead _ _ _ _ => exact evCounterHighRead_memOk hs
  | debugHalt _ => exact evDebugHalt_memOk hs
  | pageWalk _ => exact evPageWalk_memOk hs
  | pagerInval _ _ => exact evPagerInval_memOk hs
  | pagerReplay _ _ => exact evPagerReplay_memOk hs
  | pagerReplayFail _ _ => exact evPagerReplayFail_memOk hs
  | folakRead _ => exact evFolakRead_memOk hs
  | folakWrite _ => exact evFolakWrite_memOk hs
  | folakAtomic _ => exact evFolakAtomic_memOk hs
  | folakReduction _ => exact evFolakReduction_memOk hs
  | folakDataResponse _ => exact evFolakDataResponse_memOk hs
  | folakAcknowledgement _ => exact evFolakAcknowledgement_memOk hs
  | folakRevoked _ => exact evFolakRevoked_memOk hs
  | folakError _ => exact evFolakError_memOk hs
  | linkRetransmit _ => exact evLinkRetransmit_memOk hs
  | nodeLoss _ => exact evNodeLoss_memOk hs
  | mkaSakInstall _ _ _ => exact evMkaSakInstall_memOk hs
  | windowExport _ _ => exact evWindowExport_memOk hs
  | windowImport _ _ => exact evWindowImport_memOk hs
  | windowRevoke _ => exact evWindowRevoke_memOk hs
  | revokeFlit _ _ => exact evRevokeFlit_memOk hs
  | drainMarker _ _ => exact evDrainMarker_memOk hs
  | treg _ _ => exact evTreg_memOk hs
  | reshape _ => exact evReshape_memOk hs
  | ptpMessage _ => exact evPtpMessage_memOk hs
  | clockLoss => exact evClockLoss_memOk hs
  | gangRegister _ _ => exact evGangRegister_memOk hs
  | gangStop _ _ => exact evGangStop_memOk hs
  | gangResume _ _ => exact evGangResume_memOk hs
  | gangAbort _ _ => exact evGangAbort_memOk hs
  | gangUnregister _ _ => exact evGangUnregister_memOk hs
  | gangStartTime _ _ => exact evGangStartTime_memOk hs
  | gangStopTime _ _ => exact evGangStopTime_memOk hs
  | gangGuardExpiry _ _ => exact evGangGuardExpiry_memOk hs
  | stragglerPolicyExpiry _ _ => exact evStragglerPolicyExpiry_memOk hs
  | gangResumeTime _ _ => exact evGangResumeTime_memOk hs
  | gangSilenceTimeout _ _ => exact evGangSilenceTimeout_memOk hs
  | gangMsgStop _ _ => exact evGangMsgStop_memOk hs
  | gangMsgResume _ _ => exact evGangMsgResume_memOk hs
  | gangMsgAbort _ _ => exact evGangMsgAbort_memOk hs
  | gangMsgHalted _ _ => exact evGangMsgHalted_memOk hs
  | gangMsgSaved _ _ => exact evGangMsgSaved_memOk hs
  | gangMsgResumed _ _ => exact evGangMsgResumed_memOk hs
  | gangMsgMode _ _ => exact evGangMsgMode_memOk hs
  | gangMsgArrive _ _ => exact evGangMsgArrive_memOk hs
  | gangMsgRelease _ _ => exact evGangMsgRelease_memOk hs
  | gangMsgReadyToGo _ _ => exact evGangMsgReadyToGo_memOk hs
  | gangMsgGo _ _ => exact evGangMsgGo_memOk hs
  | gangMsgFlush _ _ => exact evGangMsgFlush_memOk hs
  | powerGood => exact evPowerGood_memOk hs
  | stageBComplete _ _ => exact evStageBComplete_memOk hs
  | provisioningRecord _ => exact evProvisioningRecord_memOk hs
  | partitionStart _ _ => exact evPartitionStart_memOk hs
  | clusterRelease _ => exact evClusterRelease_memOk hs
  | vfReset _ => exact evVfReset_memOk hs
  | attestationQuote _ => exact evAttestationQuote_memOk hs
  | thermalThrottle _ => exact evThermalThrottle_memOk hs
  | thermalShutdown => exact evThermalShutdown_memOk hs
  | registerWrite _ _ => exact evRegisterWrite_memOk hs
  | lossOfLock => exact evLossOfLock_memOk hs
  | linkUp _ => exact evLinkUp_memOk hs
  | folakFrame _ => exact evFolakFrame_memOk hs
  | applicationCoreAccess _ => exact evCoreAccess_memOk hs
  | partitionStageMiss _ _ _ => exact evPartitionStageMiss_memOk hs
  | debuggerHold _ _ => exact evDebuggerHold_memOk hs

/-! ### Fetch and issue -/

theorem State.MemOk.runWords {s : State} {gi si : Nat} {g : Group} {sh : Sheaf} {ws : List Word} (hs : s.MemOk) :
    NextMemOk (s.runWords gi si g sh ws) := by
  unfold State.runWords
  refine .ite hs.wordFault ?_
  split
  · exact .ite hs.wordFault (.ite hs.stopAt (exec_memOk hs))
  · exact hs.wordFault

theorem State.MemOk.fetchTags {s : State} {g : Group} {pc n : Nat} (hs : s.MemOk) : (s.fetchTags g pc n).MemOk := by
  unfold State.fetchTags
  refine hs.foldl fun u va hu => ?_
  split
  · exact .ite hu hu.recall.readLine
  · exact hu

theorem State.MemOk.afterFetch {s : State} {gi si : Nat} {g : Group} {sh : Sheaf} {n : Nat} (hs : s.MemOk) :
    (s.afterFetch gi si g sh n).MemOk :=
  State.MemOk.holdWords (.ite (State.MemOk.keepWords (State.MemOk.fetchTags (hs.of_contents rfl rfl)))
    (State.MemOk.fetchTags (hs.of_contents rfl rfl)))

theorem State.MemOk.issueAt {s : State} {gi si : Nat} (hs : s.MemOk) : NextMemOk (s.issueAt gi si) := by
  unfold State.issueAt
  split
  · exact hs
  · split
    · exact hs
    · refine .ite hs ?_
      dsimp only
      split
      · split
        · exact hs.of_refusal rfl
        · exact State.MemOk.runWords (State.MemOk.afterFetch (hs.of_ms rfl))
      · exact State.MemOk.missAt (hs.of_ms rfl)
      · exact State.MemOk.wordFault (hs.of_ms rfl)

theorem State.MemOk.tryOffers {cl slot : Nat} {xs : List Offer} {s : State} (hs : s.MemOk) :
    NextMemOk (State.tryOffers cl slot xs s) := by
  induction xs generalizing s with
  | nil => exact hs
  | cons x xs ih =>
    unfold State.tryOffers
    split
    · exact ih hs
    · next gi si _ =>
      refine .ite (ih hs) ?_
      have h := hs.issueAt (gi := gi) (si := si)
      split
      · next t ht =>
        rw [ht] at h
        exact .ite h (ih h)
      · exact h

theorem State.MemOk.issueSlot {s : State} {cl slot : Nat} (hs : s.MemOk) : NextMemOk (s.issueSlot cl slot) := by
  unfold State.issueSlot
  split
  · dsimp only
    split
    · exact hs.issueAt
    · exact hs
  · dsimp only
    split
    · exact hs.issueAt
    · exact State.MemOk.tryOffers (.ite hs hs.countSlot)

/-! ### What happens next -/

theorem State.MemOk.after {s : State} {o : Host.Outcome State Fault Refusal} (hs : s.MemOk) (ho : NextMemOk o) :
    (s.after o).MemOk := by
  cases o with
  | next t => exact ho
  | fault r => exact hs
  | refused r => exact hs

theorem State.MemOk.runSlot {fuel : Nat} {s : State} {cl slot : Nat} (hs : s.MemOk) :
    (State.runSlot fuel s cl slot).MemOk := by
  induction fuel generalizing s with
  | zero => exact hs
  | succ fuel ih => exact ih (hs.after hs.issueSlot)

theorem State.MemOk.drawAll {fuel : Nat} {s : State} {cl slot : Nat} (hs : s.MemOk) :
    (State.drawAll fuel s cl slot).MemOk := by
  induction fuel generalizing s with
  | zero => exact hs
  | succ fuel ih => exact ih (evSheafDraw_memOk hs)

theorem State.MemOk.untilNone {α : Type} {get : State → List α} {p : State → α → Bool} {f : Nat → State → State}
    {fuel : Nat} {s : State} (hs : s.MemOk) (hf : ∀ i u, u.MemOk → (f i u).MemOk) :
    (State.untilNone get p f fuel s).MemOk := by
  induction fuel generalizing s with
  | zero => exact hs
  | succ fuel ih =>
    unfold State.untilNone
    split
    · exact ih (hf _ _ hs)
    · exact hs

theorem State.MemOk.stopGangs {s : State} (hs : s.MemOk) : s.stopGangs.MemOk := by
  unfold State.stopGangs
  refine hs.foldl fun u t hu => ?_
  split
  · exact evGangStopTime_memOk hu
  · exact hu

theorem State.MemOk.due {s : State} (hs : s.MemOk) : s.due.MemOk := by
  unfold State.due
  extract_lets u v w x
  have hu : u.MemOk := hs.stopGangs.settleHalts
  have hv : v.MemOk := .ite hu.endPins hu
  have hw : w.MemOk := hv.untilNone fun _ _ h => evWindrowPushTimer_memOk h
  have hx : x.MemOk := hw.untilNone fun _ _ h => evWindrowMerge_memOk h
  exact .ite hx.answered hx

theorem State.MemOk.clockStep {s : State} {tai : Nat} (hs : s.MemOk) : (s.clockStep tai).MemOk := by
  unfold State.clockStep
  refine State.MemOk.due (State.MemOk.tick (State.MemOk.foldl ?_ fun _ _ hu => hu.drawAll))
  exact .ite hs (hs.foldl fun _ _ hu => hu.runSlot)

theorem State.MemOk.pass {tai n : Nat} {s : State} (hs : s.MemOk) : (State.pass tai n s).MemOk := by
  induction n generalizing s with
  | zero => exact hs
  | succ n ih => exact .ite hs.tick (ih hs.clockStep)

theorem State.MemOk.harmLine {s : State} {l : Nat} (hs : s.MemOk) : (s.harmLine l).MemOk := by
  unfold State.harmLine
  split
  · exact hs.noteError.of_contents rfl rfl
  · split <;> exact hs.noteError.of_contents rfl rfl

theorem State.MemOk.harm {s : State} {h : Harm} (hs : s.MemOk) : (s.harm h).MemOk := by
  cases h with
  | soft a die loc cl => exact hs.noteError
  | vreg gi t r | sreg gi r | word gi o | cell gi t n =>
    dsimp only [State.harm]
    split
    · exact hs
    · exact hs.noteError.setGroup
  | part i =>
    dsimp only [State.harm]
    split
    · exact hs
    · next p _ =>
      have h : (s.noteError .clusterData (dieOf p.cl) p.pa true none).MemOk := hs.noteError
      exact ⟨h.1, forall_mem_modAt h.2 fun _ hq => hq⟩
  | weight gi w =>
    dsimp only [State.harm]
    split
    · exact hs
    · exact .ite hs.noteError.setGroup hs.noteError
  | windrow i =>
    dsimp only [State.harm]
    split
    · exact hs
    · exact hs.noteError.of_contents rfl rfl
  | line l => exact hs.harmLine

theorem State.MemOk.tryMove {s : State} {m : Sched} (hs : s.MemOk) : NextMemOk (s.tryMove m) := by
  cases m with
  | event i => exact .ite (exec_memOk hs) hs
  | issue cl slot => exact .ite hs hs.issueSlot
  | time clocks tai => exact hs.pass
  | evict cl line =>
    show State.MemOk _
    split
    · exact .ite hs.evictLine hs
    · exact hs
  | spill slice line =>
    show State.MemOk _
    split
    · exact .ite hs hs.spillLine
    · exact hs
  | rotate n =>
    refine ⟨hs.1, fun p hp => hs.2 p ?_⟩
    rcases List.mem_append.mp hp with h | h
    · exact List.mem_of_mem_drop h
    · exact List.mem_of_mem_take h
  | refetch cl pa => exact hs.of_ms rfl
  | damage h => exact hs.harm

theorem State.MemOk.deliver {s : State} {a : InFlit} (hs : s.MemOk) : (s.deliver a).MemOk := by
  unfold State.deliver
  split
  · exact evFolakRead_memOk hs
  · exact evFolakWrite_memOk hs
  · exact evFolakAtomic_memOk hs
  · exact evFolakReduction_memOk hs
  · exact evFolakDataResponse_memOk hs
  · exact evFolakAcknowledgement_memOk hs
  · exact evFolakRevoked_memOk hs
  · exact evFolakError_memOk hs
  · exact evRevokeFlit_memOk hs
  · exact evDrainMarker_memOk hs
  · exact .ite (evGangMsgStop_memOk hs) (.ite (evGangMsgResume_memOk hs)
      (.ite (evGangMsgAbort_memOk hs) (.ite (evGangMsgHalted_memOk hs)
      (.ite (evGangMsgSaved_memOk hs) (.ite (evGangMsgResumed_memOk hs)
      (.ite (evGangMsgMode_memOk hs) (.ite (evGangMsgArrive_memOk hs)
      (.ite (evGangMsgRelease_memOk hs) (.ite (evGangMsgReadyToGo_memOk hs)
      (.ite (evGangMsgGo_memOk hs) (.ite (evGangMsgFlush_memOk hs) (hs.arrived (fun _ hu => hu)))))))))))))

theorem State.MemOk.firstDelivery {s : State} {xs : List InFlit} (hs : s.MemOk) : (s.firstDelivery xs).MemOk := by
  induction xs with
  | nil => exact hs
  | cons x xs ih => exact .ite ih hs.deliver

theorem State.MemOk.firstEvent {s : State} {is : List Instr} (hs : s.MemOk) : (s.firstEvent is).MemOk := by
  induction is with
  | nil => exact hs
  | cons i is ih =>
    have h := exec_memOk (i := i) hs
    unfold State.firstEvent
    split
    · next t ht =>
      rw [ht] at h
      exact .ite ih h
    · exact ih

theorem State.MemOk.choose {s : State} (hs : s.MemOk) : NextMemOk s.choose :=
  hs.firstDelivery.firstEvent.clockStep.gap

/-! ### The step -/

theorem State.MemOk.darkMove {s : State} {a : Sched} (hs : s.MemOk) : NextMemOk (s.darkMove a) := by
  unfold State.darkMove
  split
  · exact exec_memOk hs
  · exact hs

/-- EVERY STEP KEEPS THE INVARIANT: what the schedule asks for, what a dark package answers, and what is chosen. -/
theorem step_memOk {s : State} (hs : s.MemOk) : NextMemOk (step s) := by
  unfold step
  split
  · next m rest _ =>
    have ht : ({ s with schedule := rest } : State).MemOk := hs.of_ms rfl
    exact .ite ht.darkMove ht.tryMove
  · exact .ite hs hs.choose

/-- Settles O6: the invariant is kept by every operation that a step is put together from, so by the step. -/
theorem stepKeepsMemory : Obligations.StepKeepsMemory := by
  unfold Obligations.StepKeepsMemory
  intro s t hs h
  have ht := step_memOk hs
  rw [h] at ht
  exact ht

end Sys2Proof.Machine
end

section
/-! PROOFS. Bytes that are written are the bytes that are read (O10). -/

namespace Sys2Proof.Machine

/-- Bytes that have been written are the bytes that are read there (R3). -/
theorem Memory.readN_writeN_same {m : Memory} (hm : wf m = true) (a : Nat) (xs : List Byte) :
    readN (writeN m a xs) a xs.length = xs := by
  induction xs generalizing m a with
  | nil => rfl
  | cons x xs ih =>
    have hw : wf (write m a x) = true := write_wf a x hm
    have hread : read (writeN (write m a x) (a + 1) xs) a = x := by
      rw [read_writeN_other hw (a + 1) xs (by omega), read_write_same a x hm]
    rw [writeN_cons, List.length_cons, readN_succ, hread, ih hw]

/-- Settles O10, by the laws of reading after writing. -/
theorem memoryWrite : Obligations.MemoryWrite := by
  unfold Obligations.MemoryWrite
  intro m a xs hm
  exact ⟨Memory.readN_writeN_same hm a xs, fun b hb => Memory.read_writeN_other hm a xs hb, Memory.writeN_wf a xs hm⟩

end Sys2Proof.Machine
end

section
/-! PROOFS. Stores of application cores to the Lammas command window, and why O55 fails. -/

namespace Sys2Proof.Machine

/-- A store by an application core to a register page that is mapped for it. -/
theorem exec_applicationCoreAccess_storePage {s : State} {a : CoreAccess} (hin : s.pageIn a.vf a.core a.page = true)
    (hm : a.page ≠ .memory) (hs : a.store = true) : exec (.applicationCoreAccess a) s = .next (s.storePage a) := by
  show Host.Outcome.next (evCoreAccess a s) = _
  unfold evCoreAccess
  simp only [hin, hm, hs, Bool.not_true, Bool.false_eq_true, if_false, if_true]

/-- A store of eight bytes in the Lammas window that runs past the end of the command record is discarded and counted
(R337). -/
theorem State.storePage_lammas_pastRecord {s : State} {a : CoreAccess} (hp : a.page = .lammas) (hw : a.width = 8)
    (ha : a.va.toNat % 8 ≠ 0) (hx : 0x78 < a.va.toNat) : s.storePage a = s.note .store := by
  have hr : ¬ (0x40 ≤ a.va.toNat ∧ a.va.toNat + 8 ≤ 0x80) := by omega
  unfold State.storePage
  simp only [hp, hw, ha, hr, decide_true, decide_false, Bool.and_false, Bool.false_eq_true, if_false]

/-- Bytes of a command record that do not end it count nothing. -/
theorem State.gangBytes_tally {s : State} {vf off : Nat} {data : List Byte} (h : off + data.length ≠ 64) :
    (s.gangBytes vf off data).tally = s.tally := by
  unfold State.gangBytes
  simp only [h, if_false, State.setVf_tally]

/-- A partition 0 of core 0 and VF 0. -/
def loneCore : PartRec :=
  { part := 0, cores := [0], groups := [], quarters := [], ileaves := [], port := 0, storage := none, push := 8
    weight := 1, share := none
    vfs := [{ vf := 0, owner := 5, wins := [], poolBase := 0, poolN := 0, descBase := 0, rootBase := 0, rootQuota := 0
              caps := [], slice := 0 }] }

/-- The reset state under a record of that partition, which has left reset. -/
def State.withLoneCore : State :=
  { State.reset with chip := { State.reset.chip with
    stage := 3
    applied := some { seq := 1, verified := true, digest := 0, parts := [loneCore], split := [], ranges := []
                      routes := [], owners := [(0, 5)] }
    parts := 1 :: List.replicate 7 0 } }

theorem State.withLoneCore_pageIn : State.withLoneCore.pageIn 0 0 .lammas = true := by decide

/-- Core 0 stores eight bytes at the last byte of the Lammas command record of VF 0. -/
def storePastRecord : CoreAccess :=
  { vf := 0, core := 0, page := .lammas, va := 0x7F, width := 8, store := true, fetch := false
    data := List.replicate 8 1 }

/-- Refutes O55: the clause about the Lammas window asks for an offset in the command record, but not for one at which
eight bytes still end inside it. Eight bytes at 0x7F run past the record: the model discards and counts the store, as
R337 says of every other store, where the clause has its bytes go to the record and nothing counted. -/
theorem not_coresAndTargets : ¬ Obligations.CoresAndTargets := by
  unfold Obligations.CoresAndTargets
  rintro ⟨-, h⟩
  obtain ⟨-, -, -, hwords, -, -⟩ := h State.withLoneCore storePastRecord
  obtain ⟨-, hlammas, -⟩ := hwords State.withLoneCore_pageIn rfl rfl
  have hrun := hlammas rfl (by decide) (by decide)
  rw [exec_applicationCoreAccess_storePage State.withLoneCore_pageIn (by decide) rfl,
    State.storePage_lammas_pastRecord rfl rfl (by decide) (by decide)] at hrun
  have htally := congrArg State.tally (Host.Outcome.next.inj hrun)
  rw [State.gangBytes_tally (by decide)] at htally
  exact absurd htally (by decide)

end Sys2Proof.Machine
end

section
/-! PROOFS. What the end of an instruction, and a recall at a home, leave of a thread and of a group (R66 to R68, R147,
R188): all but where threads stand. -/

namespace Sys2Proof.Machine

/-- A thread without where it stands and its part in a glean: what moving a sheaf on leaves of it (R66, R68, R257). -/
def Thread.core (t : Thread) : Thread := { t with place := .sheaf, pc := 0, entered := false, part := none }

/-- A group without where its threads stand, its sheaves and its fences. -/
def Group.core (g : Group) : Group := { g with threads := g.threads.map Thread.core, sheaves := [], fences := [] }

/-- The cores of all groups. -/
def State.cores (s : State) : List Group := s.groups.map Group.core

/-! ### What is read of a core -/

@[simp] theorem Thread.core_key (t : Thread) : t.core.key = t.key := rfl
@[simp] theorem Thread.core_draws (t : Thread) : t.core.draws = t.draws := rfl

/-- The thread of a key is found in a core. -/
theorem Group.core_find (g : Group) (k : Key) : g.core.find k = (g.find k).map Thread.core := by
  exact List.find?_map ..

theorem Group.find_core_congr {g h : Group} (hc : h.core = g.core) (k : Key) :
    (h.find k).map Thread.core = (g.find k).map Thread.core := by
  rw [← Group.core_find, ← Group.core_find, hc]

theorem State.cores_get (s : State) (gi : Nat) : s.cores[gi]? = (s.groups[gi]?).map Group.core := List.getElem?_map ..

/-- Where the cores are the same, so is every group's. -/
theorem State.core_of_cores {s t : State} (h : t.cores = s.cores) (gi : Nat) :
    (t.groups[gi]?).map Group.core = (s.groups[gi]?).map Group.core := by
  rw [← State.cores_get, ← State.cores_get, h]

/-- A group of a state whose cores are another's, with the core that it has there. -/
theorem State.group_of_cores {s t : State} {gi : Nat} {g : Group} (h : t.cores = s.cores) (hg : s.groups[gi]? = some g) :
    ∃ g', t.groups[gi]? = some g' ∧ g'.core = g.core := by
  have := State.core_of_cores h gi
  rw [hg] at this
  exact Option.map_eq_some_iff.mp this

/-- The core of a thread in terms of the cores. -/
theorem State.thr_core (s : State) (gi : Nat) (k : Key) :
    (s.thr gi k).map Thread.core = (s.cores[gi]?).bind fun g => g.find k := by
  unfold State.thr
  rw [State.cores_get]
  cases s.groups[gi]? with
  | none => rfl
  | some g => exact (Group.core_find g k).symm

theorem State.thr_of_cores {s t : State} (h : t.cores = s.cores) (gi : Nat) (k : Key) :
    (t.thr gi k).map Thread.core = (s.thr gi k).map Thread.core := by
  rw [State.thr_core, State.thr_core, h]

/-- What is read of a thread's core is the same where the cores are. -/
theorem State.thr_map_of_cores {α : Type} {s t : State} (h : t.cores = s.cores) (gi : Nat) (k : Key) (f : Thread → α)
    (hf : ∀ u : Thread, f u.core = f u) : (t.thr gi k).map f = (s.thr gi k).map f := by
  have hcore : ∀ o : Option Thread, o.map f = (o.map Thread.core).map f := fun o => by
    rw [Option.map_map]
    exact congrArg (o.map ·) (funext fun u => (hf u).symm)
  rw [hcore, hcore (s.thr gi k), State.thr_of_cores h]

/-- Where the cores are the same, every register is. -/
theorem State.reg_of_cores {s t : State} (h : t.cores = s.cores) (gi : Nat) (k : Key) (r : Reg) :
    t.reg gi k r = s.reg gi k r := by
  cases r with
  | v i => exact State.thr_map_of_cores h gi k _ fun _ => rfl
  | p i => exact State.thr_map_of_cores h gi k _ fun _ => rfl
  | s i =>
    have hcore : ∀ u : State, u.reg gi k (.s i) = ((u.groups[gi]?).map Group.core).map fun g => g.s.getD i 0 := fun u => by
      rw [Option.map_map]; rfl
    rw [hcore, hcore s, State.core_of_cores h]

/-! ### Updates that leave the cores -/

/-- A change of an element that a reading does not see is not seen in the list. -/
theorem map_modAt_of {α β : Type} (r : α → β) (f : α → α) (hf : ∀ x, r (f x) = r x) (l : List α) (i : Nat) :
    (modAt l i f).map r = l.map r := by
  induction l generalizing i with
  | nil => rfl
  | cons x xs ih =>
    cases i with
    | zero => simp [modAt, hf]
    | succ i => simp [modAt, ih]

theorem State.setGroup_cores (s : State) (i : Nat) (f : Group → Group) (hf : ∀ g, (f g).core = g.core) :
    (s.setGroup i f).cores = s.cores := map_modAt_of Group.core f hf s.groups i

@[simp] theorem State.setSheaf_cores (s : State) (gi si : Nat) (f : Sheaf → Sheaf) : (s.setSheaf gi si f).cores = s.cores :=
  s.setGroup_cores gi _ fun _ => rfl

/-- A change of threads that leaves their cores leaves the group's. -/
theorem Group.core_mapThreads (g : Group) (f : Thread → Thread) (hf : ∀ t, (f t).core = t.core) :
    ({ g with threads := g.threads.map f } : Group).core = g.core := by
  unfold Group.core
  simp [Function.comp_def, hf]

theorem Group.core_foldl {α : Type} (f : Group → α → Group) (hf : ∀ g x, (f g x).core = g.core) (xs : List α) (g : Group) :
    (xs.foldl f g).core = g.core := by
  induction xs generalizing g with
  | nil => rfl
  | cons x xs ih => rw [List.foldl_cons, ih, hf]

@[simp] theorem Group.send_core (g : Group) (k : Key) (p : Place) (pc : Addr) : (g.send k p pc).core = g.core :=
  g.core_mapThreads _ fun t => by split <;> rfl

@[simp] theorem Group.file_core (g : Group) (clock : Nat) (k : Key) (pc : Addr) : (g.file clock k pc).core = g.core :=
  g.send_core k _ pc

@[simp] theorem Group.sweepSheaves_core (g : Group) : g.sweepSheaves.core = g.core := rfl

@[simp] theorem Group.closeRegions_core (g : Group) (clock si : Nat) : (g.closeRegions clock si).core = g.core := by
  unfold Group.closeRegions
  split
  · rfl
  · next sh _ =>
    exact Group.core_foldl _ (fun g k => by split <;> simp) sh.members g

/-- A sheaf that ends its clause moves its threads alone (R66, R147). -/
@[simp] theorem State.fallThrough_cores (s : State) (gi si : Nat) (pc : Addr) : (s.fallThrough gi si pc).cores = s.cores := by
  unfold State.fallThrough
  split
  · rfl
  · split
    · refine s.setGroup_cores gi _ fun g => ?_
      dsimp only
      split
      · exact g.closeRegions_core _ _
      · rw [Group.sweepSheaves_core, Group.core_foldl _ fun g k => g.file_core _ k _, Group.closeRegions_core]
    · rw [State.setSheaf_cores]
      exact s.setGroup_cores gi _ fun g => g.core_mapThreads _ fun t => by split <;> rfl

@[simp] theorem State.advance_cores (s : State) (c : Cx) : (s.advance c).cores = s.cores := by
  unfold State.advance
  dsimp only
  split <;> simp

@[simp] theorem State.tidy_cores (s : State) (gi : Nat) : (s.tidy gi).cores = s.cores := s.setGroup_cores gi _ fun _ => rfl

@[simp] theorem State.mark_cores (s : State) (c : Cx) : (s.mark c).cores = s.cores := rfl

@[simp] theorem State.countIssue_cores (s : State) (c : Cx) : (s.countIssue c).cores = s.cores := by
  unfold State.countIssue
  dsimp only
  rw [State.setSheaf_cores]
  refine State.setGroup_cores _ c.gi _ fun g => g.core_mapThreads _ fun t => ?_
  split
  · split
    · split <;> rfl
    · rfl
  · rfl

/-- THE CLOSING OF AN INSTRUCTION that has taken effect moves its sheaf on, and nothing else of the groups (R66 to R68). -/
theorem Act.outcome_done_cores (c : Cx) (s s' : State) : ((Act.done s').outcome c s).cores = s'.cores := by
  simp only [Act.outcome, Act.close, State.mark_cores, State.tidy_cores, State.advance_cores, State.countIssue_cores]

theorem Act.outcome_done_ms (c : Cx) (s s' : State) : ((Act.done s').outcome c s).ms = s'.ms :=
  Act.close_done_ms c s s'

/-! ### Work at a home -/

/-- What work at a home leaves: the groups' cores and the engines' queues. -/
def State.Spares (s t : State) : Prop := t.cores = s.cores ∧ t.fill = s.fill ∧ t.compute = s.compute

theorem State.Spares.refl (s : State) : s.Spares s := ⟨rfl, rfl, rfl⟩

theorem State.Spares.trans {s t u : State} (h : s.Spares t) (h' : t.Spares u) : s.Spares u :=
  ⟨h'.1.trans h.1, h'.2.1.trans h.2.1, h'.2.2.trans h.2.2⟩

theorem State.Spares.foldl {α : Type} {f : State → α → State} (hf : ∀ (u : State) x, u.Spares (f u x)) (xs : List α) (s : State) :
    s.Spares (xs.foldl f s) := by
  induction xs generalizing s with
  | nil => exact .refl s
  | cons x xs ih => exact (hf s x).trans (ih _)

theorem State.spillLine_spares (s : State) (vf : Nat) (x : SLine) : s.Spares (s.spillLine vf x) := by
  unfold State.spillLine
  dsimp only
  split <;> exact ⟨rfl, rfl, rfl⟩

theorem State.fillSlice_spares (s : State) (vf slice line arena : Nat) (kind : SliceKind) :
    s.Spares (s.fillSlice vf slice line arena kind) := by
  unfold State.fillSlice
  split
  · exact (s.spillLine_spares _ _).trans ⟨rfl, rfl, rfl⟩
  · exact ⟨rfl, rfl, rfl⟩

theorem State.soil_spares (s : State) (line : Nat) : s.Spares (s.soil line) := by
  unfold State.soil
  split <;> exact ⟨rfl, rfl, rfl⟩

theorem State.atHome_spares (s : State) (vf arena pa : Nat) (write : Bool) : s.Spares (s.atHome vf arena pa write) := by
  have counted : s.Spares ((s.countShared vf 0x101 1).countShared vf 0x104 1) := ⟨rfl, rfl, rfl⟩
  unfold State.atHome
  dsimp only
  split
  · split <;> exact ⟨rfl, rfl, rfl⟩
  · split
    · exact (counted.trans (State.soil_spares _ _)).trans (State.fillSlice_spares _ _ _ _ _ _)
    · split
      · exact counted
      · exact counted.trans (State.fillSlice_spares _ _ _ _ _ _)

theorem State.wakeLine_spares (s : State) (line : Nat) : s.Spares (s.wakeLine line) := by
  refine ⟨?_, rfl, rfl⟩
  simp only [State.cores, State.wakeLine, List.map_map]
  refine List.map_congr_left fun g _ => g.core_mapThreads _ fun t => ?_
  unfold Thread.wake
  split
  · split <;> rfl
  · rfl

theorem State.writeHome_spares (s : State) (cl : Option Nat) (vf arena line : Nat) :
    s.Spares (s.writeHome cl vf arena line) :=
  ((s.atHome_spares vf arena (line * 128) true).trans (t := (s.atHome vf arena (line * 128) true).invalidate cl line)
    ⟨rfl, rfl, rfl⟩).trans (.trans ⟨rfl, rfl, rfl⟩ (State.wakeLine_spares _ line))

theorem State.notePartials_spares (s : State) (line : Nat) (ps : List Partial) : s.Spares (s.notePartials line ps) := by
  refine .foldl ?_ ps s
  exact fun _ _ => ⟨rfl, rfl, rfl⟩

/-- A recall wakes the waiters of its line, and leaves the rest of the groups and the queues (R188, R204). -/
theorem State.recall_spares (s : State) (line : Nat) : s.Spares (s.recall line) := by
  unfold State.recall
  dsimp only
  split
  · exact .refl s
  · refine .trans ?_ (State.writeHome_spares _ _ _ _ _)
    exact s.notePartials_spares line _

theorem State.fenceRecalls_spares (s : State) : s.Spares s.fenceRecalls :=
  .foldl (fun u _ => u.recall_spares _) _ s

theorem State.sweepFences_spares (s : State) : s.Spares s.sweepFences := by
  refine s.fenceRecalls_spares.trans ⟨?_, rfl, rfl⟩
  simp only [State.cores, State.sweepFences, List.map_map]
  exact List.map_congr_left fun g _ => rfl

/-- Recalls of fences change no byte that is seen (R188). -/
theorem State.fenceRecalls_byte {s : State} (h : s.MemOk) (a : Nat) : s.fenceRecalls.byte a = s.byte a := by
  have keep : ∀ (ps : List Partial) (u : State), u.MemOk →
      (ps.foldl (fun s p => s.recall (p.pa / 128)) u).byte a = u.byte a := by
    intro ps
    induction ps with
    | nil => exact fun _ _ => rfl
    | cons p ps ih => exact fun u hu => (ih _ (State.recall_memOk _ hu)).trans (State.recall_byte _ a hu)
  exact keep _ s h

theorem State.sweepFences_byte {s : State} (h : s.MemOk) (a : Nat) : s.sweepFences.byte a = s.byte a :=
  State.fenceRecalls_byte h a

end Sys2Proof.Machine
end

section
/-! PROOFS. Registers after the writes of an instruction (R6, R19, R20, R83): each active thread's destinations hold what it
wrote last, and every other register is as before. -/

namespace Sys2Proof.Machine

/-! ### One write -/

/-- A register of a group: of the thread of a key, or S. -/
def Group.reg (g : Group) (k : Key) : Reg → Option Word
  | .v i => (g.find k).map fun t => t.v.getD i 0
  | .s i => some (g.s.getD i 0)
  | .p i => (g.find k).map fun t => if t.pred i then 1 else 0

/-- The registers of a state are those of its groups. -/
theorem State.reg_eq {s : State} {gi : Nat} {g : Group} (hg : s.groups[gi]? = some g) (k : Key) (r : Reg) :
    s.reg gi k r = g.reg k r := by
  cases r <;> simp [State.reg, State.thr, Group.reg, hg]

/-- A word as it reads back from a register: a predicate reads as 1 or 0. -/
def Reg.shown : Reg → Word → Word
  | .p _, x => if x = 0 then 0 else 1
  | _, x => x

/-- A register that exists, in a launch with a number of V registers, and that a write changes: P7 does not (R17, R19, R20). -/
def Reg.takes (nv : Nat) : Reg → Prop
  | .v i => i < nv
  | .s i => i < 512
  | .p i => i < 7

/-- What a register of one thread has to be to be the same one of another: S, or of that thread (R19). -/
def Reg.sharedOr (p : Prop) : Reg → Prop
  | .s _ => True
  | _ => p

theorem Thread.put_v_other (t : Thread) {i j : Nat} (x : Word) (h : i ≠ j) :
    (t.put (.v i) x).v.getD j 0 = t.v.getD j 0 := by
  simp [Thread.put, List.getElem?_set_ne h]

@[simp] theorem Thread.put_p_v (t : Thread) (i : Nat) (x : Word) : (t.put (.p i) x).v = t.v := by
  simp only [Thread.put]
  split <;> rfl

@[simp] theorem Thread.put_v_pred (t : Thread) (i j : Nat) (x : Word) : (t.put (.v i) x).pred j = t.pred j := rfl

/-- A predicate reads as it was written (R20). -/
theorem Thread.put_pred_same (t : Thread) {i : Nat} (x : Word) (h : i < 7) :
    (t.put (.p i) x).pred i = decide (x ≠ 0) := by
  have h7 : i ≠ 7 := by omega
  have h8 : i < 8 := by omega
  by_cases hx : x = 0#32 <;> simp [Thread.put, Thread.pred, Nat.not_le.mpr h, hx, h7, h8]

/-- The other predicates read as before. -/
theorem Thread.put_pred_other (t : Thread) {i j : Nat} (x : Word) (h : i ≠ j) :
    (t.put (.p i) x).pred j = t.pred j := by
  have hbit : (1#8 <<< i).getLsbD j = false := by
    have : j < i ∨ j - i ≠ 0 := by omega
    rcases this with hj | hj <;> simp [hj]
  have hp : ∀ y : BitVec 8, (y ||| 1#8 <<< i).getLsbD j = y.getLsbD j := fun y => by
    rw [BitVec.getLsbD_or, hbit, Bool.or_false]
  have hn : ∀ y : BitVec 8, (y &&& ~~~(1#8 <<< i)).getLsbD j = y.getLsbD j := fun y => by
    rw [BitVec.getLsbD_and, BitVec.getLsbD_not, hbit]
    by_cases hj : j < 8
    · simp [hj]
    · simp [BitVec.getLsbD_of_ge y j (by omega)]
  unfold Thread.put Thread.pred
  dsimp only
  split
  · rfl
  · dsimp only
    split
    · rw [hn]
    · rw [hp]

/-- A written register reads as the word. -/
theorem Group.put_reg_same {g : Group} {k : Key} {r : Reg} (hg : g.Shaped) (hk : (g.find k).isSome)
    (hr : r.takes g.launch.nv) (x : Word) : (g.put k r x).reg k r = some (r.shown x) := by
  obtain ⟨-, hthreads, hs, -⟩ := hg
  obtain ⟨t, ht⟩ := Option.isSome_iff_exists.mp hk
  have hlen : t.v.length = g.launch.nv := (hthreads t (List.mem_of_find?_eq_some ht)).1
  cases r with
  | s i => simp [Group.put, Group.reg, Reg.shown, hs, (show i < 512 from hr)]
  | v i =>
    have hi : i < t.v.length := hlen ▸ hr
    simp only [Group.put, Group.reg, Group.find_modify _ _ _ _ fun u => Thread.put_key u _ x, ht, if_true, Option.map_some]
    rw [Thread.put_v t i i x hi, if_pos rfl]
    rfl
  | p i =>
    simp only [Group.put, Group.reg, Group.find_modify _ _ _ _ fun u => Thread.put_key u _ x, ht, if_true, Option.map_some]
    rw [Thread.put_pred_same t x hr]
    by_cases hx : x = 0 <;> simp [hx, Reg.shown]

/-- A write to another register leaves a register. -/
theorem Group.put_reg_other (g : Group) {k k' : Key} {r r' : Reg} (x : Word) (h : r' = r → ¬ r.sharedOr (k = k')) :
    (g.put k r x).reg k' r' = g.reg k' r' := by
  have found : ∀ f : Thread → Thread, (∀ t, (f t).key = t.key) → ∀ q : Thread → Word,
      (k = k' → ∀ t, q (f t) = q t) → ((g.modify k f).find k').map q = (g.find k').map q := by
    intro f hf q hq
    rw [Group.find_modify g k k' f hf]
    by_cases hk : k' = k
    · rw [if_pos hk, Option.map_map]
      exact congrArg (Option.map · _) (funext (hq hk.symm))
    · rw [if_neg hk]
  cases r with
  | s i =>
    cases r' with
    | s j =>
      have hne : i ≠ j := fun e => h (by rw [e]) trivial
      simp [Group.put, Group.reg, List.getElem?_set_ne hne]
    | v j => rfl
    | p j => rfl
  | v i =>
    cases r' with
    | s j => rfl
    | v j => exact found _ (fun t => t.put_key _ x) _ fun hk t => t.put_v_other x fun e => h (by rw [e]) hk
    | p j => exact found _ (fun t => t.put_key _ x) _ fun _ t => by rw [Thread.put_v_pred]
  | p i =>
    cases r' with
    | s j => rfl
    | v j => exact found _ (fun t => t.put_key _ x) _ fun _ t => by rw [Thread.put_p_v]
    | p j =>
      refine found _ (fun t => t.put_key _ x) _ fun hk t => ?_
      rw [t.put_pred_other x fun e => h (by rw [e]) hk]

/-! ### The writes of one thread -/

@[simp] theorem Group.put_launch (g : Group) (k : Key) (r : Reg) (x : Word) : (g.put k r x).launch = g.launch := by
  cases r <;> rfl

/-- A write keeps which threads there are. -/
@[simp] theorem Group.put_find_isSome (g : Group) (k k' : Key) (r : Reg) (x : Word) :
    ((g.put k r x).find k').isSome = (g.find k').isSome := by
  have found : ((g.modify k fun t => t.put r x).find k').isSome = (g.find k').isSome := by
    rw [Group.find_modify _ _ _ _ fun t => t.put_key r x]
    split <;> simp
  cases r with
  | s i => rfl
  | v i => exact found
  | p i => exact found

theorem Group.putAll_append (g : Group) (k : Key) (ws : List (Reg × Word)) (w : Reg × Word) :
    g.putAll k (ws ++ [w]) = (g.putAll k ws).put k w.1 w.2 := by
  simp [Group.putAll]

@[simp] theorem Group.putAll_launch (g : Group) (k : Key) (ws : List (Reg × Word)) :
    (g.putAll k ws).launch = g.launch := by
  induction ws using List.reverseRecOn with
  | nil => rfl
  | append_singleton ws w ih => rw [Group.putAll_append, Group.put_launch, ih]

@[simp] theorem Group.putAll_find_isSome (g : Group) (k k' : Key) (ws : List (Reg × Word)) :
    ((g.putAll k ws).find k').isSome = (g.find k').isSome := by
  induction ws using List.reverseRecOn with
  | nil => rfl
  | append_singleton ws w ih => rw [Group.putAll_append, Group.put_find_isSome, ih]

theorem lastWrite_append (ws : List (Reg × Word)) (w : Reg × Word) (r : Reg) :
    lastWrite (ws ++ [w]) r = if r = w.1 then some w.2 else lastWrite ws r := by
  unfold lastWrite
  rw [List.reverse_append, List.reverse_singleton, List.singleton_append, List.lookup_cons]
  by_cases h : r = w.1
  · simp [h]
  · rw [if_neg h, beq_false_of_ne h]

/-- A register that a thread's writes name holds its last write. -/
theorem Group.putAll_reg_last {g : Group} {k : Key} {r : Reg} {ws : List (Reg × Word)} {x : Word} (hg : g.Shaped)
    (hk : (g.find k).isSome) (hr : r.takes g.launch.nv) (hx : lastWrite ws r = some x) :
    (g.putAll k ws).reg k r = some (r.shown x) := by
  induction ws using List.reverseRecOn with
  | nil => exact absurd hx (by simp [lastWrite])
  | append_singleton ws w ih =>
    rw [Group.putAll_append]
    rw [lastWrite_append] at hx
    by_cases hw : r = w.1
    · rw [if_pos hw] at hx
      cases hx
      subst hw
      exact Group.put_reg_same (g.putAll_shaped k ws hg) (by simpa using hk) (by simpa using hr) _
    · rw [if_neg hw] at hx
      rw [Group.put_reg_other _ _ fun e => absurd e hw]
      exact ih hx

/-- A register that a thread's writes do not name is as before. -/
theorem Group.putAll_reg_other (g : Group) {k k' : Key} {r : Reg} {ws : List (Reg × Word)}
    (h : r ∈ ws.map Prod.fst → ¬ r.sharedOr (k = k')) : (g.putAll k ws).reg k' r = g.reg k' r := by
  induction ws using List.reverseRecOn with
  | nil => rfl
  | append_singleton ws w ih =>
    rw [Group.putAll_append, Group.put_reg_other _ _ fun e => e ▸ h (by simp [e]), ih fun hm => h (by simp_all)]

/-! ### The writes of several threads -/

theorem Group.apply_append (g : Group) (xs ys : List (Key × List (Reg × Word))) :
    g.apply (xs ++ ys) = (g.apply xs).apply ys := List.foldl_append ..

theorem Group.apply_cons (g : Group) (x : Key × List (Reg × Word)) (xs : List (Key × List (Reg × Word))) :
    g.apply (x :: xs) = (g.putAll x.1 x.2).apply xs := rfl

@[simp] theorem Group.apply_launch (g : Group) (xs : List (Key × List (Reg × Word))) : (g.apply xs).launch = g.launch := by
  induction xs generalizing g with
  | nil => rfl
  | cons x xs ih => rw [Group.apply_cons, ih, Group.putAll_launch]

@[simp] theorem Group.apply_find_isSome (g : Group) (xs : List (Key × List (Reg × Word))) (k : Key) :
    ((g.apply xs).find k).isSome = (g.find k).isSome := by
  induction xs generalizing g with
  | nil => rfl
  | cons x xs ih => rw [Group.apply_cons, ih, Group.putAll_find_isSome]

/-- A register that no thread's writes name for a thread is as before. -/
theorem Group.apply_reg_other (g : Group) {k : Key} {r : Reg} {xs : List (Key × List (Reg × Word))}
    (h : ∀ x ∈ xs, r ∈ x.2.map Prod.fst → ¬ r.sharedOr (x.1 = k)) : (g.apply xs).reg k r = g.reg k r := by
  induction xs generalizing g with
  | nil => rfl
  | cons x xs ih =>
    rw [Group.apply_cons, ih _ fun y hy => h y (List.mem_cons_of_mem _ hy),
      Group.putAll_reg_other _ (h x List.mem_cons_self)]

/-- A register that one thread's writes name, and no later thread's, holds that thread's last write. -/
theorem Group.apply_reg_last {g : Group} {k : Key} {r : Reg} {w : List (Reg × Word)} {x : Word}
    {pre post : List (Key × List (Reg × Word))} (hg : g.Shaped) (hk : (g.find k).isSome) (hr : r.takes g.launch.nv)
    (hx : lastWrite w r = some x) (hpost : ∀ y ∈ post, r ∈ y.2.map Prod.fst → ¬ r.sharedOr (y.1 = k)) :
    (g.apply (pre ++ (k, w) :: post)).reg k r = some (r.shown x) := by
  rw [Group.apply_append, Group.apply_cons, Group.apply_reg_other _ hpost]
  exact Group.putAll_reg_last (Group.apply_shaped _ hg) (by simpa using hk) (by simpa using hr) hx

/-! ### The threads of a sheaf -/

theorem insertKey_perm (t : Thread) (ts : List Thread) : (insertKey t ts).Perm (t :: ts) := by
  induction ts with
  | nil => exact .refl _
  | cons u us ih =>
    rw [insertKey]
    split
    · exact .refl _
    · exact (ih.cons u).trans (.swap t u us)

theorem sortKey_perm (ts : List Thread) : (sortKey ts).Perm ts := by
  induction ts with
  | nil => exact .refl _
  | cons t ts ih => exact (insertKey_perm t _).trans (ih.cons t)

/-- The active threads are threads of the group. -/
theorem Cx.mem_threads_of_act {c : Cx} {t : Thread} (h : t ∈ c.act) : t ∈ c.g.threads :=
  List.mem_of_mem_filter ((sortKey_perm _).mem_iff.mp (List.mem_of_mem_filter (List.mem_of_mem_filter h)))

/-- No two active threads have one key. -/
theorem Cx.act_keys_nodup {c : Cx} (h : c.g.Shaped) : (c.act.map Thread.key).Nodup := by
  have hsub : ∀ {p : Thread → Bool} {l : List Thread}, (l.map Thread.key).Nodup → ((l.filter p).map Thread.key).Nodup :=
    fun hl => hl.sublist (List.filter_sublist.map _)
  exact hsub (hsub (((sortKey_perm _).map Thread.key).nodup_iff.mpr (hsub h.1)))

/-- The thread of a key is the one thread that has it. -/
theorem Group.find_of_mem {g : Group} (h : g.Shaped) {t : Thread} (ht : t ∈ g.threads) : g.find t.key = some t := by
  obtain ⟨hn, -⟩ := h
  unfold Group.find
  generalize g.threads = ts at hn ht
  induction ts with
  | nil => exact absurd ht List.not_mem_nil
  | cons u us ih =>
    rw [List.map_cons, List.nodup_cons] at hn
    rw [List.find?_cons]
    rcases List.mem_cons.mp ht with rfl | hm
    · simp
    · have hne : u.key ≠ t.key := fun e => hn.1 (e ▸ List.mem_map_of_mem hm)
      simp only [hne, decide_false]
      exact ih hn.2 hm

theorem Cx.find_of_act {c : Cx} (h : c.g.Shaped) {t : Thread} (ht : t ∈ c.act) : c.g.find t.key = some t :=
  Group.find_of_mem h (Cx.mem_threads_of_act ht)

/-! ### What an instruction's writes come to -/

/-- A write counts for the j-th active thread: one to an S register for the first alone (R19). -/
def Reg.writtenBy (j : Nat) : Reg → Bool
  | .s _ => j = 0
  | _ => true

theorem Cx.writes_eq (c : Cx) (f : Cx → Thread → List (Reg × Word)) :
    c.writes f = c.act.zipIdx.map fun x => (x.1.key, (f c x.1).filter fun w => w.1.writtenBy x.2) :=
  List.map_congr_left fun x _ => Prod.ext rfl (List.filter_congr fun w _ => by cases w.1 <;> rfl)

/-- An instruction that names no S register writes for every active thread all that it computes. -/
theorem Cx.writes_of_noS {c : Cx} {f : Cx → Thread → List (Reg × Word)}
    (h : ∀ t ∈ c.act, ∀ w ∈ f c t, ∀ i, w.1 ≠ .s i) : c.writes f = c.act.map fun t => (t.key, f c t) := by
  have hzip : c.act.map (fun t => (t.key, f c t)) = c.act.zipIdx.map fun x => (x.1.key, f c x.1) := by
    conv_lhs => rw [← List.zipIdx_map_fst 0 c.act, List.map_map]
    rfl
  rw [Cx.writes_eq, hzip]
  refine List.map_congr_left fun x hx => Prod.ext rfl (List.filter_eq_self.mpr fun w hw => ?_)
  have hs := h x.1 (List.fst_mem_of_mem_zipIdx hx) w hw
  cases hr : w.1 with
  | s i => exact absurd hr (hs i)
  | v i => rfl
  | p i => rfl

theorem lastWrite_filter {p : Reg → Bool} (ws : List (Reg × Word)) {r : Reg} (h : p r = true) :
    lastWrite (ws.filter fun w => p w.1) r = lastWrite ws r := by
  induction ws using List.reverseRecOn with
  | nil => rfl
  | append_singleton ws w ih =>
    rw [List.filter_append, lastWrite_append]
    by_cases hw : p w.1 = true
    · rw [List.filter_cons_of_pos (by exact hw), List.filter_nil, lastWrite_append, ih]
    · have hne : r ≠ w.1 := fun e => hw (e ▸ h)
      rw [List.filter_cons_of_neg (by exact hw), List.filter_nil, List.append_nil, ih, if_neg hne]

/-- A list around one of its elements. -/
theorem zipIdx_around {α : Type} (pre post : List α) (a : α) :
    (pre ++ a :: post).zipIdx = pre.zipIdx ++ (a, pre.length) :: post.zipIdx (pre.length + 1) := by
  rw [List.zipIdx_append, List.zipIdx_cons]
  simp

/-- THE WRITES OF AN INSTRUCTION (R19, R83): after them each active thread's destinations hold what it wrote. -/
theorem apply_writes_reg {c : Cx} {g : Group} {f : Cx → Thread → List (Reg × Word)} (hc : c.g.Shaped) (hg : g.Shaped)
    {th : Thread} (hth : th ∈ c.act) (hk : (g.find th.key).isSome) {r : Reg} {x : Word} (hr : r.takes g.launch.nv)
    (hx : lastWrite (f c th) r = some x) (hs : ∀ i, r = .s i → c.act.head? = some th) :
    (g.apply (c.writes f)).reg th.key r = some (r.shown x) := by
  obtain ⟨pre, post, hact, hpre⟩ : ∃ pre post, c.act = pre ++ th :: post ∧ ∀ i, r = .s i → pre = [] := by
    by_cases hshared : ∃ i, r = .s i
    · obtain ⟨i, hi⟩ := hshared
      obtain ⟨post, hpost⟩ := List.head?_eq_some_iff.mp (hs i hi)
      exact ⟨[], post, hpost, fun _ _ => rfl⟩
    · obtain ⟨pre, post, h⟩ := List.append_of_mem hth
      exact ⟨pre, post, h, fun i hi => absurd ⟨i, hi⟩ hshared⟩
  have hby : r.writtenBy pre.length = true := by
    cases r with
    | s i => simp [Reg.writtenBy, hpre i rfl]
    | v i => rfl
    | p i => rfl
  rw [Cx.writes_eq, hact, zipIdx_around, List.map_append, List.map_cons]
  refine Group.apply_reg_last hg hk hr (by rw [lastWrite_filter _ hby]; exact hx) fun y hy hmem => ?_
  obtain ⟨⟨u, j⟩, hu, rfl⟩ := List.mem_map.mp hy
  obtain ⟨hj, -, -⟩ := List.mem_zipIdx hu
  obtain ⟨w, hw, rfl⟩ := List.mem_map.mp hmem
  have hwj := (List.mem_filter.mp hw).2
  cases hwr : w.1 with
  | s i => simp [hwr, Reg.writtenBy] at hwj; omega
  | v i | p i =>
    intro hkey
    have hn := Cx.act_keys_nodup hc
    rw [hact, List.map_append, List.map_cons, List.nodup_append, List.nodup_cons] at hn
    exact hn.2.1.1 (hkey ▸ List.mem_map_of_mem (List.fst_mem_of_mem_zipIdx hu))

/-- A register that the writes of an instruction do not name is as before (R83). -/
theorem apply_writes_reg_other {c : Cx} (g : Group) {f : Cx → Thread → List (Reg × Word)} {gi : Nat} {k : Key} {r : Reg}
    (hgi : gi = c.gi) (h : ¬ Written c f gi k r) : (g.apply (c.writes f)).reg k r = g.reg k r := by
  refine g.apply_reg_other fun x hx hmem hkey => h ⟨hgi, ?_⟩
  rw [Cx.writes_eq] at hx
  obtain ⟨⟨u, j⟩, hu, rfl⟩ := List.mem_map.mp hx
  obtain ⟨w, hw, rfl⟩ := List.mem_map.mp hmem
  refine ⟨u, List.fst_mem_of_mem_zipIdx hu, List.mem_map_of_mem (List.mem_of_mem_filter hw), ?_⟩
  cases hwr : w.1 <;> simp_all [Reg.sharedOr]

/-- A register that a launch with a number of V registers has (R17, R19). -/
def Reg.inLaunch (nv : Nat) : Reg → Prop
  | .v i => i < nv
  | .s i => i < 512
  | .p _ => True

/-- Every register that the instruction computes a value for is there (R17, R69). -/
def Cx.Fits (c : Cx) (f : Cx → Thread → List (Reg × Word)) : Prop :=
  ∀ t ∈ c.act, ∀ w ∈ f c t, w.1.inLaunch c.g.launch.nv

theorem mem_of_lastWrite {ws : List (Reg × Word)} {r : Reg} {x : Word} (h : lastWrite ws r = some x) : (r, x) ∈ ws := by
  obtain ⟨_, _, h, -⟩ := List.lookup_eq_some_iff.mp h
  exact List.mem_reverse.mp (h ▸ List.mem_append_right _ List.mem_cons_self)

/-- A group of a state that has made the writes of an instruction holds them. -/
theorem Wrote.of_apply {c : Cx} {t : State} {g : Group} {f : Cx → Thread → List (Reg × Word)} (hc : c.g.Shaped)
    (hg : g.Shaped) (hl : g.launch = c.g.launch) (hk : ∀ th ∈ c.act, (g.find th.key).isSome) (hf : c.Fits f)
    (ht : ∀ k r, t.reg c.gi k r = (g.apply (c.writes f)).reg k r) : Wrote t c f := by
  intro th hth r x hx
  have hfit := hf th hth _ (mem_of_lastWrite hx)
  have read := fun (hr : r.takes g.launch.nv) hs => (ht th.key r).trans (apply_writes_reg hc hg hth (hk th hth) hr hx hs)
  cases r with
  | v i => exact read (hl ▸ hfit) fun _ h => nomatch h
  | s i => exact fun hhead => read hfit fun _ _ => hhead
  | p i => exact fun hi => read hi fun _ h => nomatch h

theorem Wrote.congr {c : Cx} {s t : State} {f : Cx → Thread → List (Reg × Word)} (h : Wrote s c f)
    (hr : ∀ k r, t.reg c.gi k r = s.reg c.gi k r) : Wrote t c f := by
  intro th hth r x hx
  have := h th hth r x hx
  cases r with
  | v i => exact (hr _ _).trans this
  | s i => exact fun hhead => (hr _ _).trans (this hhead)
  | p i => exact fun hi => (hr _ _).trans (this hi)

end Sys2Proof.Machine
end

section
/-! PROOFS. The registers that an issuing instruction names lie in its launch (R17, R69), and what an instruction that only
writes registers comes to. -/

namespace Sys2Proof.Machine

/-! ### A ready issue -/

/-- A ready issue is that of a sheaf of a group of the state, with the operation and the fields that were decoded. -/
theorem State.ready_at {s : State} {word : Word} {len : Nat} {o : Op} {e : Ext} {c : Cx}
    (h : s.ready word len o e = some c) :
    s.groups[c.gi]? = some c.g ∧ c.g.sheaves[c.si]? = some c.sh ∧ c.o = o ∧ c.e = e := by
  have hcx := State.ready_cx h
  unfold State.cx State.cxAt at hcx
  split at hcx
  · cases hcx
  · next gi si _ =>
    split at hcx
    · cases hcx
    · next g hg =>
      split at hcx
      · cases hcx
      · next sh hsh =>
        cases hcx
        exact ⟨hg, hsh, rfl, rfl⟩

/-- An instruction that is ready names nothing outside its launch (R17, R21, R69). -/
theorem State.ready_allocOk {s : State} {word : Word} {len : Nat} {o : Op} {e : Ext} {c : Cx}
    (h : s.ready word len o e = some c) : allocOk c.g o e = true := by
  unfold State.ready at h
  split at h
  · cases h
  · split at h
    · next hc =>
      cases h
      simp only [Bool.and_eq_true] at hc
      exact hc.1.1.1.1.1
    · cases h

theorem State.ready_vregsOk {s : State} {word : Word} {len : Nat} {o : Op} {e : Ext} {c : Cx}
    (h : s.ready word len o e = some c) : vregsOk c.g.launch.ks c.g.launch.nv o e = true := by
  have := State.ready_allocOk h
  unfold allocOk at this
  simp only [Bool.and_eq_true] at this
  exact this.1.1

/-! ### Registers of an operand -/

/-- An operand that is written is no literal. -/
@[simp] theorem litAt_zero (o : Op) (e : Ext) : litAt o e 0 = none := by
  unfold litAt
  split <;> simp

/-- Nor is an operand of an instruction whose literal stands elsewhere (R60). -/
theorem litAt_one_of_op2 {o : Op} {e : Ext} {wide : Bool} (h : o.literal e = .op2 wide) : litAt o e 1 = none := by
  unfold litAt
  rw [h]
  cases e.lit <;> rfl

theorem litAt_of_none {o : Op} {e : Ext} (h : o.literal e = .none) (k : Nat) : litAt o e k = none := by
  unfold litAt
  rw [h]
  cases e.lit <;> rfl

/-- A V register of an operand lies below the V count (R17). -/
theorem vregsOk_v {ks : List Word} {nv : Nat} {o : Op} {e : Ext} {k j : Nat} {i : BitVec 8}
    (h : vregsOk ks nv o e = true) (hk : k < 4) (hl : litAt o e k = none) (ho : e.opnd k = .v i)
    (hj : j < regSpan ks o e k) : i.toNat + j < nv := by
  have := List.all_eq_true.mp h k (by simp; omega)
  rw [hl, ho] at this
  simp at this
  omega

/-- Every register of an operand of at most 256 registers is there (R17, R69). -/
theorem vregsOk_inLaunch {ks : List Word} {nv : Nat} {o : Op} {e : Ext} {k j : Nat} {r : Reg}
    (h : vregsOk ks nv o e = true) (hk : k < 4) (hl : litAt o e k = none) (hj : j < regSpan ks o e k) (hj256 : j < 256)
    (hr : (e.opnd k).reg? j = some r) : r.inLaunch nv := by
  cases ho : e.opnd k with
  | v i =>
    rw [ho] at hr
    cases hr
    exact vregsOk_v h hk hl ho hj
  | slo i =>
    rw [ho] at hr
    cases hr
    show i.toNat + j < 512
    omega
  | shi i =>
    have := List.all_eq_true.mp h k (by simp; omega)
    rw [hl, ho] at this
    simp at this
    rw [ho] at hr
    cases hr
    show i.toNat + 256 + j < 512
    omega
  | k i => simp [ho, Opnd.reg?] at hr

theorem length_natWords (n x : Nat) : (natWords n x).length = n := by
  induction n generalizing x with
  | zero => rfl
  | succ n ih => simp [natWords, ih]

/-- A write of an operand is one of its registers. -/
theorem Opnd.mem_writes {o : Opnd} {n x : Nat} {w : Reg × Word} (h : w ∈ o.writes n x) :
    ∃ j < n, o.reg? j = some w.1 := by
  obtain ⟨⟨y, j⟩, hy, hw⟩ := List.mem_filterMap.mp h
  obtain ⟨r, hr, rfl⟩ := Option.map_eq_some_iff.mp hw
  have := List.snd_lt_of_mem_zipIdx hy
  rw [length_natWords] at this
  exact ⟨j, by omega, hr⟩

/-- The registers of a written operand are there, where the operand has room for the value. -/
theorem Opnd.writes_inLaunch {ks : List Word} {nv : Nat} {o : Op} {e : Ext} {k n x : Nat}
    (h : vregsOk ks nv o e = true) (hk : k < 4) (hl : litAt o e k = none) (hn : n ≤ regSpan ks o e k) (hn4 : n ≤ 4) :
    ∀ w ∈ (e.opnd k).writes n x, w.1.inLaunch nv := by
  intro w hw
  obtain ⟨j, hj, hr⟩ := Opnd.mem_writes hw
  exact vregsOk_inLaunch h hk hl (by omega) (by omega) hr

/-- An instruction whose one destination is OP0, with room for a value of n registers. -/
theorem Cx.fits_dst {s : State} {o : Op} {e : Ext} {c : Cx} {f : Cx → Thread → List (Reg × Word)} (h : s.readyE o e = some c)
    (n : Nat) (hn : n ≤ regSpan c.g.launch.ks o e 0) (hn4 : n ≤ 4) (hf : ∀ t, ∃ x, f c t = c.e.op0.writes n x) :
    c.Fits f := by
  obtain ⟨-, -, -, he⟩ := State.ready_at h
  intro t _ w hw
  obtain ⟨x, hx⟩ := hf t
  rw [hx, he] at hw
  exact Opnd.writes_inLaunch (State.ready_vregsOk h) (by decide) (litAt_zero o e) hn hn4 w hw

theorem regsOfType_pos (ty : Nat) : 1 ≤ regsOfType ty := by unfold regsOfType; split <;> [decide; split] <;> decide
theorem regsOfType_le (ty : Nat) : regsOfType ty ≤ 4 := by unfold regsOfType; split <;> [decide; split] <;> decide

/-! ### Instructions that write registers -/

/-- AN INSTRUCTION THAT WRITES REGISTERS of its active threads completes with its values (R83). -/
theorem lanes_wrote {s : State} {o : Op} {e : Ext} {c : Cx} {f : Cx → Thread → List (Reg × Word)}
    (h : s.readyE o e = some c) (hc : c.g.Shaped) (hf : c.Fits f) :
    ∃ t, issueE o e s (lanes f) = .next t ∧ Wrote t c f := by
  obtain ⟨hg, -, -, -⟩ := State.ready_at h
  refine ⟨_, issueE_ready _ h, .of_apply hc hc rfl (fun th hth => ?_) hf fun k r => ?_⟩
  · rw [Cx.find_of_act hc hth]; rfl
  · rw [lanes, State.reg_of_cores (Act.outcome_done_cores ..)]
    exact State.reg_eq (by rw [State.setGroup_get, if_pos rfl, hg]; rfl) k r

end Sys2Proof.Machine
end

section
/-! PROOFS. The floating-point instructions (O13): each names one destination with room for its value, FFREXP two and
FCMP a predicate. -/

namespace Sys2Proof.Machine

/-- The registers of the instruction's type are those of its decoded fields. -/
theorem State.readyE_n {s : State} {o : Op} {e : Ext} {c : Cx} (h : s.readyE o e = some c) : c.n = e.tyRegs := by
  obtain ⟨-, -, -, he⟩ := State.ready_at h
  rw [Cx.n, he]

/-- An instruction of type registers whose destination takes a value of its type completes with it (R82). -/
theorem lanes_wrote_typed {s : State} {o : Op} {e : Ext} {c : Cx} {f : Cx → Thread → List (Reg × Word)}
    (h : s.readyE o e = some c) (hc : c.g.Shaped) (hspan : regSpan c.g.launch.ks o e 0 = e.tyRegs)
    (hf : ∀ t, ∃ x, f c t = c.e.op0.writes c.n x) : ∃ t, issueE o e s (lanes f) = .next t ∧ Wrote t c f := by
  have hn := State.readyE_n h
  exact lanes_wrote h hc (Cx.fits_dst h c.n (by omega) (hn ▸ regsOfType_le _) hf)

/-- An instruction whose destination takes one register completes with it. -/
theorem lanes_wrote_one {s : State} {o : Op} {e : Ext} {c : Cx} {f : Cx → Thread → List (Reg × Word)}
    (h : s.readyE o e = some c) (hc : c.g.Shaped) (hspan : 1 ≤ regSpan c.g.launch.ks o e 0)
    (hf : ∀ t, ∃ x, f c t = c.e.op0.writes 1 x) : ∃ t, issueE o e s (lanes f) = .next t ∧ Wrote t c f :=
  lanes_wrote h hc (Cx.fits_dst h 1 hspan (by decide) hf)

/-- A form that is not `.f64` completes as an instruction that writes at once (R22). -/
theorem lanesF64_wrote {s : State} {o : Op} {e : Ext} {c : Cx} {f : Cx → Thread → List (Reg × Word)}
    (h : s.readyE o e = some c) (he : e.ty ≠ 8) (hlanes : ∃ t, issueE o e s (lanes f) = .next t ∧ Wrote t c f) :
    ∃ t, issueE o e s (lanesF64 f) = .next t ∧ Wrote t c f := by
  obtain ⟨-, -, -, hce⟩ := State.ready_at h
  have hbody : lanesF64 f c s = lanes f c s := if_neg (hce ▸ he)
  rw [issueE_ready _ h, hbody, ← issueE_ready _ h]
  exact hlanes

/-- FCMP writes a predicate alone (R99). -/
theorem fits_fcmpVal (c : Cx) : c.Fits fcmpVal := by
  intro t _ w hw
  rw [List.mem_singleton.mp hw]
  trivial

/-- FFREXP writes one register of each of its two destinations (R101). -/
theorem fits_ffrexpVal {s : State} {e : Ext} {c : Cx} (h : s.readyE .ffrexp e = some c) : c.Fits ffrexpVal := by
  obtain ⟨-, -, -, he⟩ := State.ready_at h
  have hv := State.ready_vregsOk h
  have hlit : litAt .ffrexp e 1 = none := litAt_one_of_op2 rfl
  intro t _ w hw
  rw [ffrexpVal, he] at hw
  rcases List.mem_append.mp hw with hw | hw
  · exact Opnd.writes_inLaunch (n := 1) hv (by decide) (litAt_zero _ e) le_rfl (by decide) w hw
  · exact Opnd.writes_inLaunch (k := 1) (n := 1) hv (by decide) hlit le_rfl (by decide) w hw

/-- Settles O13: each instruction is one that writes registers of its active threads, whose destinations have room. -/
theorem floatingPoint : Obligations.FloatingPoint := by
  unfold Obligations.FloatingPoint
  intro e s c hc
  have settle : ∀ {o : Op} {i : Instr} {f : Cx → Thread → List (Reg × Word)}, floating o = some f →
      (s.readyE o e = some c → ∃ t, exec i s = .next t ∧ Wrote t c f) → s.readyE o e = some c → o.wellFormed e = true →
      ∃ t f, exec i s = .next t ∧ floating o = some f ∧ Wrote t c f := by
    intro o i f hf hrun h _
    obtain ⟨t, ht, hw⟩ := hrun h
    exact ⟨t, f, ht, hf, hw⟩
  have hone := regsOfType_pos e.ty.toNat
  refine ⟨fun hty => ⟨?fadd, ?fmul, ?ffma, ?fcmp⟩, ?fsub, ?fmin, ?fmax, ?fclass, ?fround, ?fldexp, ?ffrexp, ?pfma, ?fdot2⟩
  case fadd => exact settle rfl fun h => lanesF64_wrote h hty (lanes_wrote_typed h hc rfl fun _ => ⟨_, rfl⟩)
  case fmul => exact settle rfl fun h => lanesF64_wrote h hty (lanes_wrote_typed h hc rfl fun _ => ⟨_, rfl⟩)
  case ffma => exact settle rfl fun h => lanesF64_wrote h hty (lanes_wrote_typed h hc rfl fun _ => ⟨_, rfl⟩)
  case fcmp => exact settle rfl fun h => lanesF64_wrote h hty (lanes_wrote h hc (fits_fcmpVal c))
  case fsub => exact settle rfl fun h => lanes_wrote_typed h hc rfl fun _ => ⟨_, rfl⟩
  case fmin => exact settle rfl fun h => lanes_wrote_typed h hc rfl fun _ => ⟨_, rfl⟩
  case fmax => exact settle rfl fun h => lanes_wrote_typed h hc rfl fun _ => ⟨_, rfl⟩
  case fclass => exact settle rfl fun h => lanes_wrote_one h hc le_rfl fun _ => ⟨_, rfl⟩
  case fround => exact settle rfl fun h => lanes_wrote_one h hc hone fun _ => ⟨_, rfl⟩
  case fldexp => exact settle rfl fun h => lanes_wrote_one h hc le_rfl fun _ => ⟨_, rfl⟩
  case ffrexp => exact settle rfl fun h => lanes_wrote h hc (fits_ffrexpVal h)
  case pfma => exact settle rfl fun h => lanes_wrote_one h hc hone fun _ => ⟨_, rfl⟩
  case fdot2 => exact settle rfl fun h => lanes_wrote_one h hc le_rfl fun _ => ⟨_, rfl⟩

end Sys2Proof.Machine
end

section
/-! PROOFS. Conversions, random words and quantising (O14): what a draw leaves, and the registers that the forms over the
containers of a slot name. -/

namespace Sys2Proof.Machine

/-! ### Threads that draw -/

/-- A group some of whose threads have drawn n words (R29, R44). -/
def Group.drawn (g : Group) (ts : List Thread) (n : Nat) : Group :=
  { g with threads := g.threads.map fun t => if ts.any (fun u => u.key = t.key) then t.drew n else t }

theorem lanesDraw_eq (n : Nat) (f : Cx → Thread → List (Reg × Word)) (c : Cx) (s : State) :
    lanesDraw n f c s = .done (s.setGroup c.gi fun g => (g.apply (c.writes f)).drawn c.act n) := rfl

/-- What a thread draws with: DRAWS, and its parts in gleans (R29, R44). -/
def Thread.drawing (t : Thread) : Word × Option GPart × Option (Glean × GPart) := (t.draws, t.part, t.solo)

@[simp] theorem Thread.drew_key (t : Thread) (n : Nat) : (t.drew n).key = t.key := by unfold Thread.drew; split <;> rfl
@[simp] theorem Thread.drew_v (t : Thread) (n : Nat) : (t.drew n).v = t.v := by unfold Thread.drew; split <;> rfl
@[simp] theorem Thread.drew_p (t : Thread) (n : Nat) : (t.drew n).p = t.p := by unfold Thread.drew; split <;> rfl

/-- Outside every glean a thread's draws count in DRAWS (R29). -/
theorem Thread.drew_draws {t : Thread} (n : Nat) (hp : t.part = none) (hs : t.solo = none) :
    (t.drew n).draws = t.draws + BitVec.ofNat 32 n := by
  unfold Thread.drew
  rw [hp, hs]

theorem Group.drawn_find (g : Group) (ts : List Thread) (n : Nat) (k : Key) :
    (g.drawn ts n).find k = (g.find k).map fun t => if ts.any (fun u => u.key = t.key) then t.drew n else t := by
  unfold Group.find Group.drawn
  rw [List.find?_map]
  congr 1
  refine List.find?_congr fun t _ => ?_
  simp only [Function.comp]
  split <;> simp

/-- A draw changes no register. -/
theorem Group.drawn_reg (g : Group) (ts : List Thread) (n : Nat) (k : Key) (r : Reg) :
    (g.drawn ts n).reg k r = g.reg k r := by
  cases r with
  | s i => rfl
  | v i | p i =>
    simp only [Group.reg, Group.drawn_find, Option.map_map]
    refine congrArg (Option.map · _) (funext fun t => ?_)
    simp only [Function.comp, Thread.pred]
    split <;> simp

@[simp] theorem Thread.put_drawing (t : Thread) (r : Reg) (x : Word) : (t.put r x).drawing = t.drawing := by
  cases r with
  | v i => rfl
  | s i => rfl
  | p i => simp only [Thread.put]; split <;> rfl

theorem Group.put_find_drawing (g : Group) (k k' : Key) (r : Reg) (x : Word) :
    ((g.put k r x).find k').map Thread.drawing = (g.find k').map Thread.drawing := by
  have found : ((g.modify k fun t => t.put r x).find k').map Thread.drawing = (g.find k').map Thread.drawing := by
    rw [Group.find_modify _ _ _ _ fun t => t.put_key r x]
    split
    · rw [Option.map_map]
      exact congrArg (Option.map · _) (funext fun t => t.put_drawing r x)
    · rfl
  cases r with
  | s i => rfl
  | v i => exact found
  | p i => exact found

/-- Register writes leave what threads draw with. -/
theorem Group.apply_find_drawing (g : Group) (xs : List (Key × List (Reg × Word))) (k : Key) :
    ((g.apply xs).find k).map Thread.drawing = (g.find k).map Thread.drawing := by
  have putAll : ∀ (ws : List (Reg × Word)) (j : Key) (g : Group),
      ((g.putAll j ws).find k).map Thread.drawing = (g.find k).map Thread.drawing := by
    intro ws j
    induction ws with
    | nil => exact fun _ => rfl
    | cons w ws ih => exact fun g => (ih (g.put j w.1 w.2)).trans (g.put_find_drawing j k w.1 w.2)
  induction xs generalizing g with
  | nil => rfl
  | cons x xs ih => exact (ih (g.putAll x.1 x.2)).trans (putAll x.2 x.1 g)

/-- An instruction's writes and draws in its group. -/
theorem setGroup_drawn_get {s : State} {c : Cx} (hg : s.groups[c.gi]? = some c.g) (ws : List (Key × List (Reg × Word)))
    (n : Nat) : (s.setGroup c.gi fun g => (g.apply ws).drawn c.act n).groups[c.gi]? =
      some ((c.g.apply ws).drawn c.act n) := by
  rw [State.setGroup_get, if_pos rfl, hg]
  rfl

/-- The registers after an instruction's writes and draws are those after its writes. -/
theorem setGroup_drawn_wrote {s : State} {c : Cx} {f : Cx → Thread → List (Reg × Word)} (n : Nat)
    (hg : s.groups[c.gi]? = some c.g) (hc : c.g.Shaped) (hf : c.Fits f) :
    Wrote (s.setGroup c.gi fun g => (g.apply (c.writes f)).drawn c.act n) c f := by
  refine .of_apply hc hc rfl (fun th hth => ?_) hf fun k r => ?_
  · rw [Cx.find_of_act hc hth]; rfl
  · rw [State.reg_eq (setGroup_drawn_get hg _ n), Group.drawn_reg]

/-- An active thread outside every glean has drawn n words more. -/
theorem setGroup_drawn_draws {s : State} {c : Cx} {ws : List (Key × List (Reg × Word))} (n : Nat)
    (hg : s.groups[c.gi]? = some c.g) (hc : c.g.Shaped) {th : Thread} (hth : th ∈ c.act) (hp : th.part = none)
    (hs : th.solo = none) :
    ((s.setGroup c.gi fun g => (g.apply ws).drawn c.act n).thr c.gi th.key).map Thread.draws =
      some (th.draws + BitVec.ofNat 32 n) := by
  have hdraw := c.g.apply_find_drawing ws th.key
  rw [Cx.find_of_act hc hth, Option.map_some] at hdraw
  obtain ⟨u, hu, hud⟩ := Option.map_eq_some_iff.mp hdraw
  obtain ⟨hd, hup, hus⟩ : u.draws = th.draws ∧ u.part = th.part ∧ u.solo = th.solo := by
    simpa [Thread.drawing] using hud
  have hkey : u.key = th.key := by simpa using List.find?_some hu
  have hany : (c.act.any fun x => x.key = u.key) = true := List.any_eq_true.mpr ⟨th, hth, by simp [hkey]⟩
  rw [State.thr, setGroup_drawn_get hg, Option.bind_some, Group.drawn_find, hu, Option.map_some, Option.map_some,
    if_pos hany, Thread.drew_draws n (hup.trans hp) (hus.trans hs), hd]

/-- AN INSTRUCTION THAT WRITES REGISTERS AND DRAWS completes with its values, and each active thread outside a glean has
drawn its words (R29, R83). -/
theorem lanesDraw_wrote {s : State} {o : Op} {e : Ext} {c : Cx} {f : Cx → Thread → List (Reg × Word)} {n : Nat}
    {body : Cx → State → Act} (hbody : body c s = lanesDraw n f c s) (h : s.readyE o e = some c) (hc : c.g.Shaped)
    (hf : c.Fits f) :
    ∃ t, issueE o e s body = .next t ∧ Wrote t c f ∧ ∀ th ∈ c.act, th.part = none → th.solo = none →
      (t.thr c.gi th.key).map Thread.draws = some (th.draws + BitVec.ofNat 32 n) := by
  obtain ⟨hg, -, -, -⟩ := State.ready_at h
  have hcores := Act.outcome_done_cores c s (s.setGroup c.gi fun g => (g.apply (c.writes f)).drawn c.act n)
  refine ⟨_, issueE_ready _ h, ?_, fun th hth hp hs => ?_⟩
  · rw [hbody, lanesDraw_eq]
    exact (setGroup_drawn_wrote n hg hc hf).congr fun k r => State.reg_of_cores hcores _ k r
  · rw [hbody, lanesDraw_eq, State.thr_map_of_cores hcores _ _ _ Thread.core_draws]
    exact setGroup_drawn_draws n hg hc hth hp hs

/-! ### Operands that name V registers alone -/

/-- The destination is one that its position accepts (R69). -/
theorem Op.wellFormed_accepts0 {o : Op} {e : Ext} (h : o.wellFormed e = true) :
    ((o.positions e).getD 0 .unused).accepts e.op0 = true := by
  simp only [Op.wellFormed, Op.opsOk, Bool.and_eq_true, Bool.or_eq_true] at h
  obtain ⟨⟨-, ⟨⟨⟨h0, -⟩, -⟩, -⟩⟩, -⟩ := h
  rcases h0 with hlit | h0
  · cases hl : o.literal e <;> simp [hl] at hlit
  · exact h0

/-- An operand without a literal form is one that its position accepts (R69). -/
theorem Op.wellFormed_accepts3 {o : Op} {e : Ext} (h : o.wellFormed e = true) (hl : o.literal e = .none) :
    ((o.positions e).getD 3 .unused).accepts e.op3 = true := by
  simp only [Op.wellFormed, Op.opsOk, Bool.and_eq_true, Bool.or_eq_true, hl] at h
  obtain ⟨⟨-, ⟨-, h3⟩⟩, -⟩ := h
  simpa using h3

/-- A position of V registers alone holds one. -/
theorem Pos.eq_v_of_accepts {o : Opnd} {n : Nat} (h : (Pos.reg true false false n).accepts o = true) : ∃ i, o = .v i := by
  cases o with
  | v i => exact ⟨i, rfl⟩
  | slo i | shi i | k i => simp [Pos.accepts] at h

/-- A range of V registers from an operand, one for each container of the slot, is there (R17, R36). -/
theorem lanes_inLaunch {ks : List Word} {nv : Nat} {o : Op} {e : Ext} {k j : Nat} {i : BitVec 8}
    (h : vregsOk ks nv o e = true) (hk : k < 4) (hl : litAt o e k = none) (ho : e.opnd k = .v i)
    (hspan : regSpan ks o e k = e.lanes ks) (hj : j < e.lanes ks) : (Reg.v ((e.opnd k).index + j)).inLaunch nv := by
  rw [ho]
  exact vregsOk_v h hk hl ho (hspan ▸ hj)

/-- An instruction that writes one V register for each container of its slot (R109, R110). -/
theorem Cx.fits_lanes {s : State} {o : Op} {e : Ext} {c : Cx} {f : Cx → Thread → List (Reg × Word)}
    (h : s.readyE o e = some c) (hw : o.wellFormed e = true) {n : Nat}
    (hpos : (o.positions e).getD 0 .unused = .reg true false false n)
    (hspan : regSpan c.g.launch.ks o e 0 = e.lanes c.g.launch.ks)
    (hf : ∀ t, ∃ y : Nat → Word, f c t =
      (List.range (c.e.lanes c.g.launch.ks)).map fun j => (.v (c.e.op0.index + j), y j)) : c.Fits f := by
  obtain ⟨-, -, -, he⟩ := State.ready_at h
  obtain ⟨i, hi⟩ := Pos.eq_v_of_accepts (hpos ▸ Op.wellFormed_accepts0 hw)
  intro t _ w hmem
  obtain ⟨y, hy⟩ := hf t
  rw [hy, he] at hmem
  obtain ⟨j, hj, rfl⟩ := List.mem_map.mp hmem
  exact lanes_inLaunch (k := 0) (State.ready_vregsOk h) (by decide) (litAt_zero o e) hi hspan (List.mem_range.mp hj)

/-! ### CVT and RND -/

/-- CVT's draws as its statement counts them (R43, R105). -/
theorem Cx.cvtDraws_word (c : Cx) : BitVec.ofNat 32 c.cvtDraws =
    if c.e.rm = 5 then (if c.e.ty = 12 ∨ c.e.ty = 13 then 2 else 1) else 0 := by
  unfold Cx.cvtDraws
  split
  · split <;> rfl
  · rfl

theorem fits_cvtVal {s : State} {e : Ext} {c : Cx} (h : s.readyE .cvt e = some c) : c.Fits cvtVal := by
  have hn : c.n = e.tyRegs := State.readyE_n h
  have hone := regsOfType_pos e.ty.toNat
  by_cases hty : c.e.ty = 12 ∨ c.e.ty = 13
  · exact Cx.fits_dst h 1 hone (by decide) fun t => ⟨_, if_pos hty⟩
  · exact Cx.fits_dst h c.n (by rw [hn]; exact le_rfl) (hn ▸ regsOfType_le _) fun t => ⟨_, if_neg hty⟩

/-- The upper half of a drawn word (R44, R111). -/
theorem draw_upper (x : BitVec 64) : (x.extractLsb' 32 32).toNat = x.toNat / 2 ^ 32 := by
  rw [BitVec.extractLsb'_toNat, Nat.shiftRight_eq_div_pow]
  omega

/-! ### QNT -/

/-- QNT writes V registers that are there: the codes, and under `.ef` the residues (R107). -/
theorem Cx.qntWrites_v {s : State} {e : Ext} {c : Cx} (h : s.readyE .qnt e = some c) (hw : Op.qnt.wellFormed e = true)
    (t : Thread) {w : Reg × Word} (hmem : w ∈ c.qntWrites (c.quantise t (c.sigma t))) :
    ∃ i, w.1 = .v i ∧ i < c.g.launch.nv := by
  obtain ⟨-, -, -, he⟩ := State.ready_at h
  have hv := State.ready_vregsOk h
  obtain ⟨i0, hi0⟩ := Pos.eq_v_of_accepts (n := 1) (Op.wellFormed_accepts0 hw)
  rw [Cx.qntWrites, he] at hmem
  rcases List.mem_append.mp hmem with hres | hcode
  · split at hres
    · next hrm =>
      have hpos := Op.wellFormed_accepts3 hw rfl
      obtain ⟨i3, hi3⟩ := Pos.eq_v_of_accepts (n := 1) (by simpa [Op.positions, hrm] using hpos)
      have hlit : litAt .qnt e 3 = none := litAt_of_none rfl 3
      have hspan : regSpan c.g.launch.ks .qnt e 3 = e.lanes c.g.launch.ks := if_pos hrm
      obtain ⟨⟨x, j⟩, hj, rfl⟩ := List.mem_map.mp hres
      have hlt := List.snd_lt_of_mem_zipIdx hj
      simp only [Cx.quantise, he, List.length_map, List.length_range] at hlt
      exact ⟨_, rfl, lanes_inLaunch (k := 3) hv (by decide) hlit hi3 hspan hlt⟩
    · exact absurd hres List.not_mem_nil
  · rw [Cx.dstN, he, hi0] at hcode
    obtain ⟨j, hj, hr⟩ := Opnd.mem_writes hcode
    exact ⟨_, (Option.some.inj hr).symm, vregsOk_v (k := 0) hv (by decide) (litAt_zero _ e) hi0 hj⟩

/-- The values that QNT writes, by thread (R107). -/
def Cx.qntVal (c : Cx) (t : Thread) : List (Reg × Word) := c.qntWrites (c.quantise t (c.sigma t))

theorem fits_qntVal {s : State} {e : Ext} {c : Cx} (h : s.readyE .qnt e = some c) (hw : Op.qnt.wellFormed e = true) :
    c.Fits Cx.qntVal := by
  intro t _ w hmem
  obtain ⟨i, hi, hlt⟩ := Cx.qntWrites_v h hw t hmem
  rw [hi]
  exact hlt

/-- The words that a thread draws for QNT: one for each element under SR (R43, R107). -/
def Cx.qntDraws (c : Cx) : Nat := if c.rmCode = 5 then c.e.lanes c.g.launch.ks else 0

/-- The group after QNT has written (R107). -/
def State.quantised (s : State) (c : Cx) : State :=
  s.setGroup c.gi fun g => (g.apply (c.writes Cx.qntVal)).drawn c.act c.qntDraws

/-- WHAT QNT COMES TO without `.stat` (R107, R108): its writes, and then RESCALE for every active thread where the slot
traps an overflow and there was one. -/
theorem qntFinish_eq {s : State} {e : Ext} {c : Cx} (h : s.readyE .qnt e = some c) (hw : Op.qnt.wellFormed e = true) :
    qntFinish 0 c.sigma c s =
      if c.slot.ovft && c.act.any fun t => (c.quantise t (c.sigma t)).any fun q => q.2.1 then
        .after (s.quantised c) (c.act.map fun t => (t.key,
          { cls := 11, info := c.e.op2.toBits.toNat
              + if (c.quantise t (c.sigma t)).any (fun q => q.2.1) then 2 ^ 16 else 0 }))
      else .done (s.quantised c) := by
  have hwrites : c.writes Cx.qntVal = c.act.map fun t => (t.key, c.qntVal t) :=
    Cx.writes_of_noS fun t _ w hmem i hi => by
      obtain ⟨j, hj, -⟩ := Cx.qntWrites_v h hw t hmem
      rw [hi] at hj
      cases hj
  unfold qntFinish State.quantised
  simp only [List.map_map, List.any_map, hwrites]
  rfl

theorem quantised_wrote {s : State} {e : Ext} {c : Cx} (h : s.readyE .qnt e = some c) (hw : Op.qnt.wellFormed e = true)
    (hc : c.g.Shaped) : Wrote (s.quantised c) c Cx.qntVal := by
  obtain ⟨hg, -, -, -⟩ := State.ready_at h
  exact setGroup_drawn_wrote _ hg hc (fits_qntVal h hw)

/-- Settles O14: the conversions, CVT and RND write registers that are there; QNT's act, said once, writes before its
faults. -/
theorem conversionsAndQuantising : Obligations.ConversionsAndQuantising := by
  unfold Obligations.ConversionsAndQuantising
  refine ⟨⟨fun e s c hc => ?conversions, fun e s c h _ hc hty hlo => ?cvt, fun e s c h _ hc => ?rnd⟩,
    fun e s c h hw hc hsrc => ?qnt⟩
  case conversions =>
    have settle : ∀ {o : Op} {i : Instr} {f : Cx → Thread → List (Reg × Word)}, converting o = some f →
        (s.readyE o e = some c → o.wellFormed e = true → ∃ t, exec i s = .next t ∧ Wrote t c f) →
        s.readyE o e = some c → o.wellFormed e = true →
        ∃ t f, exec i s = .next t ∧ converting o = some f ∧ Wrote t c f := by
      intro o i f hf hrun h hw
      obtain ⟨t, ht, hwr⟩ := hrun h hw
      exact ⟨t, f, ht, hf, hwr⟩
    refine ⟨?cvtf, ?cvtn, ?dqn, ?pack, ?unpk⟩
    case cvtf => exact settle rfl fun h _ => lanes_wrote_one h hc (regsOfType_pos _) fun _ => ⟨_, rfl⟩
    case cvtn => exact settle rfl fun h _ => lanes_wrote_typed h hc rfl fun _ => ⟨_, rfl⟩
    case dqn => exact settle rfl fun h hw => lanes_wrote h hc (Cx.fits_lanes h hw rfl rfl fun _ => ⟨_, rfl⟩)
    case pack => exact settle rfl fun h _ => lanes_wrote_one h hc le_rfl fun _ => ⟨_, rfl⟩
    case unpk => exact settle rfl fun h hw => lanes_wrote h hc (Cx.fits_lanes h hw rfl rfl fun _ => ⟨_, rfl⟩)
  case cvt =>
    obtain ⟨-, -, -, he⟩ := State.ready_at h
    have hbody : cvtBody c s = lanesDraw c.cvtDraws cvtVal c s := if_neg (by rw [he]; tauto)
    obtain ⟨t, ht, hwr, hd⟩ := lanesDraw_wrote hbody h hc (fits_cvtVal h)
    refine ⟨t, ht, hwr, fun th hth hp hs => ?_⟩
    rw [hd th hth hp hs, Cx.cvtDraws_word, he]
  case rnd =>
    have hval : (fun (c : Cx) (th : Thread) => c.e.op0.writes 1 ((c.g.draw th 0).toNat / 2 ^ 32)) =
        fun c th => c.dstN 1 ((c.g.draw th 0).extractLsb' 32 32).toNat := by
      funext c th
      rw [draw_upper]
      rfl
    rw [hval]
    exact lanesDraw_wrote rfl h hc (Cx.fits_dst h 1 le_rfl (by decide) fun _ => ⟨_, rfl⟩)
  case qnt =>
    obtain ⟨-, -, -, he⟩ := State.ready_at h
    have hbody : qntBody c s = qntFinish 0 c.sigma c s := if_neg (he ▸ hsrc)
    have hrun : exec (.qnt e) s = .next ((qntBody c s).outcome c s) := issueE_ready _ h
    rw [hbody, qntFinish_eq h hw] at hrun
    have hwr := quantised_wrote h hw hc
    refine ⟨fun hov => ?_, fun ⟨hov, th, hth, q, hq, hqo⟩ => ?_⟩
    · rw [hov, Bool.false_and, if_neg (by decide)] at hrun
      exact ⟨_, hrun, hwr.congr fun k r => State.reg_of_cores (Act.outcome_done_cores ..) _ k r⟩
    · have hany : (c.act.any fun t => (c.quantise t (c.sigma t)).any fun q => q.2.1) = true :=
        List.any_eq_true.mpr ⟨th, hth, List.any_eq_true.mpr ⟨q, hq, hqo⟩⟩
      rw [hov, hany, Bool.and_self, if_pos rfl] at hrun
      exact ⟨_, s.quantised c, hrun, hwr, by rw [← he]; rfl⟩

end Sys2Proof.Machine
end

section
/-! PROOFS. The cells of a tile (O38; R46 to R49, R240): what a placed value and an added tile come to. -/

namespace Sys2Proof.Machine

/-! ### Placing a value -/

/-- A magnitude that is a whole number is rounded to itself (R101). -/
theorem roundInt_of_nonneg (mode : Mode) (neg : Bool) (m : Nat) {e : Int} (h : 0 ≤ e) :
    roundInt mode neg m e = m * 2 ^ e.toNat := by
  simp [roundInt, roundMag, h]

/-- A whole number of anchor units below 2^127 is placed as it is, without overflow (R47). -/
theorem placeInt_of_exact (neg : Bool) (m : Nat) {e a : Int} (h : a ≤ e) (hlt : m * 2 ^ (e - a).toNat < 2 ^ 127) :
    placeInt neg m e a =
      (if neg then -((m * 2 ^ (e - a).toNat : Nat) : Int) else (m * 2 ^ (e - a).toNat : Nat), false) := by
  have hr : roundInt .rne neg m (e - a) = m * 2 ^ (e - a).toNat := roundInt_of_nonneg _ _ _ (by omega)
  unfold placeInt
  rw [hr]
  have hmin : Nat.min (m * 2 ^ (e - a).toNat) (2 ^ 127 - 1) = m * 2 ^ (e - a).toNat := Nat.min_eq_left (by omega)
  have hle : ¬ 2 ^ 127 - 1 < m * 2 ^ (e - a).toNat := by omega
  simp only [hmin, hle, decide_false]

theorem Tile.place_zero (t : Tile) (i : Nat) (neg : Bool) (e : Int) : t.place i (.fin neg 0 e) = t := by
  simp [Tile.place]

theorem Tile.place_fin (t : Tile) (i : Nat) (neg : Bool) {m : Nat} (e : Int) (hm : m ≠ 0) :
    t.place i (.fin neg m e) =
      { t with n := modAt t.n i fun y => y + BitVec.ofInt 128 (placeInt neg m e t.anchor).1
               ov := t.ov || (placeInt neg m e t.anchor).2 } := if_neg hm

/-- A value of whole anchor units below 2^127 adds its integer to its cell, modulo 2^128, without overflow (R46, R47). -/
theorem Tile.place_exact {t : Tile} {i : Nat} (hi : i < t.n.length) (neg : Bool) {m : Nat} {e : Int} (hm : m ≠ 0)
    (he : t.anchor ≤ e) (hlt : m * 2 ^ (e - t.anchor).toNat < 2 ^ 127) :
    (t.place i (.fin neg m e)).n[i]? = some (t.n.getD i 0 + BitVec.ofInt 128
        (if neg then -((m * 2 ^ (e - t.anchor).toNat : Nat) : Int) else (m * 2 ^ (e - t.anchor).toNat : Nat)))
      ∧ (t.place i (.fin neg m e)).ov = t.ov := by
  rw [Tile.place_fin t i neg e hm, placeInt_of_exact neg m he hlt]
  simp [List.getElem?_eq_getElem hi]

/-- A placed value changes no other cell (R240). -/
theorem Tile.place_other (t : Tile) {i j : Nat} (x : FVal) (h : j ≠ i) :
    (t.place i x).n[j]? = t.n[j]? ∧ (t.place i x).sp[j]? = t.sp[j]? := by
  cases x with
  | nan => exact ⟨rfl, getElem?_modAt_other _ _ h.symm⟩
  | inf neg => exact ⟨rfl, getElem?_modAt_other _ _ h.symm⟩
  | fin neg m e =>
    by_cases hm : m = 0
    · rw [hm, Tile.place_zero]; exact ⟨rfl, rfl⟩
    · rw [Tile.place_fin t i neg e hm]; exact ⟨getElem?_modAt_other _ _ h.symm, rfl⟩

/-- A NaN makes its cell NaN (R48). -/
theorem Tile.place_nan {t : Tile} {i : Nat} (hi : i < t.sp.length) : (t.place i .nan).sp[i]? = some .nan := by
  have hjoin : ∀ x, Special.join .nan x = .nan := fun x => by cases x <;> rfl
  simp [Tile.place, List.getElem?_eq_getElem hi, hjoin]

/-- An infinity joins the special state of its cell (R48). -/
theorem Tile.place_inf {t : Tile} {i : Nat} (hi : i < t.sp.length) (neg : Bool) :
    (t.place i (.inf neg)).sp[i]? = some (Special.join (if neg then .ninf else .pinf) (t.sp.getD i .none)) := by
  simp [Tile.place, List.getElem?_eq_getElem hi]

/-! ### Adding a tile -/

/-- Tiles of one anchor add cell by cell modulo 2^128, with neither alignment nor saturation (R46, R49, R240; log 89). -/
theorem Tile.add_same_anchor {t u : Tile} {i : Nat} (ha : u.anchor = t.anchor) (ht : i < t.n.length) (hu : i < u.n.length) :
    let x := t.add (u.n.map BitVec.toInt) u.sp u.anchor u.ov
    x.n[i]? = some (t.n.getD i 0 + u.n.getD i 0) ∧ x.ov = (t.ov || u.ov) ∧ x.anchor = t.anchor := by
  simp [Tile.add, ha, ht, hu]

end Sys2Proof.Machine
end

section
/-! PROOFS. The completion of matrix commands (O38; R233, R236 to R238, R240, R241): each effect is one change of its group's
engine state, after which the command leaves its queue. -/

namespace Sys2Proof.Machine

/-! ### Leaving the queue -/

/-- Without tracing, nothing is recorded (R400). -/
theorem State.trace_off {s : State} {vf : Nat} {engine : Option Nat} (h : (s.vf vf).traces engine = false) (r : TraceRec) :
    s.trace vf engine r = s := by
  simp [State.trace, h]

/-- The queues without a command. -/
def State.withoutMx (s : State) (k : MxCmd) : State :=
  { s with fill := s.fill.filter fun x => x.id != k.id, compute := s.compute.filter fun x => x.id != k.id }

/-- A group that a command belongs to is not traced (R400). -/
def State.MxUntraced (s : State) (k : MxCmd) (fill : Bool) : Prop :=
  ∀ gi g, s.groupOf k.group = some gi → s.groups[gi]? = some g → (s.vf g.vf).traces (some (if fill then 1 else 2)) = false

theorem State.mxEnd_eq {s : State} {k : MxCmd} {fill : Bool} (h : s.MxUntraced k fill) :
    s.mxEnd k fill = ((s.withoutMx k).count k.cl 8 1).sweepFences := by
  unfold State.mxEnd
  dsimp only
  split
  · next g hg =>
    obtain ⟨gi, hgi, hget⟩ := Option.bind_eq_some_iff.mp hg
    rw [State.trace_off]
    · rfl
    · exact h gi g hgi hget
  · rfl

/-- WHAT THE END OF A MATRIX COMMAND LEAVES without tracing: the groups, and the queues but for the command (R233). -/
theorem State.mxEnd_spares {s : State} {k : MxCmd} {fill : Bool} (h : s.MxUntraced k fill) :
    (s.withoutMx k).Spares (s.mxEnd k fill) := by
  rw [State.mxEnd_eq h]
  exact .trans (t := (s.withoutMx k).count k.cl 8 1) ⟨rfl, rfl, rfl⟩ (State.sweepFences_spares _)

theorem State.mxEnd_byte {s : State} {k : MxCmd} {fill : Bool} (h : s.MxUntraced k fill) (hs : s.MemOk) (a : Nat) :
    (s.mxEnd k fill).byte a = s.byte a := by
  have hcount : ((s.withoutMx k).count k.cl 8 1).MemOk := hs.of_ms rfl
  rw [State.mxEnd_eq h, State.sweepFences_byte hcount]
  exact State.byte_congr (by rfl) a

/-! ### A change of a group's engine state -/

/-- A change of a group that leaves its threads, its S registers, and what it is. -/
def EngineChange (F : Group → Group) : Prop :=
  ∀ g, (F g).threads = g.threads ∧ (F g).s = g.s ∧ (F g).uid = g.uid ∧ (F g).vf = g.vf

theorem State.groupOf_setGroup (s : State) (i : Nat) {F : Group → Group} (hF : ∀ g, (F g).uid = g.uid) (uid : Nat) :
    (s.setGroup i F).groupOf uid = s.groupOf uid := by
  have huids : ∀ u : State, u.groupOf uid = (u.groups.map Group.uid).findIdx? fun x => x = uid := fun u => by
    rw [List.findIdx?_map]; rfl
  rw [huids, huids]
  exact congrArg (List.findIdx? _) (map_modAt_of Group.uid F hF s.groups i)

/-- An engine change leaves every register. -/
theorem EngineChange.sameRegs {F : Group → Group} (hF : EngineChange F) (s : State) (i : Nat) : SameRegs s (s.setGroup i F) := by
  intro gi k r
  by_cases hi : i = gi
  · refine State.reg_of_groups (f := F) (by rw [State.setGroup_get, if_pos hi]) (fun g => ?_) (fun g => (hF g).2.1) r
    unfold Group.find
    rw [(hF g).1]
  · exact s.setGroup_reg_other F hi k r

/-- What is read of a group's core is the same where the cores are. -/
theorem State.groupAt_of_cores {α : Type} {s t : State} (h : t.cores = s.cores) (gi : Nat) (f : Group → α)
    (hf : ∀ g : Group, f g.core = f g) : t.groupAt gi f = s.groupAt gi f := by
  have hcore : ∀ u : State, u.groupAt gi f = ((u.groups[gi]?).map Group.core).map f := fun u => by
    rw [Option.map_map]
    exact congrArg (Option.map · _) (funext fun g => (hf g).symm)
  rw [hcore, hcore s, State.core_of_cores h]

/-! ### The service of a command -/

/-- The state in which a command takes effect: what a pin had refused it is served (R186). -/
def State.mxServed (s : State) (k : MxCmd) : State := { s with ms := s.ms.served k.id k.key }

/-- A command that reads and writes on the cluster alone waits for no line and for no pin (R233). -/
theorem State.mxServe_local {s : State} {gi : Nat} {g : Group} {k : MxCmd} {fill : Bool} (hp : k.performed = false)
    (hreads : k.reads g = []) (hdrain : k.o = .adrain → k.toScratch = true) :
    s.mxServe gi g k fill =
      if k.o != .adrain then ((s.mxServed k).mxEffect gi g k).mxEnd k fill
      else if ((s.mxServed k).mxEffect gi g k).fab.reqs.any fun r => r.copy = k.id then
        ((s.mxServed k).mxEffect gi g k).setMx k.id fun k => { k with performed := true }
      else (((s.mxServed k).mxEffect gi g k).adrainBytes gi g k).mxEnd k fill := by
  have hmissing : s.mxMissing g k = [] := by rw [State.mxMissing, hreads]; rfl
  have hpinned : s.mxPinned g k = none := by
    unfold State.mxPinned
    by_cases hd : k.o = .adrain
    · simp [hd, hdrain hd]
    · simp [hd, hreads]
  unfold State.mxServe
  simp only [hp, hmissing, hpinned, List.isEmpty_nil, Bool.not_true, Bool.false_eq_true, if_false]
  rfl

/-- The oldest command of a queue, free to take effect, is served (R233). -/
theorem evMatrixCommandComplete_served {s : State} {cl gi : Nat} {fill : Bool} {k : MxCmd} {rest : List MxCmd} {g : Group}
    (hq : s.mxQueue cl fill = k :: rest) (hgi : s.groupOf k.group = some gi) (hg : s.groups[gi]? = some g)
    (hfree : s.mxFree k = true) (ho : k.o ≠ .aread) :
    exec (.matrixCommandComplete cl fill) s = .next (s.mxServe gi g k fill) := by
  show Host.Outcome.next (evMatrixCommandComplete cl fill s) = _
  unfold evMatrixCommandComplete
  simp only [hq, ho, hfree, hgi, hg, Option.bind_some, Option.map_some, if_false, Bool.not_true, Bool.false_eq_true]

/-- What the completion of a command gives: a next state with every byte and register as before, the group's weights, tiles
and scratchpad, and the command out of its queue (R233). -/
def MxCompletes (s : State) (cl gi : Nat) (fill : Bool) (k : MxCmd) (weights : List Weight) (tiles : List Tile)
    (scratch : Memory) : Prop :=
  ∃ t, exec (.matrixCommandComplete cl fill) s = .next t ∧ (∀ a, t.byte a = s.byte a) ∧ SameRegs s t
    ∧ t.groupAt gi Group.weights = some weights ∧ t.groupAt gi Group.tiles = some tiles
    ∧ t.groupAt gi Group.scratch = some scratch ∧ ∀ x ∈ t.fill ++ t.compute, x.id ≠ k.id

/-- A COMMAND WHOSE EFFECT IS ONE ENGINE CHANGE completes with it. -/
theorem mxCompletes_of_change {s : State} {cl gi : Nat} {fill : Bool} {k : MxCmd} {g : Group} {F : Group → Group}
    (hgi : s.groupOf k.group = some gi) (hg : s.groups[gi]? = some g)
    (htr : (s.vf g.vf).traces (some (if fill then 1 else 2)) = false) (hmem : s.MemOk) (hF : EngineChange F)
    (hrun : exec (.matrixCommandComplete cl fill) s = .next (((s.mxServed k).setGroup gi F).mxEnd k fill)) :
    MxCompletes s cl gi fill k (F g).weights (F g).tiles (F g).scratch := by
  have hget : ((s.mxServed k).setGroup gi F).groups[gi]? = some (F g) := by
    rw [State.setGroup_get, if_pos rfl]
    exact congrArg (Option.map F) hg
  have hoff : ((s.mxServed k).setGroup gi F).MxUntraced k fill := by
    intro gi' g' hgi' hg'
    rw [State.groupOf_setGroup _ _ fun g => (hF g).2.2.1] at hgi'
    cases hgi.symm.trans hgi'
    cases hget.symm.trans hg'
    rw [(hF g).2.2.2]
    exact htr
  have hok : ((s.mxServed k).setGroup gi F).MemOk := hmem.of_contents rfl rfl
  obtain ⟨hcores, hfill, hcompute⟩ := State.mxEnd_spares hoff
  have read : ∀ {α : Type} (f : Group → α), (∀ g : Group, f g.core = f g) →
      (((s.mxServed k).setGroup gi F).mxEnd k fill).groupAt gi f = some (f (F g)) := by
    intro α f hf
    rw [State.groupAt_of_cores hcores gi f hf]
    exact congrArg (Option.map f) hget
  refine ⟨_, hrun, fun a => ?_, fun i j r => ?_, read _ fun _ => rfl, read _ fun _ => rfl, read _ fun _ => rfl, fun x hx => ?_⟩
  · rw [State.mxEnd_byte hoff hok]
    exact State.byte_pins rfl rfl a
  · rw [State.reg_of_cores hcores]
    exact hF.sameRegs (s.mxServed k) gi i j r
  · rw [hfill, hcompute] at hx
    rcases List.mem_append.mp hx with hx | hx
    · simpa using (List.mem_filter.mp hx).2
    · simpa using (List.mem_filter.mp hx).2

/-! ### The effects -/

/-- A group with a weight slot changed. -/
def Group.setWeight (g : Group) (i : Nat) (f : Weight → Weight) : Group := { g with weights := modAt g.weights i f }

/-- A group with a tile changed. -/
def Group.setTile (g : Group) (i : Nat) (f : Tile → Tile) : Group := { g with tiles := modAt g.tiles i f }

theorem engineChange_setWeight (i : Nat) (f : Weight → Weight) : EngineChange fun g => g.setWeight i f :=
  fun _ => ⟨rfl, rfl, rfl, rfl⟩

theorem engineChange_setTile (i : Nat) (f : Tile → Tile) : EngineChange fun g => g.setTile i f :=
  fun _ => ⟨rfl, rfl, rfl, rfl⟩

/-- The slot that a WBLD loads from the scratchpad (R236). -/
def MxCmd.loaded (k : MxCmd) (g : Group) : Weight :=
  { sp24 := decide (k.e.lo.toNat / 8 = 1), c := mxContainer k.e.ty.toNat (g.launch.ks.getD k.e.sc.toNat 0), p := k.x
    scratch := true, src := k.base, data := g.spBytes k.base k.y, mark := none, bad := false }

/-- WBLD from a scratchpad without an error loads its slot (R236, R237). -/
theorem State.wbldDone_scratch {s : State} {gi : Nat} {g : Group} {k : MxCmd} (hs : k.e.lo.toNat / 4 % 2 = 1)
    (hok : (g.engineSp k.base k.y).2 = none) :
    s.wbldDone gi g k = s.setGroup gi fun g' => g'.setWeight k.e.op0.index fun _ => k.loaded g := by
  unfold State.wbldDone
  simp only [hs, decide_true, if_true, hok, Option.map_none]
  rfl

/-- The bits of an A container of an MMA (R234). -/
def MxCmd.aBits (k : MxCmd) (g : Group) : Nat := mxContainer k.e.ty.toNat (g.launch.ks.getD k.e.sc.toNat 0)

/-- K of an MMA (R234). -/
def MxCmd.mmaK (k : MxCmd) (g : Group) : Nat :=
  pairK (Nat.max (k.aBits g) (mxContainer k.e.ty.toNat (g.launch.ks.getD (k.e.lo.toNat % 8) 0)))

/-- The product that an MMA places into cell (i, j) for element q of K (R238). -/
def MxCmd.product (k : MxCmd) (g : Group) (i j q : Nat) : FVal :=
  let w := g.weight k.e.op2.index
  (mxDecode k.e.ty.toNat (g.launch.ks.getD k.e.sc.toNat 0) (g.aCode k (k.mmaK g) (k.aBits g) i q)).mul
    (if w.p = 0 then .fin false 0 0
      else mxDecode k.e.ty.toNat (g.launch.ks.getD (k.e.lo.toNat % 8) 0) (w.code (k.x + q) j))

/-- The cells that an MMA places products into, each with an element of K, in order (R238). -/
def mmaCells (kk : Nat) : List (Nat × Nat × Nat) :=
  (List.range 32).flatMap fun i => (List.range 32).flatMap fun j => (List.range kk).map fun q => (i, j, q)

/-- The tile of an MMA with its products placed (R238). -/
def MxCmd.accumulated (k : MxCmd) (g : Group) : Tile :=
  (mmaCells (k.mmaK g)).foldl (fun t x => t.place (32 * x.1 + x.2.1) (k.product g x.1 x.2.1 x.2.2)) (g.tile k.e.op0.index)

/-- MMA with sound operands and no bytes to subtract places its products (R238). -/
theorem State.mmaDone_sound {s : State} {gi : Nat} {g : Group} {k : MxCmd} (hsub : k.e.imm.toNat / 128 % 2 = 0)
    (hbad : (g.weight k.e.op2.index).bad = false) (hok : (g.engineSp k.base (4 * k.mmaK g * k.aBits g)).2 = none) :
    s.mmaDone gi g k = s.setGroup gi fun g' => g'.setTile k.e.op0.index fun _ => k.accumulated g := by
  have hnosub : ¬ k.e.imm.toNat / 128 % 2 = 1 := by omega
  have hsound : ¬ (g.engineSp k.base (4 * k.mmaK g * k.aBits g)).2.isSome = true := by simp [hok]
  unfold State.mmaDone
  dsimp only
  rw [if_neg hnosub, hbad, if_neg (by decide)]
  refine (if_neg hsound).trans ?_
  unfold MxCmd.accumulated mmaCells
  simp only [List.foldl_flatMap, List.foldl_map]
  rfl

/-- The source tile of an AADD added to a tile (R240). -/
def MxCmd.summed (k : MxCmd) (g : Group) (t : Tile) : Tile :=
  let x := g.tile k.e.op1.index
  t.add (x.n.map BitVec.toInt) x.sp x.anchor x.ov

/-- AADD of sound tiles adds the source's cells (R240). -/
theorem State.aaddDone_tile {s : State} {gi : Nat} {g : Group} {k : MxCmd} (hsrc : k.e.lo.toNat / 2 = 0)
    (hd : (g.tile k.e.op0.index).bad = []) (hx : (g.tile k.e.op1.index).bad = []) :
    s.aaddDone gi g k = s.setGroup gi fun g' => g'.setTile k.e.op0.index (k.summed g) := by
  unfold State.aaddDone
  simp only [hd, hx, hsrc, List.isEmpty_nil, Bool.not_true, Bool.false_eq_true, if_false]
  rfl

/-! ### A drain of raw cells to the scratchpad -/

/-- The scratchpad offset of cell n of a drain of raw cells (R241). -/
def MxCmd.rawAt (k : MxCmd) (n : Nat) : Nat :=
  wrap 32 ((k.base : Int) + (n / 32 : Nat) * sext 32 k.x + (16 * (n % 32) : Nat))

/-- A command that drains raw cells to the scratchpad by their places, and tells no barrier (R241). -/
structure MxCmd.DrainsRaw (k : MxCmd) : Prop where
  isDrain : k.o = .adrain
  raw : k.e.ty = 15
  stores : k.e.lo.toNat / 4 = 0
  scratch : k.e.lo.toNat / 2 % 2 = 1
  quiet : k.e.lo.toNat % 2 = 0

theorem MxCmd.DrainsRaw.toScratch {k : MxCmd} (h : k.DrainsRaw) : k.toScratch = true := by
  simp [MxCmd.toScratch, h.stores, h.scratch]

theorem MxCmd.DrainsRaw.drainTo {k : MxCmd} (h : k.DrainsRaw) : k.drainTo = none := by
  simp [MxCmd.drainTo, h.stores]

theorem elemBits_raw (w : Word) : elemBits 15 w = 128 := rfl

theorem MxCmd.DrainsRaw.place {k : MxCmd} (h : k.DrainsRaw) (g : Group) (n : Nat) :
    k.place g none n = some (k.rawAt n, 0) := by
  have hty : k.e.ty.toNat = 15 := by rw [h.raw]; rfl
  have hbyte : n % 32 * 128 / 8 = 16 * (n % 32) := by omega
  have hbit : n % 32 * 128 % 8 = 0 := by omega
  simp [MxCmd.place, h.scratch, hty, elemBits_raw, hbyte, hbit, MxCmd.rawAt]

theorem MxCmd.DrainsRaw.elem {k : MxCmd} (h : k.DrainsRaw) (g : Group) (t : Tile) (old n : Nat) :
    k.elem g t old n = (t.raw n, false) := by
  have hty : k.e.ty.toNat = 15 := by rw [h.raw]; rfl
  simp [MxCmd.elem, MxCmd.code, h.stores, hty]

/-- One element of such a drain stores the cell's 16 bytes (R241). -/
theorem drainElem_raw {gi : Nat} {g : Group} {k : MxCmd} (h : k.DrainsRaw) (t : Tile) (x : Drain) (n : Nat) :
    drainElem gi g k none t x n = (x.1.setGroup gi fun g => g.spWrite (k.rawAt n) (natBytes 16 (t.raw n)), x.2) := by
  have hty : k.e.ty.toNat = 15 := by rw [h.raw]; rfl
  unfold drainElem
  rw [h.place]
  simp [hty, elemBits_raw, h.elem, h.stores, drainPut, h.toScratch]

/-- The group after the cells of a list have been stored (R241). -/
def MxCmd.stored (k : MxCmd) (t : Tile) (ns : List Nat) (g : Group) : Group :=
  ns.foldl (fun g n => g.spWrite (k.rawAt n) (natBytes 16 (t.raw n))) g

@[simp] theorem Group.spWrite_spOffset (g : Group) (o : Nat) (bytes : List Byte) (a : Nat) :
    (g.spWrite o bytes).spOffset a = g.spOffset a := rfl

@[simp] theorem Group.spWrite_scratch (g : Group) (o : Nat) (bytes : List Byte) :
    (g.spWrite o bytes).scratch = Memory.writeN g.scratch (g.spOffset o) bytes := rfl

theorem MxCmd.stored_cons (k : MxCmd) (t : Tile) (n : Nat) (ns : List Nat) (g : Group) :
    k.stored t (n :: ns) g = k.stored t ns (g.spWrite (k.rawAt n) (natBytes 16 (t.raw n))) := List.foldl_cons ..

/-- Stores to the scratchpad leave what no store changes. -/
theorem MxCmd.stored_keeps {α : Type} {f : Group → α} (hf : ∀ g o bytes, f (Group.spWrite g o bytes) = f g) (k : MxCmd)
    (t : Tile) (ns : List Nat) (g : Group) : f (k.stored t ns g) = f g := by
  induction ns generalizing g with
  | nil => rfl
  | cons n ns ih => rw [MxCmd.stored_cons, ih, hf]

/-- The scratchpad after the stores holds the cells, in order. -/
theorem MxCmd.stored_scratch (k : MxCmd) (t : Tile) (ns : List Nat) (g : Group) : (k.stored t ns g).scratch =
    ns.foldl (fun m n => Memory.writeN m (g.spOffset (k.rawAt n)) (natBytes 16 (t.raw n))) g.scratch := by
  induction ns generalizing g with
  | nil => rfl
  | cons n ns ih =>
    rw [MxCmd.stored_cons, ih, List.foldl_cons]
    simp only [Group.spWrite_spOffset, Group.spWrite_scratch]

theorem engineChange_stored (k : MxCmd) (t : Tile) (ns : List Nat) : EngineChange (k.stored t ns) := fun g =>
  ⟨k.stored_keeps (fun _ _ _ => rfl) t ns g, k.stored_keeps (fun _ _ _ => rfl) t ns g,
    k.stored_keeps (fun _ _ _ => rfl) t ns g, k.stored_keeps (fun _ _ _ => rfl) t ns g⟩

theorem modAt_modAt {α : Type} (l : List α) (i : Nat) (f h : α → α) :
    modAt (modAt l i f) i h = modAt l i fun x => h (f x) := by
  induction l generalizing i with
  | nil => rfl
  | cons x xs ih =>
    cases i with
    | zero => rfl
    | succ i => simp [modAt, ih]

theorem modAt_id {α : Type} (l : List α) (i : Nat) : modAt l i (fun x => x) = l := by
  induction l generalizing i with
  | nil => rfl
  | cons x xs ih =>
    cases i with
    | zero => rfl
    | succ i => simp [modAt, ih]

/-- Two changes of a group one after the other. -/
theorem State.setGroup_setGroup (s : State) (i : Nat) (f h : Group → Group) :
    (s.setGroup i f).setGroup i h = s.setGroup i fun g => h (f g) := by
  simp [State.setGroup, modAt_modAt]

theorem State.setGroup_id (s : State) (i : Nat) : (s.setGroup i fun g => g) = s := by
  simp [State.setGroup, modAt_id]

/-- The elements of such a drain, one after the other, store their cells (R241). -/
theorem foldl_drainElem_raw {gi : Nat} {g : Group} {k : MxCmd} (h : k.DrainsRaw) (t : Tile) (ns : List Nat) (s : State) :
    ns.foldl (drainElem gi g k none t) (s, false) = (s.setGroup gi (k.stored t ns), false) := by
  induction ns generalizing s with
  | nil =>
    have hnone : k.stored t [] = fun g => g := rfl
    rw [List.foldl_nil, hnone, State.setGroup_id]
  | cons n ns ih =>
    rw [List.foldl_cons, drainElem_raw h, ih, State.setGroup_setGroup, funext (k.stored_cons t n ns)]

/-- ADRAIN of the raw cells of a sound tile to the scratchpad stores each cell's 16 bytes (R241). -/
theorem State.adrainDone_raw {s : State} {gi : Nat} {g : Group} {k : MxCmd} (h : k.DrainsRaw)
    (hd : (g.tile k.e.op0.index).bad = []) :
    s.adrainDone gi g k = s.setGroup gi (k.stored (g.tile k.e.op0.index) (List.range 1024)) := by
  unfold State.adrainDone
  simp only [hd, h.drainTo, foldl_drainElem_raw h, List.isEmpty_nil, Bool.not_true, Bool.false_eq_true, if_false]

end Sys2Proof.Machine
end

section
/-! PROOFS. AREAD (R233, R242), and the effects of matrix commands put together (O38). -/

namespace Sys2Proof.Machine

/-! ### AREAD enters the compute queue -/

/-- The command that AREAD enters for its sheaf (R233). -/
def Cx.areadCmd (c : Cx) (s : State) : MxCmd := c.mxCmd s c.first (s.uids + 1) 0 0 0 0 [] []

/-- An AREAD without a command enters one, where the queue has room, and its sheaf stays (R233). -/
theorem areadBody_enters {c : Cx} {s : State} (hact : c.act ≠ []) (hmine : c.myAread s = none)
    (hroom : s.mxRoom c.g.cl false = true) :
    areadBody c s = .stay ((s.mxEnter false (c.areadCmd s)).setSheaf c.gi c.si fun sh =>
      { sh with acted := [(c.areadCmd s).key] }) := by
  unfold areadBody
  simp only [hact, List.isEmpty_iff, hmine, hroom, if_true, if_false]
  rfl

theorem Cx.areadCmd_key {c : Cx} (s : State) (hact : c.act ≠ []) :
    c.act.head?.map Thread.key = some (c.areadCmd s).key := by
  obtain ⟨t, ts, hts⟩ := List.exists_cons_of_ne_nil hact
  have hfirst : c.first = t := by rw [Cx.first, hts]; rfl
  rw [hts, Cx.areadCmd, hfirst]
  rfl

/-- The i-th sheaf of a group after a change of it. -/
theorem State.setSheaf_get {s : State} {gi si : Nat} {g : Group} {sh : Sheaf} {f : Sheaf → Sheaf}
    (hg : s.groups[gi]? = some g) (hsh : g.sheaves[si]? = some sh) :
    ∃ g' ∈ (s.setSheaf gi si f).groups[gi]?, g'.sheaves[si]? = some (f sh) := by
  refine ⟨{ g with sheaves := modAt g.sheaves si f }, ?_, ?_⟩
  · rw [State.setSheaf, State.setGroup_get, if_pos rfl, hg]
    rfl
  · show (modAt g.sheaves si f)[si]? = _
    rw [getElem?_modAt_same, hsh]
    rfl

/-! ### AREAD completes -/

/-- Two groups of one core have the same shape. -/
theorem Group.Shaped.of_core {g h : Group} (hg : g.Shaped) (hc : h.core = g.core) : h.Shaped := by
  have core_iff : ∀ x : Group, x.core.Shaped ↔ x.Shaped := fun x => by
    simp [Group.Shaped, Group.core, Function.comp_def, Thread.core]
  rw [← core_iff, hc, core_iff]
  exact hg

/-- What AREAD gives a thread goes into V registers that are there (R17, R242). -/
theorem fits_areadVal {s : State} {e : Ext} {c : Cx} (h : s.readyE .aread e = some c) (hw : Op.aread.wellFormed e = true) :
    c.Fits Cx.areadVal := by
  obtain ⟨-, -, -, he⟩ := State.ready_at h
  have hv := State.ready_vregsOk h
  obtain ⟨i, hi⟩ := Pos.eq_v_of_accepts (n := if e.ty = 15 then 4 else 1) (Op.wellFormed_accepts0 hw)
  have below : ∀ {j : Nat}, j < regSpan c.g.launch.ks .aread e 0 → (Reg.v (e.op0.index + j)).inLaunch c.g.launch.nv :=
    fun hj => hi ▸ vregsOk_v (k := 0) hv (by decide) (litAt_zero _ e) hi hj
  intro t _ w hmem
  unfold Cx.areadVal at hmem
  rw [he] at hmem
  dsimp only at hmem
  split at hmem
  · next hty =>
    have hspan : 1 ≤ regSpan c.g.launch.ks .aread e 0 := by simp [regSpan, hty]
    rw [Cx.dstN, he] at hmem
    exact Opnd.writes_inLaunch (k := 0) hv (by decide) (litAt_zero _ e) hspan (by decide) w hmem
  · next hty =>
    split at hmem
    · next hraw =>
      have hspan : regSpan c.g.launch.ks .aread e 0 = e.op3.index * 4 := by simp [regSpan, hraw]
      obtain ⟨j, hj, hcell⟩ := List.mem_flatMap.mp hmem
      obtain ⟨⟨y, b⟩, hb, rfl⟩ := List.mem_map.mp hcell
      have hb4 := List.snd_lt_of_mem_zipIdx hb
      rw [length_natWords] at hb4
      have hjn := List.mem_range.mp hj
      show (Reg.v (e.op0.index + 4 * j + b)).inLaunch _
      rw [Nat.add_assoc]
      exact below (by omega)
    · next hraw =>
      have hspan : regSpan c.g.launch.ks .aread e 0 = e.op3.index := by
        show (if e.ty = 6 then 1 else e.op3.index * (if e.ty = 15 then 4 else 1)) = _
        rw [if_neg hty, if_neg hraw, Nat.mul_one]
      obtain ⟨j, hj, rfl⟩ := List.mem_map.mp hmem
      exact below (hspan ▸ List.mem_range.mp hj)

/-- An AREAD whose command is the oldest reads a tile without a mark or an error (R233, R242, R243). -/
theorem areadBody_reads {c : Cx} {s : State} {k : MxCmd} (hact : c.act ≠ []) (hmine : c.myAread s = some k)
    (hhead : ((s.mxQueue c.g.cl false).head?).map MxCmd.id = some k.id) (hmark : (c.g.tile c.e.op1.index).mark = none)
    (hbad : (c.g.tile c.e.op1.index).bad = []) : areadBody c s = lanes Cx.areadVal c (s.mxEnd k false) := by
  have hsound : ∀ t : Thread, (c.areadCells t).any (c.g.tile c.e.op1.index).bad.contains = false := fun t => by
    simp [hbad]
  unfold areadBody
  simp only [hact, List.isEmpty_iff, hmine, hhead, hmark, hsound, Cx.bads, bne_self_eq_false, Bool.false_eq_true, if_false,
    Option.map_none, List.filterMap_none, List.isEmpty_nil, Bool.not_true]

@[simp] theorem State.fallThrough_compute (s : State) (gi si : Nat) (pc : Addr) :
    (s.fallThrough gi si pc).compute = s.compute := by
  unfold State.fallThrough
  split
  · rfl
  · split <;> rfl

@[simp] theorem State.fallThrough_fill (s : State) (gi si : Nat) (pc : Addr) : (s.fallThrough gi si pc).fill = s.fill := by
  unfold State.fallThrough
  split
  · rfl
  · split <;> rfl

@[simp] theorem State.advance_compute (s : State) (c : Cx) : (s.advance c).compute = s.compute := by
  unfold State.advance
  dsimp only
  split <;> simp

@[simp] theorem State.advance_fill (s : State) (c : Cx) : (s.advance c).fill = s.fill := by
  unfold State.advance
  dsimp only
  split <;> simp

/-- The closing of an instruction leaves the groups' cores and the engines' queues. -/
theorem Act.outcome_done_spares (c : Cx) (s s' : State) : s'.Spares ((Act.done s').outcome c s) := by
  refine ⟨Act.outcome_done_cores c s s', ?_, ?_⟩ <;> simp [Act.outcome, Act.close]

/-- AN AREAD WHOSE COMMAND IS THE OLDEST COMPLETES with its values, and changes nothing else (R242). -/
theorem aread_completes {s : State} {e : Ext} {c : Cx} {k : MxCmd} (h : s.readyE .aread e = some c)
    (hw : Op.aread.wellFormed e = true) (hc : c.g.Shaped) (hbody : areadBody c s = lanes Cx.areadVal c (s.mxEnd k false))
    (hoff : s.MxUntraced k false) (hmem : s.MemOk) :
    ∃ t, exec (.aread e) s = .next t ∧ Wrote t c Cx.areadVal ∧ (∀ a, t.byte a = s.byte a)
      ∧ (∀ gi key r, ¬ Written c Cx.areadVal gi key r → t.reg gi key r = s.reg gi key r)
      ∧ t.compute = s.compute.filter (fun x => x.id != k.id) ∧ t.fill = s.fill.filter fun x => x.id != k.id := by
  obtain ⟨hg, -, -, -⟩ := State.ready_at h
  obtain ⟨hcores, hfill, hcompute⟩ := State.mxEnd_spares hoff
  have hcores : (s.mxEnd k false).cores = s.cores := hcores
  obtain ⟨g, hget, hcore⟩ := State.group_of_cores hcores hg
  have hgc : g.Shaped := hc.of_core hcore
  have hlaunch : g.core.launch = c.g.core.launch := by rw [hcore]
  let u := (s.mxEnd k false).setGroup c.gi fun g => g.apply (c.writes Cx.areadVal)
  have hu : u.groups[c.gi]? = some (g.apply (c.writes Cx.areadVal)) := by
    rw [State.setGroup_get, if_pos rfl, hget]
    rfl
  obtain ⟨htcores, htfill, htcompute⟩ := Act.outcome_done_spares c s u
  have hreg : ∀ gi key r, ((Act.done u).outcome c s).reg gi key r = u.reg gi key r := State.reg_of_cores htcores
  have hfound : ∀ th ∈ c.act, (g.find th.key).isSome := fun th hth => by
    have := Group.find_core_congr hcore th.key
    rw [Cx.find_of_act hc hth] at this
    obtain ⟨x, hx, -⟩ := Option.map_eq_some_iff.mp this
    rw [hx]
    rfl
  have hrun : exec (.aread e) s = .next ((areadBody c s).outcome c s) := issueE_ready _ h
  rw [hbody] at hrun
  refine ⟨_, hrun, ?_, fun a => ?_, fun gi key r hnot => (hreg gi key r).trans ?_, htcompute.trans hcompute,
    htfill.trans hfill⟩
  · exact .of_apply hc hgc hlaunch hfound (fits_areadVal h hw) fun key r => (hreg _ key r).trans (State.reg_eq hu key r)
  · exact (State.byte_congr (Act.outcome_done_ms c s u) a).trans (State.mxEnd_byte hoff hmem a)
  · rw [← State.reg_of_cores hcores gi key r]
    by_cases hgi : gi = c.gi
    · subst hgi
      rw [State.reg_eq hu, State.reg_eq hget]
      exact apply_writes_reg_other g rfl hnot
    · exact State.setGroup_reg_other _ _ (Ne.symm hgi) key r

/-! ### The statement -/

/-- Settles O38: every command's effect is one change of its group's engine state, a placed value is a whole number of anchor
units, and AREAD waits in the compute queue and then writes registers that are there. -/
theorem matrixEffects : Obligations.MatrixEffects := by
  unfold Obligations.MatrixEffects
  refine ⟨?commands, ?cells, ?aread⟩
  case commands =>
    intro s cl fill k rest gi g hq hgi hg htr hfree hperf hmem
    have serve := fun ho => evMatrixCommandComplete_served (k := k) hq hgi hg hfree ho
    refine ⟨fun ho hscr hok => ?wbld, fun ho hsub hbad hok => ?mma, fun ho hsrc hd hx => ?aadd,
      fun ho hty hform hscr hquiet hreqs hd => ?adrain⟩
    case wbld =>
      refine mxCompletes_of_change hgi hg htr hmem (engineChange_setWeight k.e.op0.index fun _ => k.loaded g) ?_
      rw [serve (by simp [ho]), State.mxServe_local hperf (by simp [MxCmd.reads, ho, hscr]) (by simp [ho])]
      simp only [ho, State.mxEffect, State.wbldDone_scratch hscr hok]
      rfl
    case mma =>
      refine mxCompletes_of_change hgi hg htr hmem (engineChange_setTile k.e.op0.index fun _ => k.accumulated g) ?_
      rw [serve (by simp [ho]), State.mxServe_local hperf (by simp [MxCmd.reads, ho]) (by simp [ho])]
      simp only [ho, State.mxEffect, State.mmaDone_sound hsub hbad hok]
      rfl
    case aadd =>
      refine mxCompletes_of_change hgi hg htr hmem (engineChange_setTile k.e.op0.index (k.summed g)) ?_
      rw [serve (by simp [ho]), State.mxServe_local hperf (by simp [MxCmd.reads, ho, hsrc]) (by simp [ho])]
      simp only [ho, State.mxEffect, State.aaddDone_tile hsrc hd hx]
      rfl
    case adrain =>
      have hraw : k.DrainsRaw := ⟨ho, hty, hform, hscr, hquiet⟩
      have hdone := mxCompletes_of_change (cl := cl) (fill := fill) hgi hg htr hmem
        (engineChange_stored k (g.tile k.e.op0.index) (List.range 1024)) (by
          rw [serve (by simp [ho]), State.mxServe_local hperf (by simp [MxCmd.reads, ho, hraw.toScratch])
            fun _ => hraw.toScratch]
          have hnone : (s.mxServed k).fab.reqs.any (fun r => r.copy = k.id) = false := by
            simpa [State.mxServed] using hreqs
          have hbytes : ∀ u : State, u.adrainBytes gi g k = u := fun u => if_neg (by omega)
          simp only [ho, State.mxEffect, State.adrainDone_raw hraw hd, State.setGroup_fab, hnone, hbytes]
          rfl)
      rw [k.stored_keeps (f := Group.weights) fun _ _ _ => rfl, k.stored_keeps (f := Group.tiles) fun _ _ _ => rfl,
        k.stored_scratch] at hdone
      generalize List.range 1024 = cells at hdone ⊢
      exact hdone
  case cells =>
    intro t i hn hsp
    refine ⟨t.place_zero i, fun neg m e hm he hlt => t.place_exact hn neg hm he hlt, fun x j hj => t.place_other x hj,
      fun u ha hu => Tile.add_same_anchor ha hn hu, Tile.place_nan hsp, fun neg => ?_⟩
    rw [Tile.place_inf hsp]
    cases t.sp.getD i .none <;> cases neg <;> rfl
  case aread =>
    intro e s c h hw hc hact
    obtain ⟨hg, hsh, ho, -⟩ := State.ready_at h
    refine ⟨fun hmine hroom => ?enters, fun k hmine hhead hmark hbad htr hgi hmem => ?completes⟩
    case enters =>
      have hrun : exec (.aread e) s = .next ((areadBody c s).outcome c s) := issueE_ready _ h
      rw [areadBody_enters hact hmine hroom] at hrun
      obtain ⟨g', hg', hsh'⟩ := State.setSheaf_get (s := s.mxEnter false (c.areadCmd s)) (f := fun sh =>
        { sh with acted := [(c.areadCmd s).key] }) hg hsh
      exact ⟨_, c.areadCmd s, hrun, fun gi key r => State.reg_of_cores (State.setSheaf_cores _ _ _ _) gi key r, rfl, rfl, ho,
        rfl, rfl, Cx.areadCmd_key s hact, g', hg', _, hsh', rfl, rfl, rfl⟩
    case completes =>
      have hgroup : k.group = c.g.uid := by
        have := List.find?_some hmine
        simp only [Bool.and_eq_true, decide_eq_true_eq] at this
        exact this.1.1
      have hoff : s.MxUntraced k false := by
        intro gi' g' hgi' hg'
        rw [hgroup, hgi] at hgi'
        cases hgi'
        cases hg.symm.trans hg'
        exact htr
      exact aread_completes h hw hc (areadBody_reads hact hmine hhead (by rwa [(State.ready_at h).2.2.2])
        (by rwa [(State.ready_at h).2.2.2])) hoff hmem

end Sys2Proof.Machine
end

section
/-! PROOFS. Encoding (O1 to O3): the fields of the words of each form, that an operation and its opcode name each other (R73),
and the forms of an instruction. -/

namespace Sys2Proof

open BitVec (extractLsb'_append_eq_of_le extractLsb'_append_eq_right extractLsb'_append_extractLsb'_eq_extractLsb')

/-! ### Fields of words -/

@[simp] theorem Opnd.ofBits_toBits (o : Opnd) : Opnd.ofBits o.toBits = o := by
  cases o <;>
    simp [-BitVec.extractLsb'_toNat, Opnd.ofBits, Opnd.toBits, extractLsb'_append_eq_right (w' := 8),
      BitVec.extractLsb'_append_eq_left (w' := 8)]

@[simp] theorem Opnd.toBits_ofBits (x : BitVec 10) : (Opnd.ofBits x).toBits = x := by
  have hx : x.extractLsb' 8 2 ++ x.extractLsb' 0 8 = x := BitVec.extractLsb'_append_extractLsb'
  generalize hc : x.extractLsb' 8 2 = cls at hx
  conv_rhs => rw [← hx]
  unfold Opnd.ofBits
  rw [hc]
  fin_cases cls <;> rfl

/-- The header of a word that a header makes is that header (R64). -/
@[simp] theorem Header.ofWord_toWord (h : Header) : Header.ofWord h.toWord = h := by
  obtain ⟨wait, set1, set2, count⟩ := h
  simp [Header.ofWord, Header.toWord, extractLsb'_append_eq_of_le (w := 4), extractLsb'_append_eq_right (w' := 4),
    extractLsb'_append_eq_right (w' := 12)]

/-- The word of a header has length field 0 and major opcode 0 (R64). -/
theorem Header.toWord_fields (h : Header) : h.toWord.extractLsb' 30 2 = 0 ∧ h.toWord.extractLsb' 24 6 = BitVec.ofNat 6 0 := by
  constructor <;>
    simp [Header.toWord, extractLsb'_append_eq_of_le (w := 4), extractLsb'_append_eq_of_le (w := 12)]

/-- A word of length field 0 and major opcode 0 is the word of the header that it holds (R54, R64). -/
theorem Header.toWord_ofWord {w : Word} (hl : w.extractLsb' 30 2 = 0) (hm : w.extractLsb' 24 6 = 0) :
    (Header.ofWord w).toWord = w := by
  have h8 : (0#8 : BitVec 8) = w.extractLsb' 24 8 := by
    rw [← extractLsb'_append_extractLsb'_eq_extractLsb' (start₂ := 30) (len₂ := 2) (len₁ := 6) rfl, hl, hm]
    rfl
  simp only [Header.toWord, Header.ofWord, h8]
  rw [extractLsb'_append_extractLsb'_eq_extractLsb' (start₁ := 12) (len₁ := 12) rfl,
    extractLsb'_append_extractLsb'_eq_extractLsb' (start₁ := 8) (len₁ := 4) rfl,
    extractLsb'_append_extractLsb'_eq_extractLsb' (start₁ := 4) (len₁ := 4) rfl,
    extractLsb'_append_extractLsb'_eq_extractLsb' (start₁ := 0) (len₁ := 4) rfl]
  exact BitVec.extractLsb'_eq_self

/-- The fields of the first word of an extended-form instruction (R57). -/
theorem Ext.firstWord_fields (major : Nat) (e : Ext) :
    let w := e.firstWord major
    w.extractLsb' 30 2 = (if e.lit.isSome then 3#2 else 2#2) ∧ w.extractLsb' 24 6 = BitVec.ofNat 6 major
      ∧ w.extractLsb' 20 4 = e.flag ∧ w.extractLsb' 0 20 = e.imm := by
  simp [Ext.firstWord, extractLsb'_append_eq_of_le (w := 4), extractLsb'_append_eq_of_le (w := 6),
    extractLsb'_append_eq_of_le (w := 20), extractLsb'_append_eq_right (w' := 4), extractLsb'_append_eq_right (w' := 6),
    extractLsb'_append_eq_right (w' := 20)]

/-- The fields of the field E of an extended-form instruction (R58, R61). -/
theorem Ext.fieldE_fields (minor : Nat) (e : Ext) :
    let x := e.fieldE minor
    x.extractLsb' 61 3 = e.gp ∧ x.extractLsb' 60 1 = (if e.gn then 1#1 else 0#1) ∧ x.extractLsb' 50 10 = e.op0.toBits
      ∧ x.extractLsb' 40 10 = e.op1.toBits ∧ x.extractLsb' 30 10 = e.op2.toBits ∧ x.extractLsb' 20 10 = e.op3.toBits
      ∧ x.extractLsb' 14 6 = BitVec.ofNat 6 minor ∧ x.extractLsb' 10 4 = e.ty ∧ x.extractLsb' 7 3 = e.rm
      ∧ x.extractLsb' 4 3 = e.sc ∧ x.extractLsb' 0 4 = e.lo := by
  simp [Ext.fieldE, extractLsb'_append_eq_of_le (w := 1), extractLsb'_append_eq_of_le (w := 3),
    extractLsb'_append_eq_of_le (w := 4), extractLsb'_append_eq_of_le (w := 6), extractLsb'_append_eq_of_le (w := 10),
    extractLsb'_append_eq_right (w' := 1), extractLsb'_append_eq_right (w' := 3), extractLsb'_append_eq_right (w' := 4),
    extractLsb'_append_eq_right (w' := 6), extractLsb'_append_eq_right (w' := 10)]

/-- Read back from its words, an extended-form instruction has the fields that it was encoded with. -/
@[simp] theorem Ext.ofWords_encoded (major minor : Nat) (e : Ext) :
    Ext.ofWords (e.firstWord major) (e.fieldE minor) e.lit = e := by
  obtain ⟨-, -, hflag, himm⟩ := e.firstWord_fields major
  obtain ⟨hgp, hgn, h0, h1, h2, h3, -, hty, hrm, hsc, hlo⟩ := e.fieldE_fields minor
  simp only [Ext.ofWords, hflag, himm, hgp, hgn, h0, h1, h2, h3, hty, hrm, hsc, hlo, Opnd.ofBits_toBits]
  obtain ⟨gp, gn, flag, imm, op0, op1, op2, op3, ty, rm, sc, lo, lit⟩ := e
  cases gn <;> rfl

/-- The first word and the field E of the fields that they hold are those words again (R57, R58). -/
theorem Ext.firstWord_ofWords {w : Word} {x : BitVec 64} {l : Option (BitVec 64)}
    (hl : w.extractLsb' 30 2 = if l.isSome then 3#2 else 2#2) :
    (Ext.ofWords w x l).firstWord (majorOf w) = w := by
  have hlen : (if (Ext.ofWords w x l).lit.isSome then 3#2 else 2#2) = w.extractLsb' 30 2 := hl.symm
  rw [Ext.firstWord, hlen]
  simp only [Ext.ofWords, majorOf, BitVec.ofNat_toNat, BitVec.setWidth_eq]
  rw [extractLsb'_append_extractLsb'_eq_extractLsb' (start₁ := 24) (len₁ := 6) rfl,
    extractLsb'_append_extractLsb'_eq_extractLsb' (start₁ := 20) (len₁ := 4) rfl,
    extractLsb'_append_extractLsb'_eq_extractLsb' (start₁ := 0) (len₁ := 20) rfl]
  exact BitVec.extractLsb'_eq_self

theorem Ext.fieldE_ofWords (w : Word) (x : BitVec 64) (l : Option (BitVec 64)) :
    (Ext.ofWords w x l).fieldE (x.extractLsb' 14 6).toNat = x := by
  have hgn : (if (Ext.ofWords w x l).gn then 1#1 else 0#1) = x.extractLsb' 60 1 := by
    show (if x.extractLsb' 60 1 == 1 then 1#1 else 0#1) = _
    generalize x.extractLsb' 60 1 = b
    fin_cases b <;> rfl
  rw [Ext.fieldE, hgn]
  simp only [Ext.ofWords, Opnd.toBits_ofBits, BitVec.ofNat_toNat, BitVec.setWidth_eq]
  rw [extractLsb'_append_extractLsb'_eq_extractLsb' (start₁ := 60) (len₁ := 1) rfl,
    extractLsb'_append_extractLsb'_eq_extractLsb' (start₁ := 50) (len₁ := 10) rfl,
    extractLsb'_append_extractLsb'_eq_extractLsb' (start₁ := 40) (len₁ := 10) rfl,
    extractLsb'_append_extractLsb'_eq_extractLsb' (start₁ := 30) (len₁ := 10) rfl,
    extractLsb'_append_extractLsb'_eq_extractLsb' (start₁ := 20) (len₁ := 10) rfl,
    extractLsb'_append_extractLsb'_eq_extractLsb' (start₁ := 14) (len₁ := 6) rfl,
    extractLsb'_append_extractLsb'_eq_extractLsb' (start₁ := 10) (len₁ := 4) rfl,
    extractLsb'_append_extractLsb'_eq_extractLsb' (start₁ := 7) (len₁ := 3) rfl,
    extractLsb'_append_extractLsb'_eq_extractLsb' (start₁ := 4) (len₁ := 3) rfl,
    extractLsb'_append_extractLsb'_eq_extractLsb' (start₁ := 0) (len₁ := 4) rfl]
  exact BitVec.extractLsb'_eq_self

/-! ### Operations and their opcodes -/

/-- The modifier bits are the low bits of MOD (R58). -/
theorem Ext.lo_toNat (e : Ext) : e.lo.toNat = e.mod.toNat % 16 := by
  have h : e.mod.extractLsb' 0 4 = e.lo := extractLsb'_append_eq_right
  rw [← h, BitVec.extractLsb'_toNat]
  rfl

/-- The opcode of an operation, with the modifier bits that it accepts, names that operation (R73, R112, R205). -/
theorem Op.ofCode_code {o : Op} {e : Ext} (h : o.modOk e = true) :
    Op.ofCode o.code.1 o.code.2 e.lo.toNat = some o := by
  have hlo := e.lo_toNat
  cases o
  case braU | braS | barArv | barWait | barSync | barSet | barSwap =>
    rw [hlo, congrArg BitVec.toNat (eq_of_beq h)]
    rfl
  case braM =>
    simp only [Op.modOk, Bool.and_eq_true, decide_eq_true_eq] at h
    have merge : ∀ b : BitVec 4, b.toNat % 4 = 2 → Op.ofCode 0x27 0 b.toNat = some .braM := by decide
    exact merge e.lo (by omega)
  all_goals rfl

theorem Op.code_lt (o : Op) : o.code.1 < 64 ∧ o.code.2 < 64 := by cases o <;> decide

/-- A minor opcode under which MOD[3:0] parts several operations: the modes of BRA and the forms of BAR (R112, R205). -/
def Op.parted (major minor : Nat) : Bool := minor == 0 && (major == 0x27 || major == 0x2B)

/-- The majors of R73 are 0x20 to 0x31. -/
theorem Op.ofCode_eq_none {major : Nat} (h64 : major < 64) (h : major < 0x20 ∨ 0x32 ≤ major) (minor lo : Nat) :
    Op.ofCode major minor lo = none := by
  rcases h with h | h <;> interval_cases major <;> rfl

/-- Every operation of a row of the opcode map has the opcode of its place (R73). -/
theorem Op.ofCode_row {major : Nat} (hge : 0x20 ≤ major) (hlt : major < 0x32) (lo : Nat) :
    ((List.range 64).all fun minor =>
      Op.parted major minor || (Op.ofCode major minor lo).all fun o => o.code == (major, minor)) = true := by
  interval_cases major <;> rfl

/-- The operation that an opcode names has that opcode (R73). -/
theorem Op.code_of_ofCode {major minor lo : Nat} {o : Op} (hmaj : major < 64) (hmin : minor < 64) (hlo : lo < 16)
    (h : Op.ofCode major minor lo = some o) : o.code = (major, minor) := by
  by_cases hout : major < 0x20 ∨ 0x32 ≤ major
  · rw [Op.ofCode_eq_none hmaj hout] at h
    cases h
  have hge : 0x20 ≤ major := by omega
  have hlt : major < 0x32 := by omega
  by_cases hp : Op.parted major minor = true
  · simp only [Op.parted, Bool.and_eq_true, Bool.or_eq_true, beq_iff_eq] at hp
    obtain ⟨rfl, rfl | rfl⟩ := hp <;> interval_cases lo <;> cases h <;> rfl
  · have hrow := List.all_eq_true.mp (Op.ofCode_row hge hlt lo) minor (List.mem_range.mpr hmin)
    simpa [hp, h] using hrow

/-! ### Instructions and their forms -/

theorem Instr.ofOp_of_asExt {i : Instr} {o : Op} {e : Ext} (h : i.asExt = some (o, e)) : Instr.ofOp o e = i := by
  cases i <;> cases h <;> rfl

@[simp] theorem Instr.asExt_ofOp (o : Op) (e : Ext) : (Instr.ofOp o e).asExt = some (o, e) := by cases o <;> rfl

/-- The base majors of R72 are 1 to 24. -/
theorem Instr.ofBase_of_asBase {i : Instr} {major : Nat} {b : Base} (h : i.asBase = some (major, b)) :
    Instr.ofBase major b = some i ∧ 0 < major ∧ major < 64 ∧ i.asExt = none := by
  cases i <;> cases h <;> exact ⟨rfl, by decide, by decide, rfl⟩

theorem Instr.asBase_of_ofBase {i : Instr} {major : Nat} {b : Base} (h : Instr.ofBase major b = some i) :
    i.asBase = some (major, b) := by
  unfold Instr.ofBase at h
  split at h <;> cases h <;> rfl

theorem Instr.wellFormed_of_asExt {i : Instr} {o : Op} {e : Ext} (h : i.asExt = some (o, e)) :
    i.wellFormed = o.wellFormed e := by
  simp only [Instr.wellFormed, h]

theorem Instr.wellFormed_of_asBase {i : Instr} {x : Nat × Base} (h : i.asBase = some x) : i.wellFormed = true := by
  obtain ⟨-, -, -, he⟩ := Instr.ofBase_of_asBase h
  simp only [Instr.wellFormed, he]
  split
  · cases h
  · rfl

theorem Instr.not_isEvent_of_asExt {i : Instr} {x : Op × Ext} (h : i.asExt = some x) : i.isEvent = false := by
  unfold Instr.isEvent
  split
  · rfl
  · rw [h]; rfl

theorem Instr.not_isEvent_of_asBase {i : Instr} {x : Nat × Base} (h : i.asBase = some x) : i.isEvent = false := by
  unfold Instr.isEvent
  split
  · rfl
  · rw [h]; exact Bool.and_false _

/-- An instruction that is no event has one of three forms: a clause header, the base form or the extended form (R54). -/
theorem Instr.form_of_not_isEvent {i : Instr} (h : i.isEvent = false) :
    (∃ hd, i = .runClause hd) ∨ (∃ x, i.asBase = some x) ∨ ∃ x, i.asExt = some x := by
  unfold Instr.isEvent at h
  split at h
  · exact .inl ⟨_, rfl⟩
  · cases he : i.asExt with
    | some x => exact .inr (.inr ⟨x, rfl⟩)
    | none =>
      cases hb : i.asBase with
      | some x => exact .inr (.inl ⟨x, rfl⟩)
      | none => simp [he, hb] at h

end Sys2Proof
end

section
/-! PROOFS. The decoder and the encoder (O1 to O3): what decodes, said once, and that each form decodes from its own words and
words that decode are those of their instruction. -/

namespace Sys2Proof

open BitVec (extractLsb'_append_eq_of_le extractLsb'_append_eq_right extractLsb'_append_extractLsb'_eq_extractLsb')

/-! ### The words of each form -/

/-- The word of a base-form instruction with the length field l and the low byte vb (R55). -/
theorem baseWord_fields {major : Nat} (l : BitVec 2) (vd va vb : BitVec 8) :
    let w : Word := l ++ BitVec.ofNat 6 major ++ vd ++ va ++ vb
    w.extractLsb' 30 2 = l ∧ w.extractLsb' 24 6 = BitVec.ofNat 6 major ∧ w.extractLsb' 16 8 = vd
      ∧ w.extractLsb' 8 8 = va ∧ w.extractLsb' 0 8 = vb := by
  simp [extractLsb'_append_eq_of_le (w := 6), extractLsb'_append_eq_of_le (w := 8),
    extractLsb'_append_eq_right (w' := 6), extractLsb'_append_eq_right (w' := 8)]

theorem word_of_base_fields (w : Word) :
    w.extractLsb' 30 2 ++ BitVec.ofNat 6 (majorOf w) ++ w.extractLsb' 16 8 ++ w.extractLsb' 8 8 ++ w.extractLsb' 0 8 = w := by
  rw [majorOf, BitVec.ofNat_toNat, BitVec.setWidth_eq,
    extractLsb'_append_extractLsb'_eq_extractLsb' (start₁ := 24) (len₁ := 6) rfl,
    extractLsb'_append_extractLsb'_eq_extractLsb' (start₁ := 16) (len₁ := 8) rfl,
    extractLsb'_append_extractLsb'_eq_extractLsb' (start₁ := 8) (len₁ := 8) rfl,
    extractLsb'_append_extractLsb'_eq_extractLsb' (start₁ := 0) (len₁ := 8) rfl]
  exact BitVec.extractLsb'_eq_self

theorem majorOf_eq {w : Word} {major : Nat} (h : w.extractLsb' 24 6 = BitVec.ofNat 6 major) (hlt : major < 64) :
    majorOf w = major := by
  rw [majorOf, h, BitVec.toNat_ofNat, Nat.mod_eq_of_lt hlt]

/-- The words of a base-form instruction (R55, R56). -/
def Base.words (major : Nat) (b : Base) : List Word :=
  match b.b with
  | .reg r => [0#2 ++ BitVec.ofNat 6 major ++ b.vd ++ b.va ++ r]
  | .lit x => [1#2 ++ BitVec.ofNat 6 major ++ b.vd ++ b.va ++ 0#8, x, 0]

theorem encode_of_asBase {i : Instr} {major : Nat} {b : Base} (h : i.asBase = some (major, b)) :
    encode i = b.words major := by
  obtain ⟨-, -, -, he⟩ := Instr.ofBase_of_asBase h
  obtain ⟨vd, va, src⟩ := b
  cases src <;> simp only [encode, he, h] <;> rfl

/-- The words of a trailing literal (R60). -/
def literalWords : Option (BitVec 64) → List Word
  | none => []
  | some l => [l.extractLsb' 0 32, l.extractLsb' 32 32]

/-- The words of an extended-form instruction (R57, R58, R60). -/
theorem encode_of_asExt {i : Instr} {o : Op} {e : Ext} (h : i.asExt = some (o, e)) :
    encode i = e.firstWord o.code.1 :: (e.fieldE o.code.2).extractLsb' 0 32 :: (e.fieldE o.code.2).extractLsb' 32 32
      :: literalWords e.lit := by
  simp only [encode, h]
  cases e.lit <;> rfl

/-! ### What decodes -/

/-- An option is answered, or refused. -/
theorem ok_of_option_iff {x : Option Instr} {err : DecodeError} {i : Instr} :
    (match x with
      | some j => .ok j
      | none => .error err : Except DecodeError Instr) = .ok i ↔ x = some i := by
  cases x <;> simp

/-- A word without a literal is a base-form instruction where R72 lists its major. -/
theorem decodeBase_none_iff {w : Word} {i : Instr} : decodeBase w none = .ok i ↔
    Instr.ofBase (majorOf w) { vd := w.extractLsb' 16 8, va := w.extractLsb' 8 8, b := .reg (w.extractLsb' 0 8) } = some i :=
  ok_of_option_iff

/-- A literal replaces source B where its field and the literal's high word are zero (R56). -/
theorem decodeBase_lit_iff {w : Word} {x : BitVec 64} {i : Instr} : decodeBase w (some x) = .ok i ↔
    (w.extractLsb' 0 8 = 0 ∧ x.extractLsb' 32 32 = 0) ∧
      Instr.ofBase (majorOf w) { vd := w.extractLsb' 16 8, va := w.extractLsb' 8 8, b := .lit (x.extractLsb' 0 32) }
        = some i := by
  unfold decodeBase
  dsimp only
  split_ifs with hz
  · have hz : w.extractLsb' 0 8 = 0 ∧ x.extractLsb' 32 32 = 0 := by simpa using hz
    rw [and_iff_right hz]
    exact ok_of_option_iff
  · have hz : ¬ (w.extractLsb' 0 8 = 0 ∧ x.extractLsb' 32 32 = 0) := by simpa using hz
    exact ⟨fun h => (nomatch h), fun h => absurd h.1 hz⟩

/-- Words of the extended form are an instruction where its opcode is one of R73 and its fields fit (R69). -/
theorem decodeExt_iff {w : Word} {x : BitVec 64} {lit : Option (BitVec 64)} {i : Instr} : decodeExt w x lit = .ok i ↔
    ∃ o, Op.ofCode (majorOf w) (x.extractLsb' 14 6).toNat (x.extractLsb' 0 4).toNat = some o
      ∧ o.wellFormed (Ext.ofWords w x lit) = true ∧ Instr.ofOp o (Ext.ofWords w x lit) = i := by
  simp only [decodeExt]
  show (match Op.ofCode (majorOf w) (x.extractLsb' 14 6).toNat (x.extractLsb' 0 4).toNat with
    | none => _
    | some o => _) = _ ↔ _
  cases Op.ofCode (majorOf w) (x.extractLsb' 14 6).toNat (x.extractLsb' 0 4).toNat with
  | none => simp
  | some o => by_cases hw : o.wellFormed (Ext.ofWords w x lit) = true <;> simp [hw]

/-- What decodes (R54): the length field of the first word and, under 0, its major opcode select the form. -/
inductive Decodes : List Word → Instr → List Word → Prop where
  | header {w : Word} {rest : List Word} (hl : w.extractLsb' 30 2 = 0) (hm : majorOf w = 0)
      (h : (Header.ofWord w).wellFormed = true) : Decodes (w :: rest) (.runClause (Header.ofWord w)) rest
  | base {w : Word} {rest : List Word} {i : Instr} (hl : w.extractLsb' 30 2 = 0) (hm : majorOf w ≠ 0)
      (h : decodeBase w none = .ok i) : Decodes (w :: rest) i rest
  | baseLit {w a b : Word} {rest : List Word} {i : Instr} (hl : w.extractLsb' 30 2 = 1)
      (h : decodeBase w (some (b ++ a)) = .ok i) : Decodes (w :: a :: b :: rest) i rest
  | ext {w a b : Word} {rest : List Word} {i : Instr} (hl : w.extractLsb' 30 2 = 2)
      (h : decodeExt w (b ++ a) none = .ok i) : Decodes (w :: a :: b :: rest) i rest
  | extLit {w a b c d : Word} {rest : List Word} {i : Instr} (hl : w.extractLsb' 30 2 = 3)
      (h : decodeExt w (b ++ a) (some (d ++ c)) = .ok i) : Decodes (w :: a :: b :: c :: d :: rest) i rest

theorem map_pair_ok_iff {x : Except DecodeError Instr} {i : Instr} {r rest : List Word} :
    (x.map fun j => (j, r)) = .ok (i, rest) ↔ x = .ok i ∧ r = rest := by
  cases x <;> simp [Except.map]

/-- The decoder answers an instruction exactly where the words hold one. -/
theorem decodeWords_ok_iff {ws rest : List Word} {i : Instr} : decodeWords ws = .ok (i, rest) ↔ Decodes ws i rest := by
  constructor
  · intro h
    unfold decodeWords at h
    split at h
    · cases h
    · split at h
      case h_1 hl =>
        have hl := BitVec.eq_of_toNat_eq (y := 0#2) hl
        split at h
        · next hm =>
          dsimp only at h
          split at h
          · next hw => cases h; exact .header hl hm hw
          · cases h
        · next hm =>
          obtain ⟨hi, rfl⟩ := map_pair_ok_iff.mp h
          exact .base hl hm hi
      case h_2 hl =>
        obtain ⟨hi, rfl⟩ := map_pair_ok_iff.mp h
        exact .baseLit (BitVec.eq_of_toNat_eq hl) hi
      case h_3 hl =>
        obtain ⟨hi, rfl⟩ := map_pair_ok_iff.mp h
        exact .ext (BitVec.eq_of_toNat_eq hl) hi
      case h_4 hl =>
        obtain ⟨hi, rfl⟩ := map_pair_ok_iff.mp h
        exact .extLit (BitVec.eq_of_toNat_eq hl) hi
      case h_5 => cases h
  · rintro (⟨hl, hm, h⟩ | ⟨hl, hm, h⟩ | ⟨hl, h⟩ | ⟨hl, h⟩ | ⟨hl, h⟩)
    case header => simp [decodeWords, hl, hm, h]
    case base => simp [decodeWords, hl, hm, h, Except.map]
    all_goals simp [decodeWords, hl, h, Except.map]

/-! ### Encoding and decoding -/

/-- The halves of a doubleword (R3). -/
theorem halves (x : BitVec 64) : x.extractLsb' 32 32 ++ x.extractLsb' 0 32 = x := BitVec.extractLsb'_append_extractLsb'

theorem low_half (a b : Word) : (b ++ a : BitVec 64).extractLsb' 0 32 = a := extractLsb'_append_eq_right
theorem high_half (a b : Word) : (b ++ a : BitVec 64).extractLsb' 32 32 = b := BitVec.extractLsb'_append_eq_left

/-- An extended-form instruction decodes from its first word, its field E and its literal. -/
theorem decodeExt_encoded {i : Instr} {o : Op} {e : Ext} (h : i.asExt = some (o, e)) (hw : i.wellFormed = true) :
    decodeExt (e.firstWord o.code.1) (e.fieldE o.code.2) e.lit = .ok i := by
  rw [Instr.wellFormed_of_asExt h] at hw
  obtain ⟨-, hmajor, -, -⟩ := e.firstWord_fields o.code.1
  obtain ⟨-, -, -, -, -, -, hminor, -, -, -, hlo⟩ := e.fieldE_fields o.code.2
  obtain ⟨h1, h2⟩ := o.code_lt
  have hmod : o.modOk e = true := by
    simp only [Op.wellFormed, Bool.and_eq_true] at hw
    obtain ⟨⟨⟨⟨⟨hmod, -⟩, -⟩, -⟩, -⟩, -⟩ := hw
    exact hmod
  refine decodeExt_iff.mpr ⟨o, ?_, ?_, ?_⟩
  · rw [majorOf_eq hmajor h1, hminor, hlo, BitVec.toNat_ofNat, Nat.mod_eq_of_lt h2]
    exact Op.ofCode_code hmod
  · rwa [Ext.ofWords_encoded]
  · rw [Ext.ofWords_encoded]
    exact Instr.ofOp_of_asExt h

/-- The extended form decodes from its words. -/
theorem decodes_ext {i : Instr} {o : Op} {e : Ext} (h : i.asExt = some (o, e)) (hw : i.wellFormed = true)
    (rest : List Word) : Decodes (encode i ++ rest) i rest := by
  have hdec := decodeExt_encoded h hw
  obtain ⟨hl, -, -, -⟩ := e.firstWord_fields o.code.1
  rw [encode_of_asExt h]
  cases hlit : e.lit with
  | none => exact .ext (by rw [hl, hlit]; rfl) (by rw [halves, ← hlit]; exact hdec)
  | some l => exact .extLit (by rw [hl, hlit]; rfl) (by rw [halves, halves, ← hlit]; exact hdec)

/-- The base form decodes from its words. -/
theorem decodes_base {i : Instr} {major : Nat} {b : Base} (h : i.asBase = some (major, b))
    (rest : List Word) : Decodes (encode i ++ rest) i rest := by
  obtain ⟨hi, hpos, hlt, -⟩ := Instr.ofBase_of_asBase h
  obtain ⟨vd, va, b⟩ := b
  rw [encode_of_asBase h]
  cases b with
  | reg r =>
    obtain ⟨hl, hm, hvd, hva, hr⟩ := baseWord_fields (major := major) 0#2 vd va r
    have hmaj := majorOf_eq hm hlt
    exact .base hl (by rw [hmaj]; omega) (decodeBase_none_iff.mpr (by rw [hmaj, hvd, hva, hr]; exact hi))
  | lit x =>
    obtain ⟨hl, hm, hvd, hva, hr⟩ := baseWord_fields (major := major) 1#2 vd va 0#8
    have hmaj := majorOf_eq hm hlt
    exact .baseLit hl (decodeBase_lit_iff.mpr ⟨⟨hr, high_half x 0⟩, by rw [hmaj, hvd, hva, low_half]; exact hi⟩)

/-- Settles O1: each form of instruction decodes from its own words. -/
theorem decodeReadsEncode : Obligations.DecodeReadsEncode := by
  unfold Obligations.DecodeReadsEncode
  intro i rest hw hev
  rw [decodeWords_ok_iff]
  obtain ⟨hd, rfl⟩ | ⟨⟨major, b⟩, hb⟩ | ⟨⟨o, e⟩, he⟩ := Instr.form_of_not_isEvent hev
  · obtain ⟨hl, hm⟩ := hd.toWord_fields
    have hdec := Decodes.header (rest := rest) hl (majorOf_eq hm (by decide)) (by rw [Header.ofWord_toWord]; exact hw)
    rwa [Header.ofWord_toWord] at hdec
  · exact decodes_base hb rest
  · exact decodes_ext he hw rest

/-- Words of the extended form are those of the instruction that they decode to. -/
theorem encode_decodeExt {w : Word} {x : BitVec 64} {lit : Option (BitVec 64)} {i : Instr}
    (hl : w.extractLsb' 30 2 = if lit.isSome then 3#2 else 2#2) (h : decodeExt w x lit = .ok i) :
    encode i = w :: x.extractLsb' 0 32 :: x.extractLsb' 32 32 :: literalWords lit ∧ i.wellFormed = true
      ∧ i.isEvent = false := by
  obtain ⟨o, ho, hw, rfl⟩ := decodeExt_iff.mp h
  have hi := Instr.asExt_ofOp o (Ext.ofWords w x lit)
  have hcode := Op.code_of_ofCode (BitVec.isLt _) (BitVec.isLt _) (BitVec.isLt _) ho
  refine ⟨?_, by rwa [Instr.wellFormed_of_asExt hi], Instr.not_isEvent_of_asExt hi⟩
  rw [encode_of_asExt hi, hcode, Ext.firstWord_ofWords hl, Ext.fieldE_ofWords]
  rfl

/-- A word of the base form is that of the instruction that it decodes to. -/
theorem encode_decodeBase {w : Word} {i : Instr} (hl : w.extractLsb' 30 2 = 0) (h : decodeBase w none = .ok i) :
    encode i = [w] ∧ i.wellFormed = true ∧ i.isEvent = false := by
  have hb := Instr.asBase_of_ofBase (decodeBase_none_iff.mp h)
  refine ⟨?_, Instr.wellFormed_of_asBase hb, Instr.not_isEvent_of_asBase hb⟩
  have hword := word_of_base_fields w
  rw [hl] at hword
  rw [encode_of_asBase hb]
  exact congrArg (fun w => [w]) hword

theorem encode_decodeBase_lit {w : Word} {x : BitVec 64} {i : Instr} (hl : w.extractLsb' 30 2 = 1)
    (h : decodeBase w (some x) = .ok i) :
    encode i = [w, x.extractLsb' 0 32, x.extractLsb' 32 32] ∧ i.wellFormed = true ∧ i.isEvent = false := by
  obtain ⟨⟨hvb, hx⟩, hi⟩ := decodeBase_lit_iff.mp h
  have hb := Instr.asBase_of_ofBase hi
  refine ⟨?_, Instr.wellFormed_of_asBase hb, Instr.not_isEvent_of_asBase hb⟩
  have hword := word_of_base_fields w
  rw [hl, hvb] at hword
  rw [encode_of_asBase hb, hx]
  exact congrArg (fun w => [w, x.extractLsb' 0 32, 0]) hword

/-- Settles O2: the words of each form are those of the instruction that they decode to. -/
theorem decodedWordsAreEncode : Obligations.DecodedWordsAreEncode := by
  unfold Obligations.DecodedWordsAreEncode
  intro ws i rest h
  cases decodeWords_ok_iff.mp h with
  | header hl hm hw =>
    have hword := Header.toWord_ofWord hl (BitVec.eq_of_toNat_eq hm)
    exact ⟨congrArg (fun w => w :: rest) hword.symm, hw, rfl⟩
  | base hl hm hd =>
    obtain ⟨henc, hok⟩ := encode_decodeBase hl hd
    exact ⟨by rw [henc]; rfl, hok⟩
  | baseLit hl hd =>
    obtain ⟨henc, hok⟩ := encode_decodeBase_lit hl hd
    exact ⟨by rw [henc, low_half, high_half]; rfl, hok⟩
  | ext hl hd =>
    obtain ⟨henc, hok⟩ := encode_decodeExt (lit := none) hl hd
    exact ⟨by rw [henc, low_half, high_half]; rfl, hok⟩
  | extLit hl hd =>
    obtain ⟨henc, hok⟩ := encode_decodeExt (lit := some _) hl hd
    exact ⟨by rw [henc, low_half, high_half, literalWords, low_half, high_half]; rfl, hok⟩

/-- Words that are those of a well-formed instruction decode to it. -/
theorem decodeWords_of_encode {ws : List Word} {i : Instr} (h : encode i = ws) (hw : i.wellFormed = true)
    (hev : i.isEvent = false) : decodeWords ws = .ok (i, []) := by
  have hdec := decodeReadsEncode i [] hw hev
  rwa [List.append_nil, h] at hdec

/-- Settles O3: the words written out are the encodings of the instructions; major 0x1F is none of R72. -/
theorem wordsDecode : Obligations.WordsDecode := by
  unfold Obligations.WordsDecode
  refine ⟨?_, ?_, ?_, ?_, ?_, ?_, ?_, ?_, ?_, ?_, rfl⟩ <;> exact decodeWords_of_encode (by decide) (by decide) rfl

end Sys2Proof
end

section
/-! PROOFS. The integer and bit instructions (O11, R87, R92 to R94): what each writes is the number that its table gives. -/

namespace Sys2Proof.Machine

/-! ### Operands as numbers of their type -/

theorem wordsNat_lt (ws : List Word) : wordsNat ws < 2 ^ (32 * ws.length) := by
  induction ws with
  | nil => exact Nat.one_pos
  | cons w ws ih =>
    have hw := w.isLt
    have hpow : 2 ^ (32 * (w :: ws).length) = 2 ^ 32 * 2 ^ (32 * ws.length) := by
      rw [List.length_cons, Nat.mul_succ, Nat.add_comm, Nat.pow_add]
    rw [hpow, wordsNat]
    generalize 2 ^ (32 * ws.length) = p at ih ⊢
    omega

theorem wrap_lt (w : Nat) (x : Int) : wrap w x < 2 ^ w := by
  have hpos : (0 : Int) < (2 ^ w : Nat) := by positivity
  have := Int.emod_nonneg x hpos.ne'
  have := Int.emod_lt_of_pos x hpos
  unfold wrap
  omega

/-- A source of n registers is a number of 32 n bits (R18). -/
theorem Group.src_lt (g : Group) (t : Thread) (n : Nat) (o : Opnd) : g.src t n o < 2 ^ (32 * n) := by
  cases o with
  | k i => exact wrap_lt _ _
  | v i | slo i | shi i =>
    refine (wordsNat_lt _).trans_eq ?_
    rw [List.length_map, List.length_range]

/-- An operand is a number of the width of its type (R82). -/
theorem Cx.nat_lt (c : Cx) (t : Thread) (k : Nat) : c.nat t k < 2 ^ (32 * c.n) := by
  unfold Cx.nat Group.arg
  split
  · exact Nat.mod_lt _ (Nat.two_pow_pos _)
  · exact c.g.src_lt t c.n _

theorem Cx.compl_eq (c : Cx) {x : Nat} (h : x < 2 ^ (32 * c.n)) : c.compl x = 2 ^ (32 * c.n) - 1 - x := by
  rw [Cx.compl, Nat.mod_eq_of_lt h]

/-! ### Bit fields -/

/-- The bits pos to pos + n − 1 as a mask. -/
theorem mask_lt {w pos n : Nat} (hw : pos + n ≤ w) : (2 ^ n - 1) * 2 ^ pos < 2 ^ w :=
  calc (2 ^ n - 1) * 2 ^ pos < 2 ^ n * 2 ^ pos :=
        Nat.mul_lt_mul_of_pos_right (Nat.sub_one_lt (Nat.two_pow_pos n).ne') (Nat.two_pow_pos pos)
    _ = 2 ^ (pos + n) := by rw [← Nat.pow_add, Nat.add_comm]
    _ ≤ 2 ^ w := Nat.pow_le_pow_right (by decide) hw

/-- A number in three parts: its bits below pos, n bits of y, and the bits of x from pos + n on. -/
theorem parts_eq_or (x y pos n : Nat) : x % 2 ^ pos + y % 2 ^ n * 2 ^ pos + x / 2 ^ (pos + n) * 2 ^ (pos + n)
    = 2 ^ (pos + n) * (x / 2 ^ (pos + n)) ||| (2 ^ pos * (y % 2 ^ n) ||| x % 2 ^ pos) := by
  have hlow : x % 2 ^ pos < 2 ^ pos := Nat.mod_lt x (Nat.two_pow_pos pos)
  have hmid : 2 ^ pos * (y % 2 ^ n) + x % 2 ^ pos < 2 ^ (pos + n) :=
    calc 2 ^ pos * (y % 2 ^ n) + x % 2 ^ pos < 2 ^ pos * (y % 2 ^ n + 1) := by rw [Nat.mul_succ]; omega
      _ ≤ 2 ^ pos * 2 ^ n := Nat.mul_le_mul_left _ (Nat.mod_lt y (Nat.two_pow_pos n))
      _ = 2 ^ (pos + n) := (Nat.pow_add ..).symm
  rw [← Nat.two_pow_add_eq_or_of_lt hlow, ← Nat.two_pow_add_eq_or_of_lt hmid]
  ring

/-- The bits pos to pos + n − 1 of x replaced by the low bits of y (R93). -/
theorem insert_bits {x w pos n : Nat} (y : Nat) (hx : x < 2 ^ w) (hw : pos + n ≤ w) :
    (x &&& (2 ^ w - 1 - (2 ^ n - 1) * 2 ^ pos)) ||| (y % 2 ^ n * 2 ^ pos)
      = x % 2 ^ pos + y % 2 ^ n * 2 ^ pos + x / 2 ^ (pos + n) * 2 ^ (pos + n) := by
  have hm := mask_lt hw
  have hcompl : 2 ^ w - 1 - (2 ^ n - 1) * 2 ^ pos = 2 ^ w - ((2 ^ n - 1) * 2 ^ pos + 1) := by omega
  rw [parts_eq_or, hcompl]
  refine Nat.eq_of_testBit_eq fun i => ?_
  simp only [Nat.testBit_or, Nat.testBit_and, Nat.testBit_two_pow_sub_succ hm, Nat.testBit_mul_two_pow,
    Nat.testBit_two_pow_mul, Nat.testBit_mod_two_pow, Nat.testBit_two_pow_sub_one, Nat.testBit_div_two_pow]
  have hhigh : ¬ i < w → x.testBit i = false := fun h =>
    Nat.testBit_lt_two_pow (hx.trans_le (Nat.pow_le_pow_right (by decide) (Nat.not_lt.mp h)))
  by_cases hlow : i < pos
  · have hlt : i < w := by omega
    have h1 : ¬ pos ≤ i := by omega
    have h2 : ¬ pos + n ≤ i := by omega
    simp [hlow, hlt, h1, h2]
  have h1 : pos ≤ i := by omega
  by_cases hmid : i - pos < n
  · have h2 : ¬ pos + n ≤ i := by omega
    simp [hlow, hmid, h1, h2]
  · have h2 : pos + n ≤ i := by omega
    by_cases hlt : i < w <;> simp [hlow, hmid, h1, h2, hlt, hhigh]

/-! ### What the instructions compute -/

/-- NOT (R92). -/
theorem notVal_eq (c : Cx) (t : Thread) :
    c.dst (c.compl (c.nat t 1)) = intoDst (fun c t => (2 ^ (32 * c.n) - 1 - c.nat t 1 : Nat)) c t := by
  rw [c.compl_eq (c.nat_lt t 1)]; rfl

theorem andnVal_eq (c : Cx) (t : Thread) :
    andnVal c t = intoDst (fun c t => (c.nat t 1 &&& (2 ^ (32 * c.n) - 1 - c.nat t 2) : Nat)) c t := by
  rw [andnVal, c.compl_eq (c.nat_lt t 2)]; rfl

theorem absVal_eq (c : Cx) (t : Thread) :
    c.dst |c.int t 1| = intoDst (fun c t => if c.int t 1 < 0 then -c.int t 1 else c.int t 1) c t := by
  have habs : |c.int t 1| = if c.int t 1 < 0 then -c.int t 1 else c.int t 1 := by
    split_ifs with h
    · exact abs_of_neg h
    · exact abs_of_nonneg (Int.not_lt.mp h)
  rw [habs]; rfl

/-- The position and the length of a field operand (R93). -/
theorem field_position (x : Nat) : field x 0 8 = x % 256 := congrArg (· % 256) (Nat.div_one x)
theorem field_length (x : Nat) : field x 8 8 = x / 256 % 256 := rfl

theorem bfeVal_eq {f : Cx → Thread → Int} (hf : bitwise .bfe = some f) (c : Cx) (t : Thread) :
    bfeVal c t = intoDst f c t := by
  cases hf
  by_cases h : c.nat t 2 / 256 % 256 = 0 ∨ 32 * c.n ≤ c.nat t 2 % 256
  · simp only [bfeVal, intoDst, field_position, field_length, if_pos h]
    rfl
  · simp only [bfeVal, intoDst, field_position, field_length, if_neg h]
    rfl

theorem bfiVal_eq {f : Cx → Thread → Int} (hf : bitwise .bfi = some f) (c : Cx) (t : Thread) :
    bfiVal c t = intoDst f c t := by
  cases hf
  by_cases h : c.nat t 3 / 256 % 256 = 0 ∨ 32 * c.n ≤ c.nat t 3 % 256
  · simp only [bfiVal, intoDst, field_position, field_length, if_pos h]
    rfl
  · have hroom : c.nat t 3 % 256 + Nat.min (c.nat t 3 / 256 % 256) (32 * c.n - c.nat t 3 % 256) ≤ 32 * c.n := by
      have hmin : Nat.min (c.nat t 3 / 256 % 256) (32 * c.n - c.nat t 3 % 256) ≤ 32 * c.n - c.nat t 3 % 256 :=
        Nat.min_le_right _ _
      omega
    have hlow : ∀ x n : Nat, field x 0 n = x % 2 ^ n := fun x n => by rw [field, Nat.pow_zero, Nat.div_one]
    simp only [bfiVal, intoDst, field_position, field_length, if_neg h]
    rw [c.compl_eq (mask_lt hroom), hlow, insert_bits _ (c.nat_lt t 1) hroom]
    rfl

/-- Byte q of the pair of sources (R94). -/
theorem permbVal_eq {f : Cx → Thread → Int} (hf : bitwise .permb = some f) (c : Cx) (t : Thread) :
    permbVal c t = intoDst f c t := by
  cases hf
  have hsel : ∀ i, field (c.nat t 3) (4 * i) 4 = c.nat t 3 / 16 ^ i % 16 := fun i => by
    rw [field, Nat.pow_mul]; rfl
  have hbyte : ∀ q, (if 8 ≤ q then 0 else field (c.nat t 2 * 2 ^ 32 + c.nat t 1) (8 * (q % 8)) 8)
      = if 8 ≤ q then 0 else (c.nat t 1 + 2 ^ 32 * c.nat t 2) / 256 ^ q % 256 := fun q => by
    split_ifs with hq
    · rfl
    · have hmod : q % 8 = q := Nat.mod_eq_of_lt (by omega)
      rw [field, hmod, Nat.pow_mul, Nat.add_comm, Nat.mul_comm (c.nat t 2)]
      rfl
  simp only [permbVal, intoDst, hsel, hbyte]
  refine congrArg (fun x : Nat => c.dst x) ?_
  ring

/-! ### The instructions complete -/

/-- AN INSTRUCTION WITH AN INTEGER RESULT completes with the result that its table gives (R82, R83). -/
theorem completes_of_table {tbl : Op → Option (Cx → Thread → Int)} {o : Op} {i : Instr} {e : Ext} {s : State} {c : Cx}
    {val : Cx → Thread → List (Reg × Word)} {f : Cx → Thread → Int} (hc : c.g.Shaped)
    (hrun : exec i s = issueE o e s (lanes val)) (hf : tbl o = some f) (hspan : regSpan c.g.launch.ks o e 0 = e.tyRegs)
    (hval : ∀ t, val c t = intoDst f c t) (h : s.readyE o e = some c) :
    ∃ t f, exec i s = .next t ∧ tbl o = some f ∧ Wrote t c (intoDst f) := by
  obtain ⟨t, ht, hw⟩ := lanes_wrote_typed h hc hspan fun th => ⟨_, hval th⟩
  exact ⟨t, f, hrun.trans ht, hf, fun th hth r x hx => hw th hth r x (by rw [hval, hx])⟩

/-- A counting instruction writes its number to one register (R92). -/
theorem completes_of_counting {o : Op} {i : Instr} {e : Ext} {s : State} {c : Cx} {f : Cx → Thread → Nat}
    (hc : c.g.Shaped) (hrun : exec i s = issueE o e s (lanes fun c t => c.e.op0.writes 1 (f c t))) (hf : counting o = some f)
    (hspan : 1 ≤ regSpan c.g.launch.ks o e 0) (h : s.readyE o e = some c) :
    ∃ t f, exec i s = .next t ∧ counting o = some f ∧ Wrote t c fun c t => c.e.op0.writes 1 (f c t) := by
  obtain ⟨t, ht, hw⟩ := lanes_wrote_one (f := fun c t => c.e.op0.writes 1 (f c t)) h hc hspan fun th => ⟨f c th, rfl⟩
  exact ⟨t, f, hrun.trans ht, hf, hw⟩

/-- Settles O11: each instruction writes its destination with the number that its table gives. -/
theorem integersAndBits : Obligations.IntegersAndBits := by
  unfold Obligations.IntegersAndBits
  refine ⟨fun e s c hc => ?arithmetic, fun e s c hc => ?bits⟩
  case arithmetic =>
    refine ⟨?add, ?sub, ?mul, ?mulh, ?mad, ?min, ?max, ?abs, ?neg⟩
    case add | sub | mul | mulh | mad | min | max | neg =>
      exact fun h _ => completes_of_table hc rfl rfl rfl (fun _ => rfl) h
    case abs => exact fun h _ => completes_of_table hc rfl rfl rfl (absVal_eq c) h
  case bits =>
    refine ⟨?and, ?or, ?xor, ?andn, ?not, ?shl, ?shrl, ?shra, ?rot, ?bfe, ?bfi, ?brev, ?permb, ?popc, ?clz, ?ctz⟩
    case and | or | xor | shl | shrl | shra | rot | brev =>
      exact fun h _ => completes_of_table hc rfl rfl rfl (fun _ => rfl) h
    case andn => exact fun h _ => completes_of_table hc rfl rfl rfl (andnVal_eq c) h
    case not => exact fun h _ => completes_of_table hc rfl rfl rfl (notVal_eq c) h
    case bfe => exact fun h _ => completes_of_table hc rfl rfl rfl (bfeVal_eq rfl c) h
    case bfi => exact fun h _ => completes_of_table hc rfl rfl rfl (bfiVal_eq rfl c) h
    case permb => exact fun h _ => completes_of_table hc rfl rfl rfl (permbVal_eq rfl c) h
    case popc | clz | ctz => exact fun h _ => completes_of_counting hc rfl rfl le_rfl h

end Sys2Proof.Machine
end

section
/-! PROOFS. The base forms (O15, R55, R72): each issues as its extended form under guard P7, and writes one register. -/

namespace Sys2Proof.Machine

/-- A base-form instruction that writes one V register of its active threads completes with its values (R83). -/
theorem issueB_lanes_wrote {major : Nat} {o : Op} {b : Base} {ty : BitVec 4} {addend : Bool} {s : State} {c : Cx}
    {f : Cx → Thread → List (Reg × Word)} (h : s.readyB major o b ty addend = some c) (hc : c.g.Shaped)
    (hspan : 1 ≤ regSpan c.g.launch.ks o (baseExt b ty addend) 0) (hf : ∀ t, ∃ x, f c t = c.e.op0.writes 1 x) :
    ∃ t, issueB major o b ty addend s (lanes f) = .next t ∧ Wrote t c f := by
  obtain ⟨hg, -, -, he⟩ := State.ready_at h
  have hfits : c.Fits f := fun th _ w hw => by
    obtain ⟨x, hx⟩ := hf th
    rw [hx, he] at hw
    exact Opnd.writes_inLaunch (State.ready_vregsOk h) (by decide) (litAt_zero o _) hspan (by decide) w hw
  refine ⟨_, issueB_ready _ h, .of_apply hc hc rfl (fun th hth => ?_) hfits fun k r => ?_⟩
  · rw [Cx.find_of_act hc hth]; rfl
  · rw [lanes, State.reg_of_cores (Act.outcome_done_cores ..)]
    exact State.reg_eq (by rw [State.setGroup_get, if_pos rfl, hg]; rfl) k r

/-- A BASE FORM completes with the result of its extended form under guard P7 (R55, R72), where its type has one register. -/
theorem completes_as_extended {major : Nat} {i : Base → Instr} {o : Op} {b : Base} {ty : BitVec 4} {addend : Bool}
    {s : State} {c : Cx} {val f : Cx → Thread → List (Reg × Word)} (hc : c.g.Shaped)
    (hrun : exec (i b) s = issueB major o b ty addend s (lanes val)) (hf : atOnce (baseExt b ty addend) o = some f)
    (hty : regsOfType ty.toNat = 1) (hspan : regSpan c.g.launch.ks o (baseExt b ty addend) 0 = 1)
    (hval : val = f) (hdst : c.n = 1 → ∀ t, ∃ x, val c t = c.e.op0.writes c.n x)
    (h : s.readyB major o b ty addend = some c) :
    ∃ t f, exec (i b) s = .next t ∧ atOnce (baseExt b ty addend) o = some f ∧ Wrote t c f
      ∧ (baseExt b ty addend).gp = 7 ∧ (baseExt b ty addend).gn = false := by
  obtain ⟨-, -, -, he⟩ := State.ready_at h
  have hn : c.n = 1 := by rw [Cx.n, he]; exact hty
  subst hval
  obtain ⟨t, ht, hw⟩ := issueB_lanes_wrote h hc hspan.ge fun th => hn ▸ hdst hn th
  exact ⟨t, val, hrun.trans ht, hf, hw, rfl, rfl⟩

end Sys2Proof.Machine

namespace Sys2Proof

open Machine

/-- Settles O15: each base form writes its register as the extended form that R72 names. -/
theorem baseForms : Obligations.BaseForms := by
  unfold Obligations.BaseForms
  intro b s c hc
  refine ⟨?add, ?sub, ?mul, ?and, ?or, ?xor, ?andn, ?shl, ?shrl, ?shra, ?minI, ?maxI, ?minN, ?maxN, ?fadd, ?fsub, ?fmul,
    ?fmin, ?fmax, ?ffma, ?pfmaBf16, ?pfmaF16, ?mad, ?rot⟩
  case pfmaBf16 | pfmaF16 =>
    exact completes_as_extended hc rfl rfl rfl rfl rfl fun hn _ => ⟨_, by rw [hn]; rfl⟩
  case andn =>
    exact completes_as_extended hc rfl rfl rfl rfl (funext₂ andnVal_eq) fun _ _ => ⟨_, rfl⟩
  all_goals exact completes_as_extended hc rfl rfl rfl rfl rfl fun _ _ => ⟨_, rfl⟩

end Sys2Proof
end

section
/-! PROOFS. The fetch, the issue of a sheaf and the turn of a slot (O4; R54, R68, R122, R148 to R150, R190): what each comes to
where its conditions hold. -/

namespace Sys2Proof.Machine

/-! ### The words that a cluster holds -/

/-- A word that the cluster holds for an address under a current generation (R122, R285). -/
def State.holds (s : State) (cl vf pa : Nat) (x : CodeWord) : Bool :=
  x.cl = cl && x.vf = vf && x.pa = pa && !(s.vf vf).staleAt x.arena

/-- The cluster holds no word of an address under a current generation (R285). -/
def State.Unheld (s : State) (cl vf pa : Nat) : Prop :=
  ∀ w ∈ s.icache, w.cl = cl → w.vf = vf → w.pa = pa → (s.vf vf).staleAt w.arena = true

theorem State.Unheld.find_eq_none {s : State} {cl vf pa : Nat} (h : s.Unheld cl vf pa) :
    s.icache.find? (s.holds cl vf pa) = none := by
  refine List.find?_eq_none.mpr fun w hw => ?_
  simp only [State.holds, Bool.and_eq_true, decide_eq_true_eq, Bool.not_eq_true', not_and, Bool.not_eq_false]
  exact fun ⟨⟨hcl, hvf⟩, hpa⟩ => h w hw hcl hvf hpa

theorem State.codeWord_of_find {s : State} {cl vf pa : Nat} {x : CodeWord}
    (h : s.icache.find? (s.holds cl vf pa) = some x) : s.codeWord cl vf pa = x.word := by
  unfold State.holds at h
  rw [State.codeWord, h]

/-- A word that the cluster does not hold is the one in memory (R190). -/
theorem State.codeWord_of_unheld {s : State} {cl vf pa : Nat} (h : s.Unheld cl vf pa) :
    s.codeWord cl vf pa = BitVec.ofNat 32 (leNat (Memory.readN (s.memAt (pa / 128)) pa 4)) := by
  have hfind := h.find_eq_none
  unfold State.holds at hfind
  rw [State.codeWord, hfind]

/-- A word that the cluster comes to hold under a current generation stays as it was fetched, whatever becomes of memory
(R190). -/
theorem State.codeWord_of_held {s : State} {cl vf pa arena : Nat} (h : s.Unheld cl vf pa)
    (ha : (s.vf vf).staleAt arena = false) (m : MemSide) :
    State.codeWord { s.holdWord cl vf pa arena with ms := m } cl vf pa = s.codeWord cl vf pa := by
  have hnot : s.holdsWord cl vf pa = false := by
    refine List.any_eq_false.mpr fun w hw => ?_
    exact List.find?_eq_none.mp h.find_eq_none w hw
  rw [State.holdWord, hnot, if_neg Bool.false_ne_true]
  refine State.codeWord_of_find (x := { cl := cl, vf := vf, pa := pa, arena := arena, word := s.codeWord cl vf pa }) ?_
  show (s.icache ++ [_]).find? (s.holds cl vf pa) = _
  rw [List.find?_append, h.find_eq_none]
  simp [State.holds, ha]

/-! ### The fetch -/

/-- The words from an address on may be fetched: their pages may be executed, their arenas are current and their lines have no
uncorrectable error (R363, R375). -/
def State.Fetches (s : State) (g : Group) (pc : Addr) (n : Nat) (pa arena : Nat → Nat) : Prop :=
  ∀ i < n, s.xlate g.cl g.vf (pc + 4 * BitVec.ofNat 64 i).toNat { x := true } = .ok (pa i) (arena i)
    ∧ (s.vf g.vf).staleAt (arena i) = false ∧ s.errs (pa i) = false

theorem State.Fetches.mono {s : State} {g : Group} {pc : Addr} {n m : Nat} {pa arena : Nat → Nat}
    (h : s.Fetches g pc n pa arena) (hm : m ≤ n) : s.Fetches g pc m pa arena := fun i hi => h i (by omega)

theorem State.Fetches.tail {s : State} {g : Group} {pc : Addr} {n : Nat} {pa arena : Nat → Nat}
    (h : s.Fetches g pc (n + 1) pa arena) : s.Fetches g (pc + 4) n (fun i => pa (i + 1)) fun i => arena (i + 1) := by
  intro i hi
  have hpc : pc + 4 + 4 * BitVec.ofNat 64 i = pc + 4 * BitVec.ofNat 64 (i + 1) := by
    bv_omega
  rw [hpc]
  exact h (i + 1) (by omega)

/-- The words of a fetch that meets nothing (R54). -/
theorem State.fetchN_words {s : State} {g : Group} {sh : Sheaf} {first : Word} {n : Nat} {pc : Addr} {pa arena : Nat → Nat}
    (h : s.Fetches g pc n pa arena) (ws : List Word) :
    s.fetchN g sh first n pc ws = .words (ws ++ (List.range n).map fun i => s.sheafWord g sh (pa i)) := by
  induction n generalizing pc pa arena ws with
  | zero => simp [State.fetchN]
  | succ n ih =>
    obtain ⟨hx, ha, he⟩ := h 0 (by omega)
    have hpc : pc + 4 * BitVec.ofNat 64 0 = pc := by simp
    rw [hpc] at hx
    simp only [State.fetchN, hx, ha, he, Bool.false_eq_true, if_false]
    rw [ih h.tail, List.range_succ_eq_map, List.map_cons, List.map_map, List.append_assoc]
    rfl

/-- At a header place a fetch that meets nothing gives one word (R54, R68). -/
theorem State.fetchAt_header {s : State} {g : Group} {sh : Sheaf} {pa arena : Nat} (hsh : sh.inClause = false)
    (hx : s.xlate g.cl g.vf sh.pc.toNat { x := true } = .ok pa arena) (ha : (s.vf g.vf).staleAt arena = false)
    (he : s.errs pa = false) : s.fetchAt g sh = .words [s.codeWord g.cl g.vf pa] := by
  have hf : s.Fetches g sh.pc 1 (fun _ => pa) fun _ => arena := by
    intro i hi
    obtain rfl : i = 0 := by omega
    exact ⟨by simpa using hx, ha, he⟩
  rw [State.fetchAt, State.fetchN_words hf]
  simp [hsh, State.sheafWord]

/-- An instruction has one, three or five words (R54). -/
theorem lengthWords_bounds (w : Word) : 1 ≤ lengthWords w ∧ lengthWords w ≤ 5 := by
  unfold lengthWords
  split <;> decide

/-- Inside a clause a fetch that meets nothing gives as many words as the first one's length field says (R54). -/
theorem State.fetchAt_clause {s : State} {g : Group} {sh : Sheaf} {pa arena : Nat → Nat} (hsh : sh.inClause = true)
    (h : s.Fetches g sh.pc 5 pa arena) (hm : majorOf (s.sheafWord g sh (pa 0)) ≠ 0) :
    s.fetchAt g sh = .words ((List.range (lengthWords (s.sheafWord g sh (pa 0)))).map fun i => s.sheafWord g sh (pa i)) := by
  have hone : s.fetchN g sh 0 1 sh.pc [] = .words [s.sheafWord g sh (pa 0)] := State.fetchN_words (h.mono (by decide)) []
  obtain ⟨hpos, hle⟩ := lengthWords_bounds (s.sheafWord g sh (pa 0))
  simp only [State.fetchAt, hone, hsh, Bool.true_and, bne_iff_ne, ne_eq, hm, not_false_eq_true, if_true, State.fetch]
  obtain ⟨k, hk⟩ : ∃ k, lengthWords (s.sheafWord g sh (pa 0)) = k + 1 := ⟨_, (Nat.sub_add_cancel hpos).symm⟩
  have hrest := (h.mono (m := k + 1) (by omega)).tail
  rw [hk, Nat.add_sub_cancel, State.fetchN_words hrest, List.range_succ_eq_map, List.map_cons, List.map_map]
  rfl

theorem State.sheafWord_clause (s : State) (g : Group) {sh : Sheaf} (hsh : sh.inClause = true) (pa : Nat) :
    s.sheafWord g sh pa = (sh.code.lookup pa).getD (s.codeWord g.cl g.vf pa) := by
  simp only [State.sheafWord, hsh, if_true]
  cases sh.code.lookup pa <;> rfl

/-! ### The issue of a sheaf -/

/-- Words that decode run their instruction: a header at a header place, any other inside a clause, before no breakpoint
(R68). -/
theorem State.runWords_decoded {s : State} {gi si : Nat} {g : Group} {sh : Sheaf} {ws rest : List Word} {i : Instr}
    (hd : decodeWords ws = .ok (i, rest)) (hplace : sh.inClause = true ↔ majorOf (ws.headD 0) ≠ 0)
    (hb : s.breaks g sh.pc = false) : s.runWords gi si g sh ws = exec i s := by
  unfold State.runWords
  dsimp only
  generalize ws.headD 0 = w at hplace ⊢
  by_cases hm : majorOf w = 0
  · have hc : sh.inClause = false := Bool.eq_false_iff.mpr fun h => hplace.mp h hm
    simp [hc, hm, hd, hb]
  · have hc : sh.inClause = true := hplace.mpr hm
    simp [hc, hm, hd, hb]

/-- A sheaf that does not wait runs the words of its fetch, after what the fetch brings, unless a pin refuses it (R186). -/
theorem State.issueAt_words {s : State} {gi si : Nat} {g : Group} {sh : Sheaf} {ws : List Word} (hg : s.groups[gi]? = some g)
    (hsh : g.sheaves[si]? = some sh) (hw : s.waits g sh = false)
    (hf : (s.atIssue gi si g sh).fetchAt (g.atIssue si sh) (sh.atRc 9) = .words ws) :
    s.issueAt gi si =
      match (s.atIssue gi si g sh).fetchHeld (g.atIssue si sh) (sh.atRc 9) ws.length with
      | some line => .next { s.atIssue gi si g sh with
          ms := (s.atIssue gi si g sh).ms.noteRefused line g.uid (fetchKey (sh.atRc 9)) }
      | none => ((s.atIssue gi si g sh).fetched gi si g sh ws.length).runWords gi si (g.atIssue si sh) (sh.atRc 9) ws := by
  unfold State.issueAt
  rw [hg]
  dsimp only
  rw [hsh]
  dsimp only
  rw [hw, if_neg Bool.false_ne_true]
  split
  · next ws' hf' =>
    cases hf.symm.trans hf'
    rfl
  · next hf' => cases hf.symm.trans hf'
  · next hf' => cases hf.symm.trans hf'

/-! ### The turn of a slot -/

/-- A step whose schedule names a slot is the turn of that slot, unless the clock is withheld (R13, R148; log 1). -/
theorem step_issue {s : State} {cl slot : Nat} {later : List Sched} (hdead : s.chip.dead = false)
    (hs : s.schedule = .issue cl slot :: later) :
    step s = if State.withholds { s with schedule := later } then .next { s with schedule := later }
      else State.issueSlot { s with schedule := later } cl slot := by
  unfold step
  rw [hs]
  dsimp only
  rw [hdead, if_neg Bool.false_ne_true]
  rfl

/-- The sheaf at a header that goes on first, where there is one (R148; log 80). -/
def State.firstHead (s : State) (cl slot : Nat) : Option (Group × Sheaf) :=
  (s.drawnAt cl slot false).find? fun x => !s.maskedAt x.1 x.2

/-- The slot as it looks at its offers: a sheaf that stays at its header is counted. -/
def State.pastHeads (s : State) (cl slot : Nat) : State :=
  if (s.drawnAt cl slot false).isEmpty then s else s.countSlot cl slot 5

theorem State.issueSlot_head {s : State} {cl slot gi si : Nat} {x : Group × Sheaf} (hx : s.firstHead cl slot = some x)
    (hat : s.sheafAt x.1.uid (x.2.members.headD { t := 0, gl := 0 }) = some (gi, si)) :
    s.issueSlot cl slot = s.issueAt gi si := by
  unfold State.firstHead at hx
  simp only [State.issueSlot, hx, Option.bind_some, hat]

theorem State.issueSlot_noHead {s : State} {cl slot : Nat} (hx : s.firstHead cl slot = none) :
    s.issueSlot cl slot = if s.issued cl slot then .next s
      else State.tryOffers cl slot (s.offers cl slot) (s.pastHeads cl slot) := by
  unfold State.firstHead at hx
  simp only [State.issueSlot, State.pastHeads, hx, Option.bind_none]

/-- The first offer issues, where its engine accepts it and it does not stall (R148 to R150). -/
theorem State.tryOffers_first {s t : State} {cl slot gi si : Nat} {x : Offer} {xs : List Offer}
    (hat : s.sheafAt x.group x.key = some (gi, si)) (ha : s.accepts cl slot x.engine = true)
    (hi : s.issueAt gi si = .next t) (ht : t.issued cl slot = true) :
    State.tryOffers cl slot (x :: xs) s = .next t := by
  simp [State.tryOffers, hat, ha, hi, ht]

/-- Settles O4: the fetch gives the words that are there, the issue runs what they decode to, and the turn of a slot is its
step. -/
theorem stepRunsDecoded : Obligations.StepRunsDecoded := by
  unfold Obligations.StepRunsDecoded
  refine ⟨⟨fun s cl vf pa => ?held, fun s g sh pa arena hsh hx ha he => ?header, fun s g sh pa arena hsh hf => ?clause⟩,
    fun s gi si g sh ws rest i hg hsh hw => ?issue, fun s cl slot gi si later hdead hs => ?slot⟩
  case held =>
    intro x h
    have hmem := State.codeWord_of_unheld h
    exact ⟨hmem, fun arena m ha => (State.codeWord_of_held h ha m).trans hmem⟩
  case header => exact State.fetchAt_header hsh hx ha he
  case clause =>
    intro word hm
    have hword : ∀ i, s.sheafWord g sh (pa i) = word i := fun i => s.sheafWord_clause g hsh (pa i)
    have hfetch := State.fetchAt_clause hsh hf (by rwa [hword])
    simpa only [hword] using hfetch
  case issue =>
    intro u g' sh' hf hd hplace hb
    have hrun := State.issueAt_words hg hsh hw hf
    refine ⟨fun hheld => ?_, fun line hheld => ?_⟩
    · rw [hrun, hheld]
      exact State.runWords_decoded hd hplace hb
    · rw [hrun, hheld]
  case slot =>
    intro u
    have hstep : step s = if u.withholds then .next u else u.issueSlot cl slot := step_issue hdead hs
    refine ⟨fun hwith => hstep.trans (if_pos hwith), fun hwith => ?_⟩
    have hturn : step s = u.issueSlot cl slot := hstep.trans (if_neg (Bool.eq_false_iff.mp hwith))
    intro heads first v
    refine ⟨fun x hx hat => ?goesOn, fun hx hissued => ?spent, fun x xs t hx hissued hoffers hat ha hi ht => ?offers⟩
    case goesOn => exact hturn.trans (State.issueSlot_head hx hat)
    case spent => rw [hturn, State.issueSlot_noHead hx, if_pos hissued]
    case offers =>
      rw [hturn, State.issueSlot_noHead hx, if_neg (Bool.eq_false_iff.mp hissued), hoffers]
      exact State.tryOffers_first hat ha hi ht

end Sys2Proof.Machine
end

section
/-! PROOFS. What work at the homes and in the caches leaves (R159 to R168, R170, R186, R188, R204): a thread that is held may
resume, and nothing else of a group changes; tasks, pins and translations stay. -/

namespace Sys2Proof.Machine

/-! ### Threads that may resume -/

/-- A thread that is as it was, or that was held and stands elsewhere (R204). -/
def Thread.Woken (t u : Thread) : Prop := u = t ∨ t.heldSite.isSome ∧ u.core = t.core

/-- A group of which held threads may have resumed. -/
def Group.Woken (g h : Group) : Prop :=
  ∃ f : Thread → Thread, (∀ t : Thread, t.Woken (f t)) ∧ h = { g with threads := g.threads.map f }

theorem Thread.Woken.core {t u : Thread} (h : t.Woken u) : u.core = t.core := by
  rcases h with rfl | ⟨-, h⟩
  · rfl
  · exact h

theorem Thread.Woken.key {t u : Thread} (h : t.Woken u) : u.key = t.key := by
  have hc := congrArg Thread.key h.core
  exact hc

theorem Thread.Woken.trans {t u w : Thread} (h : t.Woken u) (h' : u.Woken w) : t.Woken w := by
  rcases h' with rfl | ⟨hu, hw⟩
  · exact h
  · rcases h with rfl | ⟨ht, hc⟩
    · exact .inr ⟨hu, hw⟩
    · exact .inr ⟨ht, hw.trans hc⟩

theorem Group.Woken.refl (g : Group) : g.Woken g := ⟨id, fun _ => .inl rfl, by simp⟩

theorem Group.Woken.trans {g h i : Group} (hgh : g.Woken h) (hhi : h.Woken i) : g.Woken i := by
  obtain ⟨f, hf, rfl⟩ := hgh
  obtain ⟨f', hf', rfl⟩ := hhi
  exact ⟨f' ∘ f, fun t => (hf t).trans (hf' (f t)), by simp⟩

/-- The cores stay. -/
theorem Group.Woken.core {g h : Group} (hw : g.Woken h) : h.core = g.core := by
  obtain ⟨f, hf, rfl⟩ := hw
  exact g.core_mapThreads f fun t => (hf t).core

/-- A thread that is not held is found as it was. -/
theorem Group.Woken.find_free {g h : Group} {k : Key} {t : Thread} (hw : g.Woken h) (hk : g.find k = some t)
    (ht : t.heldSite = none) : h.find k = some t := by
  obtain ⟨f, hf, rfl⟩ := hw
  have hkey : (fun t => decide (t.key = k)) ∘ f = fun t => decide (t.key = k) := funext fun u => by
    simp only [Function.comp, (hf u).key]
  have hfix : f t = t := (hf t).resolve_right (by simp [ht])
  unfold Group.find at hk ⊢
  rw [List.find?_map, hkey, hk, Option.map_some, hfix]

/-! ### What such work leaves of the device -/

/-- What work at homes and in caches leaves: groups but for held threads, tasks, the clock, pins, translations and walks. -/
structure State.Quiet (s t : State) : Prop where
  groups : ∃ f : Group → Group, (∀ g : Group, g.Woken (f g)) ∧ t.groups = s.groups.map f
  tasks : t.tasks = s.tasks
  clock : t.clock = s.clock
  pins : t.ms.pins = s.ms.pins
  tlb : t.ms.tlb = s.ms.tlb
  walks : t.ms.walks = s.ms.walks

/-- A change of other parts of the device. -/
theorem State.Quiet.of_eq {s t : State} (hg : t.groups = s.groups) (ht : t.tasks = s.tasks) (hc : t.clock = s.clock)
    (hp : t.ms.pins = s.ms.pins) (hl : t.ms.tlb = s.ms.tlb) (hw : t.ms.walks = s.ms.walks) : s.Quiet t :=
  ⟨⟨id, Group.Woken.refl, by simpa using hg⟩, ht, hc, hp, hl, hw⟩

theorem State.Quiet.refl (s : State) : s.Quiet s := .of_eq rfl rfl rfl rfl rfl rfl

theorem State.Quiet.trans {s t u : State} (h : s.Quiet t) (h' : t.Quiet u) : s.Quiet u := by
  obtain ⟨f, hf, hg⟩ := h.groups
  obtain ⟨f', hf', hg'⟩ := h'.groups
  refine ⟨⟨f' ∘ f, fun g => (hf g).trans (hf' (f g)), by rw [hg', hg, List.map_map]⟩, ?_, ?_, ?_, ?_, ?_⟩
  · exact h'.tasks.trans h.tasks
  · exact h'.clock.trans h.clock
  · exact h'.pins.trans h.pins
  · exact h'.tlb.trans h.tlb
  · exact h'.walks.trans h.walks

theorem State.Quiet.foldl {α : Type} {f : State → α → State} (hf : ∀ (u : State) x, u.Quiet (f u x)) (xs : List α) (s : State) :
    s.Quiet (xs.foldl f s) := by
  induction xs generalizing s with
  | nil => exact .refl s
  | cons x xs ih => exact (hf s x).trans (ih _)

/-- Threads of some groups resume. -/
theorem State.Quiet.of_threads {s t : State} (p : Group → Bool) (f : Thread → Thread) (hf : ∀ u : Thread, u.Woken (f u))
    (ht : t = { s with groups := s.groups.map fun g => if p g then { g with threads := g.threads.map f } else g }) :
    s.Quiet t := by
  subst ht
  refine ⟨⟨_, fun g => ?_, rfl⟩, rfl, rfl, rfl, rfl, rfl⟩
  split
  · exact ⟨f, hf, rfl⟩
  · exact .refl g

/-- The group of a place after such work. -/
theorem State.Quiet.group {s t : State} {gi : Nat} {g : Group} (h : s.Quiet t) (hg : s.groups[gi]? = some g) :
    ∃ g', t.groups[gi]? = some g' ∧ g.Woken g' := by
  obtain ⟨f, hf, hgs⟩ := h.groups
  exact ⟨f g, by rw [hgs, List.getElem?_map, hg, Option.map_some], hf g⟩

theorem State.Quiet.cores {s t : State} (h : s.Quiet t) : t.cores = s.cores := by
  obtain ⟨f, hf, hgs⟩ := h.groups
  unfold State.cores
  rw [hgs, List.map_map]
  exact List.map_congr_left fun g _ => (hf g).core

/-- Every register is as before. -/
theorem State.Quiet.sameRegs {s t : State} (h : s.Quiet t) : SameRegs s t := fun gi k r => State.reg_of_cores h.cores gi k r

theorem State.Quiet.uids {s t : State} (h : s.Quiet t) : t.groups.map Group.uid = s.groups.map Group.uid := by
  have hcore : ∀ l : List Group, l.map Group.uid = (l.map Group.core).map Group.uid := fun l => by rw [List.map_map]; rfl
  rw [hcore, hcore s.groups]
  exact congrArg _ h.cores

/-! ### Slices and homes -/

theorem Thread.wake_woken (clock line : Nat) (t : Thread) : t.Woken (t.wake clock line) := by
  unfold Thread.wake
  split
  · next hp =>
    split
    · exact .inr ⟨by simp [Thread.heldSite, hp], rfl⟩
    · exact .inl rfl
  · exact .inl rfl

theorem Thread.wakeNarrow_woken (clock line : Nat) (t : Thread) : t.Woken (t.wakeNarrow clock line) := by
  unfold Thread.wakeNarrow
  split
  · next hp =>
    split
    · exact .inr ⟨by simp [Thread.heldSite, hp], rfl⟩
    · exact .inl rfl
  · exact .inl rfl

theorem State.wakeLine_quiet (s : State) (line : Nat) : s.Quiet (s.wakeLine line) :=
  .of_threads (fun _ => true) _ (Thread.wake_woken s.clock line) rfl

theorem State.wakeNarrow_quiet (s : State) (cl line : Nat) : s.Quiet (s.wakeNarrow cl line) :=
  .of_threads (fun g => g.cl = cl) _ (Thread.wakeNarrow_woken s.clock line) (by simp [State.wakeNarrow])

theorem State.countShared_quiet (s : State) (vf event n : Nat) : s.Quiet (s.countShared vf event n) :=
  .of_eq rfl rfl rfl rfl rfl rfl

theorem State.spillLine_quiet (s : State) (vf : Nat) (x : SLine) : s.Quiet (s.spillLine vf x) := by
  unfold State.spillLine
  dsimp only
  split <;> exact .of_eq rfl rfl rfl rfl rfl rfl

theorem State.fillSlice_quiet (s : State) (vf slice line arena : Nat) (kind : SliceKind) :
    s.Quiet (s.fillSlice vf slice line arena kind) := by
  unfold State.fillSlice
  split
  · exact (s.spillLine_quiet _ _).trans (.of_eq rfl rfl rfl rfl rfl rfl)
  · exact .of_eq rfl rfl rfl rfl rfl rfl

theorem State.soil_quiet (s : State) (line : Nat) : s.Quiet (s.soil line) := by
  unfold State.soil
  split <;> exact .of_eq rfl rfl rfl rfl rfl rfl

theorem State.atHome_quiet (s : State) (vf arena pa : Nat) (write : Bool) : s.Quiet (s.atHome vf arena pa write) := by
  have counted : s.Quiet ((s.countShared vf 0x101 1).countShared vf 0x104 1) :=
    (s.countShared_quiet _ _ _).trans (State.countShared_quiet _ _ _ _)
  unfold State.atHome
  dsimp only
  split
  · split <;> exact .of_eq rfl rfl rfl rfl rfl rfl
  · split
    · exact (counted.trans (State.soil_quiet _ _)).trans (State.fillSlice_quiet _ _ _ _ _ _)
    · split
      · exact counted
      · exact counted.trans (State.fillSlice_quiet _ _ _ _ _ _)

theorem State.atReplica_quiet (s : State) (cl vf arena pa : Nat) : s.Quiet (s.atReplica cl vf arena pa) := by
  unfold State.atReplica
  split
  · exact s.atHome_quiet _ _ _ _
  · split
    · exact .refl s
    · exact ((s.countShared_quiet _ _ _).trans (State.atHome_quiet _ _ _ _ _)).trans (State.fillSlice_quiet _ _ _ _ _ _)

theorem State.writeHome_quiet (s : State) (cl : Option Nat) (vf arena line : Nat) :
    s.Quiet (s.writeHome cl vf arena line) := by
  unfold State.writeHome
  dsimp only
  refine .trans ((s.atHome_quiet vf arena (line * 128) true).trans ?_) (State.wakeLine_quiet _ line)
  exact .of_eq rfl rfl rfl rfl rfl rfl

theorem State.writeLine_quiet (s : State) (cl : Option Nat) (vf arena line : Nat) :
    s.Quiet (s.writeLine cl vf arena line) := by
  unfold State.writeLine
  split
  · exact s.wakeLine_quiet _
  · exact s.writeHome_quiet _ _ _ _

theorem MemSide.noteDirty_tlb (m : MemSide) (vf arena line : Nat) : (m.noteDirty vf arena line).tlb = m.tlb := by
  unfold MemSide.noteDirty
  split
  · rfl
  · split <;> rfl

theorem MemSide.noteDirty_walks (m : MemSide) (vf arena line : Nat) : (m.noteDirty vf arena line).walks = m.walks := by
  unfold MemSide.noteDirty
  split
  · rfl
  · split <;> rfl

theorem MemSide.combine_tlb (m : MemSide) (line : Nat) : (m.combine line).tlb = m.tlb := by
  unfold MemSide.combine
  split <;> rfl

theorem MemSide.combine_walks (m : MemSide) (line : Nat) : (m.combine line).walks = m.walks := by
  unfold MemSide.combine
  split <;> rfl

theorem State.notePartials_quiet (s : State) (line : Nat) (ps : List Partial) : s.Quiet (s.notePartials line ps) := by
  unfold State.notePartials
  refine .foldl ?_ ps s
  exact fun _ _ => .of_eq rfl rfl rfl (MemSide.noteDirty_pins _ _ _ _) (MemSide.noteDirty_tlb _ _ _ _)
    (MemSide.noteDirty_walks _ _ _ _)

/-- A recall wakes the waiters of its line (R188, R204). -/
theorem State.recall_quiet (s : State) (line : Nat) : s.Quiet (s.recall line) := by
  unfold State.recall
  dsimp only
  split
  · exact .refl s
  · refine ((s.notePartials_quiet line (s.ms.recallable line)).trans ?_).trans (State.writeHome_quiet _ _ _ _ _)
    exact .of_eq rfl rfl rfl (MemSide.combine_pins _ _) (MemSide.combine_tlb _ _) (MemSide.combine_walks _ _)

theorem State.store_quiet (s : State) (cl : Option Nat) (vf arena pa : Nat) (bytes : List Byte) :
    s.Quiet (s.store cl vf arena pa bytes) := by
  unfold State.store
  dsimp only
  split
  · exact .of_eq rfl rfl rfl rfl rfl rfl
  · refine ((s.recall_quiet (pa / 128)).trans ?_).trans (State.writeLine_quiet _ _ _ _ _)
    exact .of_eq rfl rfl rfl (MemSide.noteDirty_pins _ _ _ _) (MemSide.noteDirty_tlb _ _ _ _) (MemSide.noteDirty_walks _ _ _ _)

/-! ### What the device writes -/

theorem State.putAs_quiet (s : State) (who : Option (Nat × Nat)) (vf arena pa : Nat) (b : Byte) :
    s.Quiet (s.putAs who vf arena pa b) := by
  unfold State.putAs
  split
  · exact .refl s
  · split
    · exact .of_eq rfl rfl rfl rfl rfl rfl
    · exact s.store_quiet _ _ _ _ _

theorem State.writeAs_quiet (s : State) (who : Option (Nat × Nat)) (vf va : Nat) (bytes : List Byte) :
    s.Quiet (s.writeAs who vf va bytes) := by
  induction bytes generalizing s va with
  | nil => exact .refl s
  | cons b bs ih =>
    rw [State.writeAs]
    refine .trans ?_ (ih _ _)
    split
    · exact s.putAs_quiet _ _ _ _ _
    · exact .refl s

theorem State.devWrite_quiet (s : State) (vf va : Nat) (bytes : List Byte) : s.Quiet (s.devWrite vf va bytes) :=
  s.writeAs_quiet none vf va bytes

theorem State.tcbPut_quiet (s : State) (vf i off n x : Nat) : s.Quiet (s.tcbPut vf i off n x) := s.devWrite_quiet _ _ _

/-! ### The ends of pins -/

theorem State.ask_quiet (s : State) (vf kind path pa op width : Nat) (data : List Byte) (a : Asker) :
    s.Quiet (s.ask vf kind path pa op width data a) := .of_eq rfl rfl rfl rfl rfl rfl

theorem State.flushFar_quiet (s : State) (a : Asker) (x : FarLine) : s.Quiet (s.flushFar a x) := by
  unfold State.flushFar
  refine .trans (t := { s with ms := { s.ms with far := s.ms.far.filter fun y => y != x } })
    (.of_eq rfl rfl rfl rfl rfl rfl) (.foldl (fun u i => ?_) _ _)
  dsimp only
  split
  · exact .refl u
  · exact u.ask_quiet _ _ _ _ _ _ _ _

theorem State.writeBack_quiet (s : State) (p : Pin) : s.Quiet (s.writeBack p) := by
  unfold State.writeBack
  split
  · exact (s.flushFar_quiet _ _).trans (.of_eq rfl rfl rfl rfl rfl rfl)
  · split
    · exact .refl s
    · exact s.writeHome_quiet _ _ _ _

/-- Where pins end, the rest is work at homes (R186). -/
theorem State.endPins_quiet (s : State) (ends : Pin → Bool) :
    State.Quiet { s with ms := { s.ms with pins := s.ms.pins.filter fun p => !ends p } } (s.endPins ends) := by
  unfold State.endPins
  refine .trans (.trans ?_ (.foldl State.writeBack_quiet _ _)) (.foldl (fun u x => ?_) _ _)
  · exact .of_eq rfl rfl rfl rfl rfl rfl
  · split
    · exact .refl u
    · exact u.store_quiet _ _ _ _ _

/-! ### Cluster caches -/

/-- A line that no group holds leaves its cluster cache (R159, R160). -/
theorem State.evictLine_quiet (s : State) {c : CLine} (h : c.kind ≠ .held) : s.Quiet (s.evictLine c) := by
  have out : s.Quiet (match c.kind with
      | .clean => s
      | .held => s.endPins fun p => p.cl = c.cl && p.line = c.line
      | .update => s.recall c.line) := by
    split
    · exact .refl s
    · next hk => exact absurd hk h
    · exact s.recall_quiet _
  refine .trans (.trans out ?_) (State.wakeNarrow_quiet _ _ _)
  exact .of_eq rfl rfl rfl rfl rfl rfl

/-- What leaves a full set is a line that may leave (R161). -/
theorem State.cachePrey_mayLeave {s : State} {cl set : Nat} {c : CLine} (h : s.cachePrey cl set = some c) :
    s.mayLeave c = true := by
  unfold State.cachePrey pickLow pick at h
  exact (List.mem_filter.mp (List.mem_of_mem_filter (List.mem_of_getElem? h))).2

theorem State.mayLeave_kind {s : State} {c : CLine} (h : s.mayLeave c = true) : c.kind ≠ .held := by
  intro hk
  simp [State.mayLeave, hk] at h

theorem State.fillLine_quiet (s : State) (cl vf arena line : Nat) (kind : LineKind) :
    s.Quiet (s.fillLine cl vf arena line kind) := by
  have room : s.Quiet (match s.freeWay cl (cacheSet line) with
      | some _ => s
      | none => match s.cachePrey cl (cacheSet line) with
        | some c => s.evictLine c
        | none => s) := by
    split
    · exact .refl s
    · split
      · next hc => exact s.evictLine_quiet (State.mayLeave_kind (State.cachePrey_mayLeave hc))
      · exact .refl s
  unfold State.fillLine
  dsimp only
  split
  · exact room
  · exact room.trans (.of_eq rfl rfl rfl rfl rfl rfl)

theorem State.readLine_quiet (s : State) (cl vf arena pa : Nat) (home : Bool) : s.Quiet (s.readLine cl vf arena pa home) := by
  have fetch : ∀ u : State, u.Quiet (if (u.vf vf).sealPassed arena then u.atReplica cl vf arena pa else u.atHome vf arena pa false) :=
    fun u => by
      split
      · exact u.atReplica_quiet _ _ _ _
      · exact u.atHome_quiet _ _ _ _
  unfold State.readLine
  dsimp only
  split
  · split
    · exact .refl s
    · exact fetch s
  · refine .trans (.trans ?_ (fetch (s.count cl 6 1))) (State.fillLine_quiet _ _ _ _ _ _)
    exact .of_eq rfl rfl rfl rfl rfl rfl

theorem State.retain_quiet (s : State) (cl vf pa hint : Nat) : s.Quiet (s.retain cl vf pa hint) := by
  unfold State.retain
  split
  · exact .of_eq rfl rfl rfl rfl rfl rfl
  · exact .refl s

end Sys2Proof.Machine
end

section
/-! PROOFS. The store whose width code none of R133 names. -/

namespace Sys2Proof.Machine

open Sys2Proof.Tests

/-- The test state with a partial of four bytes staged for line 65 (R188). -/
def stagedAt65 : State :=
  { base with ms := { base.ms with partials :=
      [{ id := 1, cl := 0, pa := 0x2080, op := 0, ty := 6, width := 4, val := 3, vf := 0, arena := 0, bad := false }] } }

/-- ST of width code 8 writes 256 bytes from line 64 on. -/
def st256 : Ext := st2 8 0x2000

theorem stagedAt65_ready : ∃ c, stagedAt65.readyE .st st256 = some c ∧ c.g.Shaped
    ∧ Reach c stagedAt65 c.act (fun th => stagedAt65.checkVa c (c.va th) c.width { w := true }) pa2 ar0
    ∧ ((¬ ∀ th ∈ c.act, 0x2080 < pa2 th ∨ pa2 th + c.width ≤ 0x2080)
      ∧ Memory.read (stored stagedAt65.ms.mem c.act pa2 c.data) 0x2080 = 0) :=
  reach_ready _ (by decide +kernel)

/-- After the step the staged partial still stands over the stored byte: only the recall of line 64 came before. -/
theorem stagedAt65_next : (match execSt st256 stagedAt65 with
    | .next t => t.byte 0x2080 == 3
    | _ => false) = true := by decide +kernel

theorem stagedAt65_memOk : stagedAt65.MemOk := by unfold State.MemOk; decide +kernel

/-- Refutes O26: nothing in the statement bounds the width code. A store of 256 bytes (code 8) recalls the line of its
first byte alone, and a partial that waits on the next line still combines into the byte that it stored there. -/
theorem not_loadsAndStores : ¬ Obligations.LoadsAndStores := by
  unfold Obligations.LoadsAndStores
  rintro ⟨-, stores⟩
  obtain ⟨c, hc, -, hreach, hin, hzero⟩ := stagedAt65_ready
  have settled : stagedAt65.Settled := rfl
  have unstaged : Unstaged stagedAt65 c.act pa2 := fun th _ p hp => by
    rw [List.mem_singleton.mp hp]
    exact (by decide : 0x2080 / 128 ≠ 0x2000 / 128)
  obtain ⟨t, ht, -, written, -⟩ := (stores st256 stagedAt65 c pa2 ar0 stagedAt65_memOk settled unstaged).1 hc hreach
    (fun h => absurd h (by decide))
  have three := stagedAt65_next
  rw [show execSt st256 stagedAt65 = .next t from ht] at three
  have zero : t.byte 0x2080 = 0 := (written 0x2080 hin).trans hzero
  exact absurd (zero.symm.trans (eq_of_beq three)) (by decide)

end Sys2Proof.Machine
end

section
/-! PROOFS. The checks of an access and what a failing one does (R134, R364, R366, R369, R370). -/

namespace Sys2Proof.Machine

/-- Where cores stay, every register stays. -/
theorem SameRegs.of_cores {s t : State} (h : t.cores = s.cores) : SameRegs s t := fun gi k r => State.reg_of_cores h gi k r

/-! ### The checks of one access -/

/-- The first two checks pass. -/
theorem checkVa_aligned {va width : Nat} (ha : va % width = 0) (hv : va < 2 ^ 56) :
    ¬ (va % width != 0) = true ∧ ¬ 2 ^ 56 ≤ va := ⟨by simp [ha], Nat.not_le.mpr hv⟩

theorem State.checkVa_denied {s : State} {c : Cx} {va width : Nat} {n : Need} (ha : va % width = 0) (hv : va < 2 ^ 56)
    (hx : s.xlate c.g.cl c.g.vf va n = .denied) :
    s.checkVa c va width n = .bad { cls := 6, addr := va, access := if n.w then 1 else 0 } := by
  obtain ⟨h4, h6⟩ := checkVa_aligned ha hv
  unfold State.checkVa
  rw [if_neg h4, if_neg h6, hx]

/-- A translated access meets the checks of a revoked import and of a sealed arena (R296, R369). -/
theorem State.checkVa_ok {s : State} {c : Cx} {va width pa arena : Nat} {n : Need} (ha : va % width = 0) (hv : va < 2 ^ 56)
    (hx : s.xlate c.g.cl c.g.vf va n = .ok pa arena) :
    s.checkVa c va width n =
      if inImport pa && (s.importOf pa).revoked then .bad { cls := 17, addr := va, access := if n.w then 1 else 0 }
      else if n.w && (s.vf c.g.vf).sealedAt arena then .bad { cls := 8, addr := va, access := if n.w then 1 else 0 }
      else .ok pa arena := by
  obtain ⟨h4, h6⟩ := checkVa_aligned ha hv
  unfold State.checkVa
  rw [if_neg h4, if_neg h6, hx]

/-- A sheaf without an answer FAIL waits for a page that has no translation (R366, R367). -/
theorem State.checkVa_missing {s : State} {c : Cx} {va width : Nat} {n : Need} (ha : va % width = 0) (hv : va < 2 ^ 56)
    (hx : s.xlate c.g.cl c.g.vf va n = .missing) (hh : ∀ page cls, c.sh.hold ≠ .failed page cls) :
    s.checkVa c va width n = .page va := by
  obtain ⟨h4, h6⟩ := checkVa_aligned ha hv
  unfold State.checkVa
  rw [if_neg h4, if_neg h6, hx]
  dsimp only
  split
  · next page cls h => exact absurd h (hh page cls)
  · rfl

/-- The sum of R134 in w bits. -/
theorem Group.address_eq (g : Group) (t : Thread) (e : Ext) (n w scale : Nat) :
    (g.address t e n w scale : Int) = (((if e.op1.absent then 0 else (g.src t n e.op1 : Int)) : Int)
      + ((if e.op2.absent then 0 else g.src t 1 e.op2 : Nat) : Int) * 2 ^ scale + e.disp) % 2 ^ w := by
  unfold Group.address wrap
  rw [Int.toNat_of_nonneg (Int.emod_nonneg _ (by positivity))]
  push_cast
  split <;> rfl

/-! ### The gate where a check fails -/

/-- The faults that the checks of threads find. -/
def Chk.faults (ts : List Thread) (chk : Thread → Chk) : List (Key × Flt) := ts.filterMap fun th =>
  match chk th with
  | .bad f => some (th.key, f)
  | _ => none

/-- A fault of any thread leaves an access without effect (R134, R370). -/
theorem gate_fault {c : Cx} {s : State} {ts : List Thread} {chk : Thread → Chk} (w : Bool) (k : List Hit → State → Act)
    (h : Chk.faults ts chk ≠ []) : gate c s ts chk w k = .fault (Chk.faults ts chk) := by
  unfold gate
  simp only [List.filterMap_map]
  rw [if_pos]
  · rfl
  · rw [Bool.not_eq_true', List.isEmpty_eq_false_iff]
    exact h

/-- Where no check faults and some page is missing, the sheaf misses the page of one of its threads (R134, R366). -/
theorem gate_page {c : Cx} {s : State} {ts : List Thread} {chk : Thread → Chk} (w : Bool) (k : List Hit → State → Act)
    (h : Chk.faults ts chk = []) (hp : ∃ th ∈ ts, ∃ va, chk th = .page va) :
    ∃ th ∈ ts, ∃ va, chk th = .page va ∧ gate c s ts chk w k = .stay (s.holdPage c va w false false) := by
  obtain ⟨th, hth, va, hva⟩ := hp
  unfold gate
  simp only [List.filterMap_map]
  rw [if_neg (by rw [Bool.not_eq_true, Bool.not_eq_false', List.isEmpty_iff]; exact h)]
  have hin : va ∈ ts.filterMap ((fun x : Thread × Chk => match x.2 with
      | .page va => some va
      | _ => none) ∘ fun t => (t, chk t)) := List.mem_filterMap.mpr ⟨th, hth, by simp [hva]⟩
  split
  · next va' rest hl =>
    obtain ⟨th', hth', hva'⟩ := List.mem_filterMap.mp (hl ▸ List.mem_cons_self : va' ∈ _)
    refine ⟨th', hth', va', ?_, rfl⟩
    simp only [Function.comp_apply] at hva'
    split at hva'
    · next v hv => rw [hv, Option.some.inj hva']
    · cases hva'
  · next hl =>
    have : va ∈ ([] : List Nat) := hl ▸ hin
    cases this

/-! ### A miss -/

@[simp] theorem State.fillTlb_cores (s : State) (cl vf page : Nat) (l : Leaf) : (s.fillTlb cl vf page l).cores = s.cores := rfl
@[simp] theorem State.fillTlb_mem (s : State) (cl vf page : Nat) (l : Leaf) : (s.fillTlb cl vf page l).ms.mem = s.ms.mem := rfl
@[simp] theorem State.miss_mem (s : State) (cl vf va : Nat) (w f e : Bool) : (s.miss cl vf va w f e).ms.mem = s.ms.mem := by
  unfold State.miss
  split <;> rfl
@[simp] theorem State.miss_groups (s : State) (cl vf va : Nat) (w f e : Bool) : (s.miss cl vf va w f e).groups = s.groups := by
  unfold State.miss
  split <;> rfl

theorem State.miss_cores (s : State) (cl vf va : Nat) (w f e : Bool) : (s.miss cl vf va w f e).cores = s.cores := by
  unfold State.cores
  rw [State.miss_groups]

/-- A translation that enters a TLB stands there. -/
theorem mem_tlbPut (n : Nat) (x : Tlb) (l : List Tlb) : x ∈ tlbPut n x l := List.mem_cons_self

/-- What a miss of the issuing sheaf leaves and where the sheaf stands then (R134, R364, R366). -/
def Cx.WaitsPage (c : Cx) (s t : State) (va : Nat) (w : Bool) : Prop :=
  SameRegs s t ∧ t.ms.mem = s.ms.mem
  ∧ (∃ g ∈ t.groups[c.gi]?, ∃ sh ∈ g.sheaves, sh.pc = c.sh.pc ∧ sh.idx = c.sh.idx
      ∧ (s.secondTlb c.g.cl c.g.vf (va / 4096) = none → sh.hold = .page va (va / 4096) w false false))
  ∧ ∀ x, s.secondTlb c.g.cl c.g.vf (va / 4096) = some x → x.leaf.entry c.g.cl c.g.vf (va / 4096) ∈ t.ms.tlb

theorem State.holdPage_waits {s : State} {c : Cx} (hg : s.groups[c.gi]? = some c.g) (hsh : c.g.sheaves[c.si]? = some c.sh)
    (va : Nat) (w : Bool) : c.WaitsPage s (s.holdPage c va w false false) va w := by
  unfold State.holdPage State.missAt
  cases hx : s.secondTlb c.g.cl c.g.vf (va / 4096) with
  | some x =>
    refine ⟨.of_cores rfl, rfl, ⟨c.g, hg, c.sh, List.mem_of_getElem? hsh, rfl, rfl, fun h => ?_⟩, fun y hy => ?_⟩
    · rw [hx] at h
      cases h
    · obtain rfl := Option.some.inj (hx.symm.trans hy)
      exact mem_tlbPut _ _ _
  | none =>
    have held := State.setSheaf_get (s := s.miss c.g.cl c.g.vf va w false false) (gi := c.gi) (by rw [State.miss_groups, hg])
      hsh (f := fun sh => { sh with hold := .page va (va / 4096) w false false })
    obtain ⟨g, hgt, hst⟩ := held
    refine ⟨.of_cores ?_, ?_, ⟨g, hgt, _, List.mem_of_getElem? hst, rfl, rfl, fun _ => rfl⟩, fun y hy => ?_⟩
    · rw [State.setSheaf_cores, State.miss_cores]
    · rw [State.setSheaf_ms, State.miss_mem]
    · rw [hx] at hy
      cases hy

/-! ### LD and ST -/

theorem exec_ld {e : Ext} {s : State} {c : Cx} (h : s.readyE .ld e = some c) :
    exec (.ld e) s = .next ((ldBody c s).outcome c s) := issueE_ready ldBody h

theorem exec_st {e : Ext} {s : State} {c : Cx} (h : s.readyE .st e = some c) :
    exec (.st e) s = .next ((stBody c s).outcome c s) := issueE_ready stBody h

/-- The accesses of threads without a fault and with a missing page wait. -/
theorem gate_waits {c : Cx} {s : State} {ts : List Thread} {chk : Thread → Chk} (w : Bool) (k : List Hit → State → Act)
    (hg : s.groups[c.gi]? = some c.g) (hsh : c.g.sheaves[c.si]? = some c.sh)
    (h : Chk.faults ts chk = []) (hp : ∃ th ∈ ts, ∃ va, chk th = .page va) :
    ∃ va, (∃ th ∈ ts, chk th = .page va) ∧ c.WaitsPage s ((gate c s ts chk w k).outcome c s) va w := by
  obtain ⟨th, hth, va, hva, hgate⟩ := gate_page (c := c) (s := s) w k h hp
  exact ⟨va, ⟨th, hth, hva⟩, hgate ▸ State.holdPage_waits hg hsh va w⟩

/-- Settles O25, the checks by cases of the translation, LD and ST by the gate that their accesses pass. -/
theorem accessChecks : Obligations.AccessChecks := by
  unfold Obligations.AccessChecks
  refine ⟨fun s c va width n => ⟨fun ha => ?_, fun ha hv => ?_, fun ha hv => ⟨fun hx => ?_, fun pa arena hx => ?_, ?_⟩⟩,
    fun c th => ?_, fun e s c => ⟨fun hc hf => ?_, fun hc hf => ?_, fun hc hf hp => ?_, fun hc hf hp => ?_⟩⟩
  · unfold State.checkVa
    rw [if_pos (by simpa using ha)]
  · unfold State.checkVa
    rw [if_neg (by simpa using ha), if_pos hv]
  · exact State.checkVa_denied ha hv hx
  · rw [State.checkVa_ok ha hv hx]
    refine ⟨fun hr => ?_, fun hr hw hs => ?_, fun hr hs => ?_⟩
    · rw [if_pos (by simpa using hr)]
    · rw [if_neg (by simpa using hr), if_pos (by simp [hw, hs])]
    · rw [if_neg (by simpa using hr), if_neg (by rcases hs with hs | hs <;> simp [hs])]
  · exact State.checkVa_missing ha hv
  · exact c.g.address_eq th c.e 2 64 c.e.scale
  · rw [exec_ld hc, ldBody, gate_fault false _ hf]
    rfl
  · rw [exec_st hc, stBody, gate_fault true _ hf]
    rfl
  · obtain ⟨hg, hsh, -⟩ := State.ready_at hc
    obtain ⟨va, hva, hregs, hmem, hheld, hfill⟩ := gate_waits false _ hg hsh hf hp
    exact ⟨_, va, exec_ld hc, hregs, hmem, hva, hheld, hfill⟩
  · obtain ⟨hg, hsh, -⟩ := State.ready_at hc
    obtain ⟨va, hva, hregs, hmem, hheld, hfill⟩ := gate_waits true _ hg hsh hf hp
    exact ⟨_, va, exec_st hc, hregs, hmem, hva, hheld, hfill⟩

end Sys2Proof.Machine
end

section
/-! PROOFS. Where the threads of a sheaf stand after an issue (R66 to R68, R116, R147): what sending a thread, closing the regions
of a sheaf, ending a clause and sweeping do, and that a sheaf whose instruction has taken effect goes on. -/

namespace Sys2Proof.Machine

/-! ### Threads sent to a place -/

/-- A thread that has been sent to a place and a PC. -/
def Thread.sent (p : Place) (pc : Addr) (t : Thread) : Thread := { t with place := p, pc := pc, entered := false }

/-- Where a thread of a group stands, and its PC. -/
def Group.spot (g : Group) (k : Key) : Option (Place × Addr) := (g.find k).map fun t => (t.place, t.pc)

theorem State.spot_eq {s : State} {gi : Nat} {g : Group} (h : s.groups[gi]? = some g) (k : Key) : s.spot gi k = g.spot k := by
  unfold State.spot State.thr
  rw [h]
  rfl

theorem Group.find_send (g : Group) (k j : Key) (p : Place) (pc : Addr) :
    (g.send k p pc).find j = if j = k then (g.find j).map (Thread.sent p pc) else g.find j :=
  g.find_modify k j _ fun _ => rfl

/-- Threads of some keys are sent to one place and PC; the others stay. -/
theorem Group.find_sendAll {α : Type} (key : α → Key) (p : Place) (pc : Addr) (xs : List α) (g : Group) (j : Key) :
    (xs.foldl (fun g x => g.send (key x) p pc) g).find j =
      if j ∈ xs.map key then (g.find j).map (Thread.sent p pc) else g.find j := by
  induction xs generalizing g with
  | nil => simp
  | cons x xs ih =>
    rw [List.foldl_cons, ih, Group.find_send]
    by_cases hx : j = key x
    · subst hx
      simp only [if_true, List.map_cons, List.mem_cons, true_or, Option.map_map]
      split
      · exact congrArg (Option.map · _) rfl
      · rfl
    · rw [if_neg hx]
      simp only [List.map_cons, List.mem_cons, hx, false_or]

/-- A thread that is there and has been sent stands at its place. -/
theorem Group.spot_sendAll {α : Type} (key : α → Key) (p : Place) (pc : Addr) {xs : List α} {g : Group} {j : Key}
    (hj : j ∈ xs.map key) (hg : (g.find j).isSome) :
    (xs.foldl (fun g x => g.send (key x) p pc) g).spot j = some (p, pc) := by
  obtain ⟨t, ht⟩ := Option.isSome_iff_exists.mp hg
  rw [Group.spot, Group.find_sendAll, if_pos hj, ht]
  rfl

theorem Sheaf.mem_leave {k j : Key} {sh : Sheaf} (hj : j ∈ sh.members) (h : j ≠ k) : j ∈ (sh.leave k).members :=
  List.mem_filter.mpr ⟨hj, by simpa using h⟩

/-! ### The threads of a sheaf -/

theorem Group.find_isSome_of_mem {g : Group} {t : Thread} (h : t ∈ g.threads) : (g.find t.key).isSome :=
  List.find?_isSome.mpr ⟨t, h, by simp⟩

/-- A present thread is a member of its sheaf that no region masks, and a thread of the group. -/
theorem Cx.mem_pres {c : Cx} {t : Thread} (h : t ∈ c.pres) :
    t ∈ c.g.threads ∧ t.key ∈ c.sh.members ∧ c.sh.masks t.key = false := by
  obtain ⟨hm, hu⟩ := List.mem_filter.mp h
  obtain ⟨ht, hs⟩ := List.mem_filter.mp ((sortKey_perm _).mem_iff.mp hm)
  rw [Bool.and_eq_true, List.contains_iff_mem] at hs
  exact ⟨ht, hs.1, by simpa using hu⟩

/-- A thread that no region masks has no place to go when regions close. -/
theorem Sheaf.exitPc_none {sh : Sheaf} {k : Key} (h : sh.masks k = false) : sh.exitPc k = none := by
  unfold Sheaf.exitPc
  rw [Option.map_eq_none_iff, List.find?_eq_none]
  intro r hr
  exact List.any_eq_false.mp h r hr

/-! ### Regions close -/

/-- A key is filed into the bin that a function gives, if it gives one. -/
def Group.fileSome (f : Key → Option Addr) (clock : Nat) (g : Group) (k : Key) : Group :=
  match f k with
  | some pc => g.file clock k pc
  | none => g

theorem Group.closeRegions_eq {g : Group} {si : Nat} {sh : Sheaf} (hsh : g.sheaves[si]? = some sh) (clock : Nat) :
    g.closeRegions clock si = { sh.members.foldl (Group.fileSome sh.exitPc clock) g with
      sheaves := modAt (sh.members.foldl (Group.fileSome sh.exitPc clock) g).sheaves si fun x => { x with regions := [] } } := by
  unfold Group.closeRegions
  rw [hsh]
  rfl

/-- Members with a place to go are filed; one without stays, and stays in its sheaf. -/
theorem Group.fileSome_stays {f : Key → Option Addr} {k : Key} (hk : f k = none) (clock si : Nat) (ks : List Key) (g : Group) :
    (ks.foldl (Group.fileSome f clock) g).find k = g.find k
      ∧ ∀ sh, g.sheaves[si]? = some sh → k ∈ sh.members →
        ∃ sh', (ks.foldl (Group.fileSome f clock) g).sheaves[si]? = some sh' ∧ k ∈ sh'.members := by
  induction ks generalizing g with
  | nil => exact ⟨rfl, fun sh hsh hin => ⟨sh, hsh, hin⟩⟩
  | cons x xs ih =>
    rw [List.foldl_cons, Group.fileSome]
    cases hx : f x with
    | none => exact ih g
    | some pc =>
      have hne : k ≠ x := fun e => by rw [e, hx] at hk; cases hk
      obtain ⟨hfind, hin⟩ := ih (g.file clock x pc)
      refine ⟨hfind.trans ?_, fun sh hsh hm => hin (sh.leave x) ?_ (Sheaf.mem_leave hm hne)⟩
      · rw [Group.file, Group.find_send, if_neg hne]
      · show (g.sheaves.map (Sheaf.leave x))[si]? = _
        rw [List.getElem?_map, hsh]
        rfl

/-- A thread that no region masks stays as it is, in its sheaf, when the sheaf's regions close (R116). -/
theorem Group.closeRegions_unmasked {g : Group} {si : Nat} {sh : Sheaf} {k : Key} (hsh : g.sheaves[si]? = some sh)
    (hk : sh.masks k = false) (clock : Nat) :
    (g.closeRegions clock si).find k = g.find k
      ∧ (k ∈ sh.members → ∃ sh', (g.closeRegions clock si).sheaves[si]? = some sh' ∧ k ∈ sh'.members) := by
  obtain ⟨hfind, hin⟩ := Group.fileSome_stays (Sheaf.exitPc_none hk) clock si sh.members g
  rw [Group.closeRegions_eq hsh]
  refine ⟨hfind, fun hm => ?_⟩
  obtain ⟨sh', hsh', hm'⟩ := hin sh hsh hm
  refine ⟨{ sh' with regions := [] }, ?_, hm'⟩
  rw [getElem?_modAt_same, hsh']
  rfl

/-! ### A clause ends -/

/-- The sheaf at the header of a new clause (R66, R147). -/
def Sheaf.passed (clock : Nat) (pc : Addr) (sh : Sheaf) : Sheaf :=
  { sh with pc := pc, inClause := false, idx := 0, drawn := clock, last := clock }

/-- A sheaf that ends its clause keeps its context and stands at the address, or the threads that it has present are filed
(R147). -/
theorem State.fallThrough_stands {s : State} {gi si : Nat} {g : Group} {sh : Sheaf} (hg : s.groups[gi]? = some g)
    (hsh : g.sheaves[si]? = some sh) (pc : Addr) :
    ∃ h, (s.fallThrough gi si pc).groups[gi]? = some h
      ∧ (h.sheaves[si]? = some (sh.passed s.clock pc)
        ∨ ∀ k ∈ sh.members, sh.masks k = false → (g.find k).isSome → h.spot k = some (.bin s.clock, pc)) := by
  unfold State.fallThrough
  rw [hg]
  dsimp only
  split
  · rw [State.setGroup_get, if_pos rfl, hg]
    refine ⟨_, rfl, .inr fun k hk hmask hfind => ?_⟩
    obtain ⟨hsame, hin⟩ := Group.closeRegions_unmasked hsh hmask s.clock
    obtain ⟨sh', hsh', hk'⟩ := hin hk
    dsimp only
    rw [hsh']
    exact Group.spot_sendAll id (.bin s.clock) pc (by simpa using hk') (hsame ▸ hfind)
  · rw [State.setSheaf, State.setGroup_get, if_pos rfl, State.setGroup_get, if_pos rfl, hg]
    refine ⟨_, rfl, .inl ?_⟩
    show (modAt g.sheaves si _)[si]? = _
    rw [getElem?_modAt_same, hsh]
    rfl

/-- A sheaf with a present thread stays as it is when empty sheaves are swept (R116). -/
theorem Group.mem_sweepSheaves {g : Group} {sh : Sheaf} (h : sh ∈ g.sheaves) {k : Key} (hk : k ∈ sh.members)
    (hm : sh.masks k = false) : sh ∈ g.sweepSheaves.sheaves := by
  have hset : Sheaf.settle 9 sh = sh := by
    unfold Sheaf.settle
    rw [if_pos (List.any_eq_true.mpr ⟨k, hk, by simp [hm]⟩)]
  refine List.mem_map.mpr ⟨sh, List.mem_filter.mpr ⟨h, ?_⟩, hset⟩
  rw [Bool.not_eq_true', List.isEmpty_eq_false_iff]
  exact List.ne_nil_of_mem hk

theorem State.tidy_get (s : State) {gi : Nat} {g : Group} (h : s.groups[gi]? = some g) :
    (s.tidy gi).groups[gi]? = some g.sweepSheaves := by
  rw [State.tidy, State.setGroup_get, if_pos rfl, h]
  rfl

/-! ### The issuing sheaf -/

/-- The issuing sheaf stands in a state at the instruction as it was drawn, its present threads in its group. -/
def Cx.Stands (c : Cx) (t : State) : Prop :=
  ∃ g sh, t.groups[c.gi]? = some g ∧ g.sheaves[c.si]? = some sh
    ∧ (sh.members = c.sh.members ∧ sh.regions = c.sh.regions ∧ sh.inClause = c.sh.inClause ∧ sh.idx = c.sh.idx)
    ∧ ∀ th ∈ c.pres, (g.find th.key).isSome

theorem Cx.stands_ready {s : State} {word : Word} {len : Nat} {o : Op} {e : Ext} {c : Cx} (h : s.ready word len o e = some c) :
    c.Stands s := by
  obtain ⟨hg, hsh, -⟩ := State.ready_at h
  exact ⟨c.g, c.sh, hg, hsh, ⟨rfl, rfl, rfl, rfl⟩, fun th hth => Group.find_isSome_of_mem (Cx.mem_pres hth).1⟩

/-- Finding a key does not depend on what else threads hold. -/
theorem Group.find_isSome_map (g : Group) (f : Thread → Thread) (hf : ∀ t, (f t).key = t.key) (k : Key) :
    (({ g with threads := g.threads.map f } : Group).find k).isSome = (g.find k).isSome := by
  unfold Group.find
  rw [List.find?_map, Option.isSome_map]
  exact congrArg (fun p => (List.find? p g.threads).isSome) (funext fun t => by simp [hf])

/-- The sheaf stands where groups are as before but for one that keeps its sheaves and the keys of its threads. -/
theorem Cx.Stands.of_group {c : Cx} {s t : State} (h : c.Stands s)
    (hg : ∀ g, s.groups[c.gi]? = some g → ∃ h, t.groups[c.gi]? = some h ∧ h.sheaves = g.sheaves
      ∧ ∀ k, (h.find k).isSome = (g.find k).isSome) : c.Stands t := by
  obtain ⟨g, sh, hgs, hsh, heq, hth⟩ := h
  obtain ⟨h, hht, hsame, hfind⟩ := hg g hgs
  exact ⟨h, sh, hht, hsame ▸ hsh, heq, fun th hm => (hfind th.key).trans (hth th hm)⟩

theorem Cx.Stands.of_groups {c : Cx} {s t : State} (h : c.Stands s) (hg : t.groups = s.groups) : c.Stands t :=
  h.of_group fun g hgs => ⟨g, hg ▸ hgs, rfl, fun _ => rfl⟩

theorem Cx.Stands.quiet {c : Cx} {s t : State} (h : c.Stands s) (hq : s.Quiet t) : c.Stands t :=
  h.of_group fun g hgs => by
    obtain ⟨h, hht, f, hf, rfl⟩ := hq.group hgs
    exact ⟨_, hht, rfl, fun k => g.find_isSome_map f (fun t => (hf t).key) k⟩

/-- A change of threads that leaves keys, places and PCs leaves where threads stand. -/
theorem Group.spot_map (g : Group) (f : Thread → Thread) (hf : ∀ t, (f t).key = t.key ∧ (f t).place = t.place ∧ (f t).pc = t.pc)
    (k : Key) : ({ g with threads := g.threads.map f } : Group).spot k = g.spot k := by
  unfold Group.spot Group.find
  have hp : ((fun t : Thread => decide (t.key = k)) ∘ f) = fun t => decide (t.key = k) := funext fun t => by simp [(hf t).1]
  rw [List.find?_map, hp, Option.map_map]
  exact congrArg (Option.map · _) (funext fun t => by simp [(hf t).2.1, (hf t).2.2])

theorem Group.find_isSome_of_spot {g h : Group} {k : Key} (hs : h.spot k = g.spot k) : (h.find k).isSome = (g.find k).isSome := by
  have hsome : ∀ x : Group, (x.find k).isSome = (x.spot k).isSome := fun x => by rw [Group.spot, Option.isSome_map]
  rw [hsome, hsome, hs]

/-- The group of an issue that is counted: when its sheaves last issued may change, and where its threads stand does not. -/
theorem State.countIssue_group {s : State} (c : Cx) {g : Group} (hg : s.groups[c.gi]? = some g) :
    ∃ h, (s.countIssue c).groups[c.gi]? = some h
      ∧ (∀ (i : Nat) (sh : Sheaf), g.sheaves[i]? = some sh → ∃ n, h.sheaves[i]? = some { sh with last := n }) ∧ ∀ k, h.spot k = g.spot k := by
  unfold State.countIssue
  dsimp only
  rw [State.setSheaf, State.setGroup_get, if_pos rfl, State.setGroup_get, if_pos rfl, hg]
  refine ⟨_, rfl, fun i sh hi => ?_, fun k => g.spot_map _ (fun t => ?_) k⟩
  · by_cases hlast : c.si = i ∧ sh.members.all c.sh.members.contains = true
    · refine ⟨s.clock, ?_⟩
      dsimp only
      rw [getElem?_modAt, if_pos hlast.1, hi, Option.map_some, if_pos hlast.2]
    · refine ⟨sh.last, ?_⟩
      dsimp only
      rw [getElem?_modAt, hi]
      split
      · next h => rw [Option.map_some, if_neg fun ha => hlast ⟨h, ha⟩]
      · rfl
  · split
    · split
      · split <;> exact ⟨rfl, rfl, rfl⟩
      · exact ⟨rfl, rfl, rfl⟩
    · exact ⟨rfl, rfl, rfl⟩

/-- Counting an issue moves no sheaf. -/
theorem Cx.Stands.countIssue {c : Cx} {s : State} (h : c.Stands s) : c.Stands (s.countIssue c) := by
  obtain ⟨g, sh, hgs, hsh, ⟨hmem, hreg, hin, hidx⟩, hth⟩ := h
  obtain ⟨h, hh, hsheaves, hspot⟩ := State.countIssue_group c hgs
  obtain ⟨n, hn⟩ := hsheaves c.si sh hsh
  exact ⟨h, _, hh, hn, ⟨hmem, hreg, hin, hidx⟩, fun th hm => (Group.find_isSome_of_spot (hspot th.key)).trans (hth th hm)⟩

/-! ### Going on -/

/-- The issuing sheaf stands at an address with its members and regions, or the threads that it had present are filed there. -/
def Cx.Reaches (c : Cx) (s t : State) (pc : Addr) : Prop :=
  ∃ h, t.groups[c.gi]? = some h
    ∧ ((∃ sh ∈ h.sheaves, sh.members = c.sh.members ∧ sh.regions = c.sh.regions ∧ sh.pc = pc ∧ sh.inClause = false)
      ∨ ∀ th ∈ c.pres, h.spot th.key = some (.bin s.clock, pc))

/-- A sheaf that ends its clause reaches the address (R147). -/
theorem Cx.Stands.reaches {c : Cx} {s t : State} (h : c.Stands t) (hclock : t.clock = s.clock) (pc : Addr) :
    c.Reaches s (t.fallThrough c.gi c.si pc) pc := by
  obtain ⟨g, sh, hgs, hsh, ⟨hmem, hreg, -, -⟩, hth⟩ := h
  obtain ⟨h, hh, hstands⟩ := State.fallThrough_stands hgs hsh pc
  refine ⟨h, hh, hstands.imp (fun hp => ?_) fun hp th hm => ?_⟩
  · exact ⟨_, List.mem_of_getElem? hp, hmem, hreg, rfl, rfl⟩
  · obtain ⟨-, hin, hmask⟩ := Cx.mem_pres hm
    rw [← hclock]
    exact hp th.key (hmem ▸ hin) (by unfold Sheaf.masks at hmask ⊢; rw [hreg]; exact hmask) (hth th hm)

/-- Counting an issue leaves where its threads stand. -/
theorem Cx.Reaches.countIssue {c : Cx} {s t : State} {pc : Addr} (h : c.Reaches s t pc) : c.Reaches s (t.countIssue c) pc := by
  obtain ⟨h, hh, hstands⟩ := h
  obtain ⟨h', hh', hsheaves, hspot⟩ := State.countIssue_group c hh
  refine ⟨h', hh', hstands.imp (fun hp => ?_) fun hp th hm => (hspot th.key).trans (hp th hm)⟩
  obtain ⟨sh, hsh, hm, hr, hpc, hin⟩ := hp
  obtain ⟨i, hi⟩ := List.mem_iff_getElem?.mp hsh
  obtain ⟨n, hn⟩ := hsheaves i sh hi
  exact ⟨_, List.mem_of_getElem? hn, hm, hr, hpc, hin⟩

/-- The sheaf, or the threads that it had present, stand there after the empty sheaves are swept. -/
theorem Cx.Reaches.standsAt {c : Cx} {s t : State} {pc : Addr} (h : c.Reaches s t pc) (hpres : c.pres ≠ []) :
    StandsAt s (t.tidy c.gi) c pc := by
  obtain ⟨h, hh, hstands⟩ := h
  obtain ⟨th, hth⟩ := List.exists_mem_of_ne_nil _ hpres
  obtain ⟨-, hmem, hmask⟩ := Cx.mem_pres hth
  rcases hstands with ⟨sh, hsh, hm, hr, hpc, hin⟩ | hall
  · have hstay : sh ∈ h.sweepSheaves.sheaves :=
      Group.mem_sweepSheaves hsh (k := th.key) (hm ▸ hmem) (by unfold Sheaf.masks at hmask ⊢; rw [hr]; exact hmask)
    exact .inl ⟨_, State.tidy_get t hh, sh, hstay, hm, hpc, hin⟩
  · exact .inr fun th hm => (State.spot_eq (State.tidy_get t hh) th.key).trans (hall th hm)

/-- The sheaf stands after a change of it that keeps its members, its regions and its place in the clause. -/
theorem Cx.Stands.setSheaf {c : Cx} {t : State} (h : c.Stands t) (f : Sheaf → Sheaf)
    (hf : ∀ sh, (f sh).members = sh.members ∧ (f sh).regions = sh.regions ∧ (f sh).inClause = sh.inClause ∧ (f sh).idx = sh.idx) :
    c.Stands (t.setSheaf c.gi c.si f) := by
  obtain ⟨g, sh, hgs, hsh, ⟨hmem, hreg, hin, hidx⟩, hth⟩ := h
  obtain ⟨fm, fr, fi, fx⟩ := hf sh
  rw [Cx.Stands, State.setSheaf, State.setGroup_get, if_pos rfl, hgs]
  refine ⟨_, f sh, rfl, ?_, ⟨fm.trans hmem, fr.trans hreg, fi.trans hin, fx.trans hidx⟩, hth⟩
  show (modAt g.sheaves c.si f)[c.si]? = _
  rw [getElem?_modAt_same, hsh]
  rfl

/-- A sheaf that has issued goes on: at the next instruction of its clause, or at the next header (R68). -/
theorem Cx.Stands.advance {c : Cx} {s t : State} (h : c.Stands t) (hclock : t.clock = s.clock) (hpres : c.pres ≠ []) :
    GoesOn s ((t.advance c).tidy c.gi) c := by
  unfold GoesOn State.advance
  dsimp only
  split
  · obtain ⟨g, sh, hgs, hsh, ⟨hmem, hreg, hin, hidx⟩, hth⟩ := h
    obtain ⟨g', hg', hsh'⟩ := State.setSheaf_get (f := fun sh => { sh with
      pc := c.sh.pc + 4 * BitVec.ofNat 64 c.len, idx := sh.idx + 1, hold := .free, acted := [] }) hgs hsh
    obtain ⟨th, hm⟩ := List.exists_mem_of_ne_nil _ hpres
    obtain ⟨-, hk, hmask⟩ := Cx.mem_pres hm
    refine ⟨_, State.tidy_get _ hg', _, Group.mem_sweepSheaves (List.mem_of_getElem? hsh') (k := th.key) ?_ ?_, hmem, rfl, hin, ?_⟩
    · exact hmem ▸ hk
    · unfold Sheaf.masks at hmask ⊢
      rw [hreg]
      exact hmask
    · exact congrArg (· + 1) hidx
  · exact (h.setSheaf (fun sh => { sh with hold := .free, acted := [] }) fun sh => ⟨rfl, rfl, rfl, rfl⟩).reaches hclock _ |>.standsAt hpres

/-- `StandsAt` and `GoesOn` read the groups alone. -/
theorem StandsAt.of_groups {s t u : State} {c : Cx} {pc : Addr} (h : StandsAt s t c pc) (hg : u.groups = t.groups) :
    StandsAt s u c pc := by
  unfold StandsAt State.spot State.thr at h ⊢
  rw [hg]
  exact h

theorem GoesOn.of_groups {s t u : State} {c : Cx} (h : GoesOn s t c) (hg : u.groups = t.groups) : GoesOn s u c := by
  unfold GoesOn at h ⊢
  split
  · next hi =>
    rw [if_pos hi] at h
    rw [hg]
    exact h
  · next hi =>
    rw [if_neg hi] at h
    exact h.of_groups hg

/-- AN INSTRUCTION THAT HAS TAKEN EFFECT: its sheaf goes on. -/
theorem Cx.Stands.goesOn {c : Cx} {s s' : State} (h : c.Stands s') (hclock : s'.clock = s.clock) (hpres : c.pres ≠ []) :
    GoesOn s ((Act.done s').outcome c s) c :=
  (h.countIssue.advance (s := s) (s'.countIssue_clock c ▸ hclock) hpres).of_groups (State.mark_groups _ c)

end Sys2Proof.Machine
end

section
/-! PROOFS. BRA .u (R114). -/

namespace Sys2Proof.Machine

theorem exec_braU {e : Ext} {s : State} {c : Cx} (h : s.readyE .braU e = some c) :
    exec (.braU e) s = .next ((braUBody c s).outcome c s) := issueE_ready braUBody h

/-- An instruction that has ended its clause at an address: its sheaf stands there. -/
theorem Cx.Reaches.moved {c : Cx} {s s' : State} {pc : Addr} (h : c.Reaches s s' pc) (hpres : c.pres ≠ []) :
    StandsAt s ((Act.moved s').outcome c s) c pc :=
  (h.countIssue.standsAt hpres).of_groups (State.mark_groups _ c)

/-- Settles O20, by how many of the present threads take. -/
theorem branchUniform : Obligations.BranchUniform := by
  unfold Obligations.BranchUniform
  intro e s c hc hpres
  have hstands : c.Stands s := Cx.stands_ready hc
  have hsome : c.act.length = c.pres.length → c.act ≠ [] := fun h he => hpres (List.length_eq_zero_iff.mp (by rw [← h, he]; rfl))
  refine ⟨fun hall => ⟨_, exec_braU hc, ?_⟩, fun hnone => ⟨_, exec_braU hc, ?_⟩, fun hact hne => ?_⟩
  · rw [braUBody, if_neg (by simpa using hsome hall), if_pos hall]
    exact (hstands.reaches rfl c.target).moved hpres
  · rw [braUBody, if_pos (by simpa using hnone)]
    exact hstands.goesOn rfl hpres
  · rw [exec_braU hc, braUBody, if_neg (by simpa using hact), if_neg hne]
    rfl

end Sys2Proof.Machine
end

section
/-! PROOFS. What closing an instruction leaves of the device, and what reads through the caches leave of memory (R66 to R68, R159,
R160, R168, R188). -/

namespace Sys2Proof.Machine

/-! ### Closing an instruction -/

/-- A state that differs in its groups, its clusters and the number of the step alone. -/
def State.GroupsOnly (s t : State) : Prop := ∃ gs cl n, t = { s with groups := gs, clusters := cl, nonce := n }

theorem State.GroupsOnly.trans {s t u : State} (h : s.GroupsOnly t) (h' : t.GroupsOnly u) : s.GroupsOnly u := by
  obtain ⟨_, _, _, rfl⟩ := h
  obtain ⟨gs, cl, n, rfl⟩ := h'
  exact ⟨gs, cl, n, rfl⟩

theorem State.fallThrough_groupsOnly (s : State) (gi si : Nat) (pc : Addr) : s.GroupsOnly (s.fallThrough gi si pc) := by
  unfold State.fallThrough
  split
  · exact ⟨s.groups, s.clusters, s.nonce, rfl⟩
  · split <;> exact ⟨_, s.clusters, s.nonce, rfl⟩

theorem State.advance_groupsOnly (s : State) (c : Cx) : s.GroupsOnly (s.advance c) := by
  unfold State.advance
  dsimp only
  split
  · exact ⟨_, s.clusters, s.nonce, rfl⟩
  · exact .trans ⟨_, s.clusters, s.nonce, rfl⟩ (State.fallThrough_groupsOnly _ _ _ _)

/-- An instruction that has taken effect changes no more of the device. -/
theorem Act.outcome_done_groupsOnly (c : Cx) (s s' : State) : s'.GroupsOnly ((Act.done s').outcome c s) := by
  have counted : s'.GroupsOnly (s'.countIssue c) := ⟨_, _, s'.nonce, rfl⟩
  have advanced := counted.trans ((s'.countIssue c).advance_groupsOnly c)
  exact advanced.trans ⟨_, _, _, rfl⟩

/-! ### What groups hold beside threads, sheaves and registers -/

/-- The rests of all groups. -/
def State.rests (s : State) : List Group := s.groups.map Group.rest

theorem State.setGroup_rests (s : State) (i : Nat) (f : Group → Group) (hf : ∀ g, (f g).rest = g.rest) :
    (s.setGroup i f).rests = s.rests := map_modAt_of Group.rest f hf s.groups i

theorem Group.rest_foldl {α : Type} (f : Group → α → Group) (hf : ∀ g x, (f g x).rest = g.rest) (xs : List α) (g : Group) :
    (xs.foldl f g).rest = g.rest := by
  induction xs generalizing g with
  | nil => rfl
  | cons x xs ih => rw [List.foldl_cons, ih, hf]

theorem Group.closeRegions_rest (g : Group) (clock si : Nat) : (g.closeRegions clock si).rest = g.rest := by
  unfold Group.closeRegions
  split
  · rfl
  · next sh _ => exact Group.rest_foldl _ (fun g k => by split <;> rfl) sh.members g

theorem State.setSheaf_rests (s : State) (gi si : Nat) (f : Sheaf → Sheaf) : (s.setSheaf gi si f).rests = s.rests :=
  s.setGroup_rests gi _ fun _ => rfl

theorem State.fallThrough_rests (s : State) (gi si : Nat) (pc : Addr) : (s.fallThrough gi si pc).rests = s.rests := by
  unfold State.fallThrough
  split
  · rfl
  · split
    · refine s.setGroup_rests gi _ fun g => ?_
      dsimp only
      split
      · exact g.closeRegions_rest _ _
      · refine Eq.trans ?_ (g.closeRegions_rest s.clock si)
        exact Group.rest_foldl (fun g k => g.file s.clock k pc) (fun _ _ => rfl) _ _
    · refine (State.setSheaf_rests _ gi si _).trans ?_
      exact s.setGroup_rests gi _ fun _ => rfl

theorem State.advance_rests (s : State) (c : Cx) : (s.advance c).rests = s.rests := by
  unfold State.advance
  dsimp only
  split
  · exact s.setSheaf_rests _ _ _
  · exact (State.fallThrough_rests _ _ _ _).trans (s.setSheaf_rests _ _ _)

theorem State.countIssue_rests (s : State) (c : Cx) : (s.countIssue c).rests = s.rests := by
  unfold State.countIssue
  refine (State.setSheaf_rests _ c.gi c.si _).trans ?_
  exact State.setGroup_rests _ c.gi _ fun _ => rfl

theorem Act.outcome_done_rests (c : Cx) (s s' : State) : ((Act.done s').outcome c s).rests = s'.rests := by
  have tidied : (((s'.countIssue c).advance c).tidy c.gi).rests = ((s'.countIssue c).advance c).rests :=
    State.setGroup_rests _ c.gi _ fun _ => rfl
  exact tidied.trans ((State.advance_rests _ c).trans (s'.countIssue_rests c))

/-- AN INSTRUCTION WITHOUT AN EFFECT OF ITS OWN on registers or groups writes nothing. -/
theorem OnlyWrites.of_done {c : Cx} {s s' : State} (hs : { s with icache := s'.icache, hier := s'.hier } = s') :
    OnlyWrites { s with icache := s'.icache, hier := s'.hier } ((Act.done s').outcome c s) c (fun _ _ => [])
      ∧ SameDraws s ((Act.done s').outcome c s) := by
  have hcores : ((Act.done s').outcome c s).cores = s'.cores := Act.outcome_done_cores c s s'
  have hthr : ∀ gi k, s'.thr gi k = s.thr gi k := fun gi k => by rw [← hs]; rfl
  rw [hs]
  refine ⟨⟨fun gi k r _ => State.reg_of_cores hcores gi k r, fun gi k i _ => ?_, fun gi k => ?_, ?_, ?_⟩, fun gi k => ?_⟩
  · exact State.thr_map_of_cores hcores gi k _ fun _ => rfl
  · exact State.thr_map_of_cores hcores gi k _ fun _ => rfl
  · exact Act.outcome_done_rests c s s'
  · obtain ⟨gs, cl, n, h⟩ := Act.outcome_done_groupsOnly c s s'
    rw [h]
    exact ⟨rfl, rfl, rfl, rfl, rfl, rfl, rfl, rfl, rfl, rfl, rfl, rfl⟩
  · rw [← hthr]
    exact State.thr_map_of_cores hcores gi k _ fun _ => rfl

/-! ### Bytes under reads -/

/-- Memory is in order after a step, and every byte reads as before. -/
def State.SameBytes (s t : State) : Prop := t.MemOk ∧ ∀ a, t.byte a = s.byte a

theorem State.SameBytes.trans {s t u : State} (h : s.SameBytes t) (h' : t.SameBytes u) : s.SameBytes u :=
  ⟨h'.1, fun a => (h'.2 a).trans (h.2 a)⟩

theorem State.SameBytes.of_eq {s t : State} (hs : s.MemOk) (hm : t.ms.mem = s.ms.mem) (hp : t.ms.partials = s.ms.partials) :
    s.SameBytes t := ⟨by unfold State.MemOk at hs ⊢; rw [hm, hp]; exact hs, State.byte_pins hm hp⟩

theorem State.SameBytes.of_keeps {s t : State} (hs : s.MemOk) (h : s.Keeps t) : s.SameBytes t := by
  obtain ⟨hm, hp, -, -⟩ := h
  exact .of_eq hs hm hp

theorem State.SameBytes.foldl {α : Type} {f : State → α → State} (hf : ∀ (u : State) x, u.MemOk → u.SameBytes (f u x)) (xs : List α)
    {s : State} (hs : s.MemOk) : s.SameBytes (xs.foldl f s) := by
  induction xs generalizing s with
  | nil => exact ⟨hs, fun _ => rfl⟩
  | cons x xs ih => exact (hf s x hs).trans (ih (hf s x hs).1)

theorem State.atReplica_keeps (s : State) (cl vf arena pa : Nat) : s.Keeps (s.atReplica cl vf arena pa) := by
  unfold State.atReplica
  split
  · exact s.atHome_keeps _ _ _ _
  · split
    · exact .refl s
    · have counted : s.Keeps (s.countShared vf 0x101 1) := ⟨rfl, rfl, rfl, rfl⟩
      exact (counted.trans (State.atHome_keeps _ _ _ _ _)).trans (State.fillSlice_keeps _ _ _ _ _ _)

/-- A line that may leave its set takes no pin with it: a byte that waits in partials is combined first (R161, R188). -/
theorem State.evictLine_bytes {s : State} {c : CLine} (h : c.kind ≠ .held) (hs : s.MemOk) : s.SameBytes (s.evictLine c) := by
  have out : s.SameBytes (match c.kind with
      | .clean => s
      | .held => s.endPins fun p => p.cl = c.cl && p.line = c.line
      | .update => s.recall c.line) := by
    split
    · exact ⟨hs, fun _ => rfl⟩
    · next hk => exact absurd hk h
    · exact ⟨State.recall_memOk _ hs, fun a => State.recall_byte _ a hs⟩
  unfold State.evictLine
  exact out.trans (.of_eq out.1 rfl rfl)

theorem State.fillLine_bytes {s : State} (cl vf arena line : Nat) (kind : LineKind) (hs : s.MemOk) :
    s.SameBytes (s.fillLine cl vf arena line kind) := by
  have room : s.SameBytes (match s.freeWay cl (cacheSet line) with
      | some _ => s
      | none => match s.cachePrey cl (cacheSet line) with
        | some c => s.evictLine c
        | none => s) := by
    split
    · exact ⟨hs, fun _ => rfl⟩
    · split
      · next hc => exact State.evictLine_bytes (State.mayLeave_kind (State.cachePrey_mayLeave hc)) hs
      · exact ⟨hs, fun _ => rfl⟩
  unfold State.fillLine
  dsimp only
  split
  · exact room
  · exact room.trans (.of_eq room.1 rfl rfl)

theorem State.readLine_bytes {s : State} (cl vf arena pa : Nat) (home : Bool) (hs : s.MemOk) :
    s.SameBytes (s.readLine cl vf arena pa home) := by
  have fetch : ∀ u : State, u.MemOk →
      u.SameBytes (if (u.vf vf).sealPassed arena then u.atReplica cl vf arena pa else u.atHome vf arena pa false) := fun u hu => by
    split
    · exact .of_keeps hu (u.atReplica_keeps _ _ _ _)
    · exact .of_keeps hu (u.atHome_keeps _ _ _ _)
  have counted : s.SameBytes (s.count cl 6 1) := .of_eq hs rfl rfl
  unfold State.readLine
  dsimp only
  split
  · split
    · exact ⟨hs, fun _ => rfl⟩
    · exact fetch s hs
  · have fetched := counted.trans (fetch _ counted.1)
    exact fetched.trans (State.fillLine_bytes _ _ _ _ _ fetched.1)

theorem State.retain_bytes {s : State} (cl vf pa hint : Nat) (hs : s.MemOk) : s.SameBytes (s.retain cl vf pa hint) := by
  unfold State.retain
  split
  · exact .of_eq hs rfl rfl
  · exact ⟨hs, fun _ => rfl⟩

end Sys2Proof.Machine
end

section
/-! PROOFS. NOP, PREF, ICINV and YIELD (R118, R122, R136). -/

namespace Sys2Proof.Machine

/-! ### NOP and ICINV -/

theorem exec_nop {e : Ext} {s : State} {c : Cx} (h : s.readyE .nop e = some c) :
    exec (.nop e) s = .next ((Act.done s).outcome c s) := issueE_ready (fun _ s => .done s) h

theorem nop_completes {e : Ext} {s : State} {c : Cx} (h : s.readyE .nop e = some c) (hpres : c.pres ≠ []) :
    ∃ t, exec (.nop e) s = .next t ∧ OnlyWrites s t c (fun _ _ => []) ∧ SameDraws s t ∧ GoesOn s t c := by
  obtain ⟨honly, hdraws⟩ := OnlyWrites.of_done (c := c) (s := s) (s' := s) rfl
  exact ⟨_, exec_nop h, honly, hdraws, (Cx.stands_ready h).goesOn rfl hpres⟩

theorem exec_icinv {e : Ext} {s : State} {c : Cx} (h : s.readyE .icinv e = some c) :
    exec (.icinv e) s = .next ((icinvBody c s).outcome c s) := issueE_ready icinvBody h

/-- ICINV without an access to another chip to wait for takes effect: on no word where no guard is true. -/
theorem icinvBody_done {c : Cx} {s : State} (h : ∀ r ∈ s.fab.reqs, r.group = c.g.uid → r.cls = 1 → ∀ th ∈ c.act, th.key ≠ r.key) :
    icinvBody c s = .done (if c.act.isEmpty then s else s.dropCode c.g.cl) := by
  unfold icinvBody
  split
  · rfl
  · rw [if_neg]
    simp only [List.any_eq_true, Bool.and_eq_true, decide_eq_true_eq, not_exists, not_and]
    exact fun r hr ⟨hg, hcls⟩ th hth => h r hr hg hcls th hth

theorem State.mem_dropCode {s : State} {cl : Nat} {x : CodeWord} : x ∈ (s.dropCode cl).icache ↔ x ∈ s.icache ∧ x.cl ≠ cl := by
  simp [State.dropCode]

/-- A cluster that holds no word fetches every one from memory (R122). -/
theorem State.codeWord_fetched {s : State} {cl : Nat} (h : ∀ x ∈ s.icache, x.cl ≠ cl) (vf pa : Nat) :
    s.codeWord cl vf pa = BitVec.ofNat 32 (leNat (Memory.readN (s.memAt (pa / 128)) pa 4)) := by
  have hnone : (s.icache.find? fun x => x.cl = cl && x.vf = vf && x.pa = pa && !(s.vf vf).staleAt x.arena) = none :=
    List.find?_eq_none.mpr fun x hx => by simp [h x hx]
  unfold State.codeWord
  rw [hnone]

theorem icinv_completes {e : Ext} {s : State} {c : Cx} (h : s.readyE .icinv e = some c) (hpres : c.pres ≠ [])
    (hwait : ∀ r ∈ s.fab.reqs, r.group = c.g.uid → r.cls = 1 → ∀ th ∈ c.act, th.key ≠ r.key) :
    ∃ t, exec (.icinv e) s = .next t ∧ OnlyWrites { s with icache := t.icache, hier := t.hier } t c (fun _ _ => [])
      ∧ SameDraws s t ∧ GoesOn s t c ∧ (c.act = [] → t.icache = s.icache ∧ t.hier = s.hier)
      ∧ (c.act ≠ [] → (∀ x, x ∈ t.icache ↔ x ∈ s.icache ∧ x.cl ≠ c.g.cl)
        ∧ ∀ vf pa, t.codeWord c.g.cl vf pa = BitVec.ofNat 32 (leNat (Memory.readN (t.memAt (pa / 128)) pa 4))) := by
  generalize hs' : (if c.act.isEmpty then s else s.dropCode c.g.cl) = s'
  have hrest : { s with icache := s'.icache, hier := s'.hier } = s' := by
    rw [← hs']
    split <;> rfl
  have hstands : c.Stands s' := (Cx.stands_ready h).of_groups (by rw [← hrest])
  obtain ⟨gs, cl, n, hout⟩ := Act.outcome_done_groupsOnly c s s'
  have hicache : ((Act.done s').outcome c s).icache = s'.icache := by rw [hout]
  have hhier : ((Act.done s').outcome c s).hier = s'.hier := by rw [hout]
  obtain ⟨honly, hdraws⟩ := OnlyWrites.of_done (c := c) hrest
  refine ⟨_, by rw [exec_icinv h, icinvBody_done hwait, hs'], ?_, hdraws, hstands.goesOn (by rw [← hrest]) hpres, fun hact => ?_,
    fun hact => ?_⟩
  · rw [hicache, hhier]
    exact honly
  · rw [hicache, hhier, ← hs', if_pos (by simpa using hact)]
    exact ⟨rfl, rfl⟩
  · have hdrop : s' = s.dropCode c.g.cl := by rw [← hs', if_neg (by simpa using hact)]
    have hmem : ∀ x, x ∈ ((Act.done s').outcome c s).icache ↔ x ∈ s.icache ∧ x.cl ≠ c.g.cl := fun x => by
      rw [hicache, hdrop, State.mem_dropCode]
    exact ⟨hmem, fun vf pa => State.codeWord_fetched (fun x hx => ((hmem x).mp hx).2) vf pa⟩

/-! ### PREF -/

theorem exec_pref {e : Ext} {s : State} {c : Cx} (h : s.readyE .pref e = some c) :
    exec (.pref e) s = .next ((prefBody c s).outcome c s) := issueE_ready prefBody h

/-- One prefetch brings a line into the cluster cache, or into its home slice alone (R136). -/
def State.prefetch (c : Cx) (s : State) (x : Nat × Nat) : State :=
  if c.nofill then s.atHome c.g.vf x.2 x.1 false
  else (s.readLine c.g.cl c.g.vf x.2 x.1 false).retain c.g.cl c.g.vf x.1 c.hint

theorem State.prefetch_quiet (c : Cx) (s : State) (x : Nat × Nat) : s.Quiet (s.prefetch c x) := by
  unfold State.prefetch
  split
  · exact s.atHome_quiet _ _ _ _
  · exact (s.readLine_quiet _ _ _ _ _).trans (State.retain_quiet _ _ _ _ _)

theorem State.prefetch_bytes (c : Cx) (s : State) (x : Nat × Nat) (hs : s.MemOk) : s.SameBytes (s.prefetch c x) := by
  unfold State.prefetch
  split
  · exact .of_keeps hs (s.atHome_keeps _ _ _ _)
  · have read := State.readLine_bytes c.g.cl c.g.vf x.2 x.1 false hs
    exact read.trans (State.retain_bytes _ _ _ _ read.1)

/-- Noting a refusal changes the list of refusals alone (R186). -/
theorem MemSide.noteRefused_eq (m : MemSide) (line who : Nat) (k : Key) : ∃ l, m.noteRefused line who k = { m with refused := l } := by
  unfold MemSide.noteRefused
  split
  · exact ⟨m.refused, rfl⟩
  · exact ⟨_, rfl⟩

/-- A refused access changes that list and a counter. -/
theorem State.refuse_eq (s : State) (c : Cx) (line : Nat) :
    ∃ l cl, s.refuse c line = { s with ms := { s.ms with refused := l }, clusters := cl } := by
  unfold State.refuse
  split
  · exact ⟨s.ms.refused, s.clusters, rfl⟩
  · obtain ⟨l, hl⟩ := s.ms.noteRefused_eq line c.g.uid c.who
    rw [hl]
    exact ⟨l, _, rfl⟩

/-- What PREF comes to: it has moved lines, or it stays refused. -/
def Cx.prefetched (c : Cx) (s : State) : State :=
  (c.act.filterMap (s.prefPlace c)).foldl (State.prefetch c) { s with ms := s.ms.served c.g.uid c.who }

theorem prefBody_done {c : Cx} {s : State} (h : ∀ x ∈ c.act.filterMap (s.prefPlace c), c.refused s x.1 = false) :
    prefBody c s = .done (c.prefetched s) := by
  have hnone : ((c.act.filterMap (s.prefPlace c)).find? fun x => c.refused s x.1) = none :=
    List.find?_eq_none.mpr fun x hx => by simp [h x hx]
  unfold prefBody
  dsimp only
  rw [hnone]
  rfl

theorem prefBody_cases (c : Cx) (s : State) :
    prefBody c s = .done (c.prefetched s)
      ∨ ∃ x ∈ c.act.filterMap (s.prefPlace c), c.refused s x.1 = true ∧ prefBody c s = .stay (s.refuse c (x.1 / 128)) := by
  by_cases h : ∀ x ∈ c.act.filterMap (s.prefPlace c), c.refused s x.1 = false
  · exact .inl (prefBody_done h)
  · unfold prefBody
    dsimp only
    cases hfind : (c.act.filterMap (s.prefPlace c)).find? fun x => c.refused s x.1 with
    | none => exact absurd (fun x hx => by simpa using List.find?_eq_none.mp hfind x hx) h
    | some x => exact .inr ⟨x, List.mem_of_find?_eq_some hfind, by simpa using List.find?_some hfind, rfl⟩

theorem Cx.prefetched_quiet (c : Cx) (s : State) : s.Quiet (c.prefetched s) := by
  refine .trans (t := { s with ms := s.ms.served c.g.uid c.who }) (.of_eq rfl rfl rfl rfl rfl rfl) ?_
  exact .foldl (State.prefetch_quiet c) _ _

theorem Cx.prefetched_bytes {c : Cx} {s : State} (hs : s.MemOk) : s.SameBytes (c.prefetched s) := by
  have served : s.SameBytes { s with ms := s.ms.served c.g.uid c.who } := .of_eq hs rfl rfl
  exact served.trans (.foldl (State.prefetch_bytes c) _ served.1)

/-- What reads through the caches leave, as PREF promises it. -/
theorem State.Quiet.leaves {s t u : State} (h : s.Quiet u) (hb : s.SameBytes u) (hcores : t.cores = u.cores) (hms : t.ms = u.ms)
    (htasks : t.tasks = u.tasks) {gi : Nat} {g : Group} (hg : s.groups[gi]? = some g) :
    SameRegs s t ∧ (∀ a, t.byte a = s.byte a) ∧ SameDraws s t ∧ t.groupAt gi Group.outs = some g.outs ∧ t.ms.tlb = s.ms.tlb
      ∧ t.ms.walks = s.ms.walks ∧ t.ms.pins = s.ms.pins ∧ t.tasks = s.tasks := by
  have hall : t.cores = s.cores := hcores.trans h.cores
  refine ⟨.of_cores hall, fun a => (State.byte_congr hms a).trans (hb.2 a), fun gi k => ?_, ?_, ?_, ?_, ?_, htasks.trans h.tasks⟩
  · exact State.thr_map_of_cores hall gi k _ fun _ => rfl
  · obtain ⟨g', hg', hcore⟩ := State.group_of_cores hall hg
    have houts : g'.core.outs = g.core.outs := by rw [hcore]
    rw [State.groupAt, hg']
    exact congrArg some houts
  · rw [hms, h.tlb]
  · rw [hms, h.walks]
  · rw [hms, h.pins]

theorem pref_completes {e : Ext} {s : State} {c : Cx} (h : s.readyE .pref e = some c) (hpres : c.pres ≠ []) (hs : s.MemOk) :
    ∃ t, exec (.pref e) s = .next t ∧ SameRegs s t ∧ (∀ a, t.byte a = s.byte a) ∧ SameDraws s t
      ∧ ((∀ x ∈ c.act.filterMap (s.prefPlace c), c.refused s x.1 = false) → GoesOn s t c)
      ∧ t.groupAt c.gi Group.outs = some c.g.outs ∧ t.ms.tlb = s.ms.tlb ∧ t.ms.walks = s.ms.walks ∧ t.ms.pins = s.ms.pins
      ∧ t.tasks = s.tasks := by
  obtain ⟨hg, -⟩ := State.ready_at h
  rcases prefBody_cases c s with hdone | ⟨x, hx, hrefused, hstay⟩
  · have quiet := c.prefetched_quiet s
    obtain ⟨gs, cl, n, hout⟩ := Act.outcome_done_groupsOnly c s (c.prefetched s)
    obtain ⟨hregs, hbytes, hdraws, hrest⟩ := quiet.leaves (Cx.prefetched_bytes hs) (Act.outcome_done_cores c s _)
      (Act.outcome_done_ms c s _) (by rw [hout]) hg
    exact ⟨_, by rw [exec_pref h, hdone], hregs, hbytes, hdraws,
      fun _ => ((Cx.stands_ready h).quiet quiet).goesOn quiet.clock hpres, hrest⟩
  · obtain ⟨l, cl, heq⟩ := s.refuse_eq c (x.1 / 128)
    have quiet : s.Quiet (s.refuse c (x.1 / 128)) := by rw [heq]; exact .of_eq rfl rfl rfl rfl rfl rfl
    have bytes : s.SameBytes (s.refuse c (x.1 / 128)) := by rw [heq]; exact .of_eq hs rfl rfl
    obtain ⟨hregs, hbytes, hdraws, hrest⟩ := quiet.leaves bytes rfl rfl rfl hg
    exact ⟨s.refuse c (x.1 / 128), by rw [exec_pref h, hstay]; rfl, hregs, hbytes, hdraws,
      fun hno => absurd (hno x hx) (by simp [hrefused]), hrest⟩

/-! ### YIELD -/

theorem exec_yield {e : Ext} {s : State} {c : Cx} (h : s.readyE .yield e = some c) :
    exec (.yield e) s = .next ((yieldBody c s).outcome c s) := issueE_ready yieldBody h

/-- Where a thread stands after an instruction that has placed its threads. -/
theorem Act.spot_moved {c : Cx} {s s' : State} {g : Group} (hg : s'.groups[c.gi]? = some g) (k : Key) :
    ((Act.moved s').outcome c s).spot c.gi k = g.spot k := by
  obtain ⟨h, hh, -, hspot⟩ := State.countIssue_group c hg
  have hat : ((Act.moved s').outcome c s).groups[c.gi]? = some h.sweepSheaves := State.tidy_get _ hh
  exact (State.spot_eq hat k).trans (hspot k)

/-- Every present thread of the issuing sheaf is sent to one place, its regions closed first (R115, R116, R118). -/
theorem Cx.spot_sendPres {s : State} {word : Word} {len : Nat} {o : Op} {e : Ext} {c : Cx} (h : s.ready word len o e = some c)
    (p : Place) (pc : Addr) {th : Thread} (hth : th ∈ c.pres) :
    ((Act.moved ((s.closeAt c).setGroup c.gi fun g => c.pres.foldl (fun g t => g.send t.key p pc) g)).outcome c s).spot c.gi th.key
      = some (p, pc) := by
  obtain ⟨hg, hsh, -⟩ := State.ready_at h
  obtain ⟨hmem, -, hmask⟩ := Cx.mem_pres hth
  obtain ⟨hfind, -⟩ := Group.closeRegions_unmasked hsh hmask s.clock
  have hclosed : (s.closeAt c).groups[c.gi]? = some (c.g.closeRegions s.clock c.si) := by
    rw [State.closeAt, State.setGroup_get, if_pos rfl, hg]
    rfl
  refine (Act.spot_moved (g := c.pres.foldl (fun g t => g.send t.key p pc) (c.g.closeRegions s.clock c.si)) ?_ _).trans ?_
  · rw [State.setGroup_get, if_pos rfl, hclosed]
    rfl
  · exact Group.spot_sendAll Thread.key p pc (List.mem_map_of_mem hth) (hfind ▸ Group.find_isSome_of_mem hmem)

end Sys2Proof.Machine
end

section
/-! PROOFS. EXIT (R25, R119, R207), and with it the rest of HintsYieldAndExit. -/

namespace Sys2Proof.Machine

/-! ### Threads that have exited -/

/-- The thread of a key is there, and where `out` says so it has exited. -/
def Group.Exited (g : Group) (k : Key) (out : Bool := true) : Prop := ∃ t, g.find k = some t ∧ (out = true → t.place = .exited)

theorem Group.Exited.map {g : Group} {k : Key} {out : Bool} (h : g.Exited k out) (f : Thread → Thread)
    (hf : ∀ t, (f t).key = t.key ∧ (t.place = .exited → (f t).place = .exited)) :
    ({ g with threads := g.threads.map f } : Group).Exited k out := by
  obtain ⟨t, ht, hp⟩ := h
  have hkey : ((fun t : Thread => decide (t.key = k)) ∘ f) = fun t => decide (t.key = k) := funext fun t => by simp [(hf t).1]
  refine ⟨f t, ?_, fun ho => (hf t).2 (hp ho)⟩
  unfold Group.find at ht ⊢
  rw [List.find?_map, hkey, ht]
  rfl

theorem Group.Exited.of_threads {g h : Group} {k : Key} {out : Bool} (hg : g.Exited k out) (ht : h.threads = g.threads) :
    h.Exited k out := by
  unfold Group.Exited Group.find at hg ⊢
  rw [ht]
  exact hg

theorem Group.Exited.foldl {α : Type} {f : Group → α → Group} {k : Key} {out : Bool}
    (hf : ∀ g x, Group.Exited g k out → Group.Exited (f g x) k out) (xs : List α) {g : Group} (hg : g.Exited k out) :
    (xs.foldl f g).Exited k out := by
  induction xs generalizing g with
  | nil => exact hg
  | cons x xs ih => exact ih (hf g x hg)

/-- A barrier releases threads that it holds, and no other (R206). -/
theorem Thread.release_free {b phase clock : Nat} {t : Thread} (h : t.heldSite = none) : t.release b phase clock = t := by
  unfold Thread.release
  split
  · next hp => simp [Thread.heldSite, hp] at h
  · rfl

theorem Thread.release_key (b phase clock : Nat) (t : Thread) : (t.release b phase clock).key = t.key := by
  unfold Thread.release
  split
  · split <;> rfl
  · rfl

/-! ### What settling a barrier leaves (R206, R207) -/

/-- The counts of a group's barriers, each with whether it took the default. -/
def Group.counts (g : Group) : List (Nat × Bool) := g.bars.map fun b => (b.c, b.dflt)

theorem Group.setBar_counts (g : Group) (b : Nat) (f : Bar → Bar) (hf : ∀ x, (f x).c = x.c ∧ (f x).dflt = x.dflt) :
    (g.setBar b f).counts = g.counts :=
  map_modAt_of _ f (fun x => Prod.ext (hf x).1 (hf x).2) g.bars b

theorem Group.settle_keeps (fuel : Nat) (g : Group) (clock b : Nat) :
    (Group.settle fuel g clock b).counts = g.counts ∧ (Group.settle fuel g clock b).sheaves = g.sheaves
      ∧ ∀ k out, g.Exited k out → (Group.settle fuel g clock b).Exited k out := by
  induction fuel generalizing g with
  | zero => exact ⟨rfl, rfl, fun _ _ h => h⟩
  | succ fuel ih =>
    have completed : (g.complete clock b).counts = g.counts ∧ ∀ k out, g.Exited k out → (g.complete clock b).Exited k out := by
      refine ⟨g.setBar_counts b _ fun x => ⟨rfl, rfl⟩, fun k out h => ?_⟩
      refine Group.Exited.map (g := g.setBar b _) (h.of_threads rfl) _ fun t => ⟨Thread.release_key _ _ _ t, fun hp => ?_⟩
      rw [Thread.release_free (by simp [Thread.heldSite, hp]), hp]
    unfold Group.settle
    dsimp only
    split
    · split
      · exact ⟨g.setBar_counts b _ fun x => ⟨rfl, rfl⟩, rfl, fun k out h => h.of_threads rfl⟩
      · obtain ⟨hc, hs, he⟩ := ih (g.complete clock b)
        exact ⟨hc.trans completed.1, hs, fun k out h => he k out (completed.2 k out h)⟩
    · exact ⟨rfl, rfl, fun _ _ h => h⟩

/-- One arrival fewer where the default was taken (R207). -/
def lowered (x : Nat × Bool) : Nat × Bool := if x.2 then (x.1 - 1, x.2) else x

/-- The step of an exit at one barrier. -/
def Group.lowerBar (clock : Nat) (g : Group) (b : Nat) : Group :=
  if (g.bar b).dflt then (g.setBar b fun x => { x with c := x.c - 1 }).settleBar clock b else g

theorem Group.lowerBar_exited {g : Group} {k : Key} {out : Bool} (clock b : Nat) (h : g.Exited k out) :
    (g.lowerBar clock b).Exited k out := by
  unfold Group.lowerBar
  split
  · exact (Group.settle_keeps _ _ clock b).2.2 k out (h.of_threads rfl)
  · exact h

theorem Group.lowerBar_sheaves (g : Group) (clock b : Nat) : (g.lowerBar clock b).sheaves = g.sheaves := by
  unfold Group.lowerBar
  split
  · exact (Group.settle_keeps _ _ clock b).2.1
  · rfl

theorem Group.bar_eq {g : Group} {b : Nat} {x : Bar} (h : g.bars[b]? = some x) : g.bar b = x := by
  rw [Group.bar, List.getD_eq_getElem?_getD, h]
  rfl

theorem Group.lowerBar_counts (g : Group) (clock b : Nat) : (g.lowerBar clock b).counts = modAt g.counts b lowered := by
  have hmod : ∀ f : Nat × Bool → Nat × Bool, (∀ x, g.bars[b]? = some x → f (x.c, x.dflt) = (x.c, x.dflt)) →
      modAt g.counts b f = g.counts := fun f hf => List.ext_getElem? fun i => by
    rw [getElem?_modAt]
    split
    · next h =>
      subst h
      rw [Group.counts, List.getElem?_map]
      cases hx : g.bars[b]? with
      | none => rfl
      | some x => exact congrArg some (hf x hx)
    · rfl
  unfold Group.lowerBar
  split
  · next hd =>
    refine (Group.settle_keeps _ _ clock b).1.trans ?_
    refine List.ext_getElem? fun i => ?_
    rw [getElem?_modAt, Group.counts, Group.counts, List.getElem?_map, List.getElem?_map, Group.setBar, getElem?_modAt]
    split
    · next h =>
      subst h
      cases hx : g.bars[b]? with
      | none => rfl
      | some x =>
        rw [Group.bar_eq hx] at hd
        simp [lowered, hd]
    · rfl
  · next hd =>
    refine (hmod lowered fun x hx => ?_).symm
    rw [Group.bar_eq hx] at hd
    simp [lowered, hd]

/-- A change at each index in turn is a change of every element. -/
theorem foldl_modAt_range {α : Type} (f : α → α) (l : List α) : (List.range l.length).foldl (fun l i => modAt l i f) l = l.map f := by
  have upTo : ∀ n, (List.range n).foldl (fun l i => modAt l i f) l = l.mapIdx fun i x => if i < n then f x else x := fun n => by
    induction n with
    | zero => exact List.ext_getElem? fun i => by simp
    | succ n ih =>
      rw [List.range_succ, List.foldl_append, ih]
      refine List.ext_getElem? fun i => ?_
      simp only [List.foldl_cons, List.foldl_nil, getElem?_modAt, List.getElem?_mapIdx]
      by_cases h : n = i
      · subst h
        cases l[n]? <;> simp
      · have : i < n + 1 ↔ i < n := by omega
        simp [h, this]
  rw [upTo]
  refine List.ext_getElem? fun i => ?_
  rw [List.getElem?_mapIdx, List.getElem?_map]
  cases hi : l[i]? with
  | none => rfl
  | some x => rw [Option.map_some, if_pos (List.getElem?_eq_some_iff.mp hi).1]; rfl

/-- A thread's exit lowers each barrier that took the default by one (R207). -/
theorem Group.exitBars_counts (g : Group) (clock : Nat) : (g.exitBars clock).counts = g.counts.map lowered := by
  have step : ∀ (l : List Nat) (g : Group), (l.foldl (Group.lowerBar clock) g).counts = l.foldl (fun l i => modAt l i lowered) g.counts :=
    fun l => by
      induction l with
      | nil => exact fun _ => rfl
      | cons b bs ih => exact fun g => by rw [List.foldl_cons, List.foldl_cons, ih, Group.lowerBar_counts]
  have hlen : g.bars.length = g.counts.length := by rw [Group.counts, List.length_map]
  rw [← foldl_modAt_range, ← step, ← hlen]
  rfl

theorem Group.exitBars_exited {g : Group} {k : Key} {out : Bool} (clock : Nat) (h : g.Exited k out) :
    (g.exitBars clock).Exited k out :=
  Group.Exited.foldl (f := Group.lowerBar clock) (fun _ b hg => Group.lowerBar_exited clock b hg) _ h

theorem Group.exitBars_sheaves (g : Group) (clock : Nat) : (g.exitBars clock).sheaves = g.sheaves := by
  have step : ∀ (l : List Nat) (g : Group), (l.foldl (Group.lowerBar clock) g).sheaves = g.sheaves := fun l => by
    induction l with
    | nil => exact fun _ => rfl
    | cons b bs ih => exact fun g => (ih _).trans (g.lowerBar_sheaves clock b)
  exact step _ g

/-! ### The exit of threads -/

/-- One thread exits (R119). -/
def Group.exitOne (clock : Nat) (g : Group) (t : Thread) : Group :=
  let g := (g.send t.key .exited 0).modify t.key fun t => { t with marks := [], tickets := [] }
  { g.exitBars clock with fences := g.fences.filter fun f => f.key != t.key }

/-- A key is a member of no sheaf of the group. -/
def Group.Outside (g : Group) (k : Key) : Prop := ∀ sh ∈ g.sheaves, k ∉ sh.members

/-- The group as its exiting thread has left its sheaf and its place. -/
def Group.parting (g : Group) (t : Thread) : Group :=
  (g.send t.key .exited 0).modify t.key fun t => { t with marks := [], tickets := [] }

theorem Group.exitOne_eq (clock : Nat) (g : Group) (t : Thread) :
    g.exitOne clock t = { (g.parting t).exitBars clock with fences := (g.parting t).fences.filter fun f => f.key != t.key } := rfl

theorem Group.parting_exited {g : Group} {k : Key} {out : Bool} (t : Thread) (h : g.Exited k out) :
    (g.parting t).Exited k (out || k = t.key) := by
  obtain ⟨u, hu, hp⟩ := h
  have hfind : (g.parting t).find k = _ := (g.send t.key .exited 0).find_modify t.key k _ fun _ => rfl
  rw [Group.find_send, hu] at hfind
  by_cases hk : k = t.key
  · rw [if_pos hk, if_pos hk] at hfind
    exact ⟨_, hfind, fun _ => rfl⟩
  · rw [if_neg hk, if_neg hk] at hfind
    exact ⟨u, hfind, fun ho => hp (by simpa [hk] using ho)⟩

theorem Group.exitOne_exited {g : Group} {k : Key} {out : Bool} (clock : Nat) (t : Thread) (h : g.Exited k out) :
    (g.exitOne clock t).Exited k (out || k = t.key) := by
  rw [Group.exitOne_eq]
  exact (Group.exitBars_exited clock (Group.parting_exited t h)).of_threads rfl

theorem Group.exitOne_sheaves (clock : Nat) (g : Group) (t : Thread) :
    (g.exitOne clock t).sheaves = g.sheaves.map (Sheaf.leave t.key) := (g.parting t).exitBars_sheaves clock

theorem Group.exitOne_outside {g : Group} {k : Key} (clock : Nat) (t : Thread) (h : g.Outside k ∨ k = t.key) :
    (g.exitOne clock t).Outside k := by
  intro sh hsh hm
  rw [Group.exitOne_sheaves] at hsh
  obtain ⟨x, hx, rfl⟩ := List.mem_map.mp hsh
  obtain ⟨hin, hne⟩ := List.mem_filter.mp hm
  rcases h with h | h
  · exact h x hx hin
  · simp [h] at hne

theorem Group.exitOne_counts (clock : Nat) (g : Group) (t : Thread) : (g.exitOne clock t).counts = g.counts.map lowered :=
  (g.parting t).exitBars_counts clock

/-- Threads that exit in turn have exited, and are in no sheaf (R119). -/
theorem Group.exitAll_exited {k : Key} (clock : Nat) (ts : List Thread) {g : Group} {out : Bool} (hg : g.Exited k out)
    (hout : out = true → g.Outside k) (hk : out = true ∨ k ∈ ts.map Thread.key) :
    (ts.foldl (Group.exitOne clock) g).Exited k ∧ (ts.foldl (Group.exitOne clock) g).Outside k := by
  induction ts generalizing g out with
  | nil =>
    have : out = true := by simpa using hk
    subst this
    exact ⟨hg, hout rfl⟩
  | cons t ts ih =>
    refine ih (Group.exitOne_exited clock t hg) (fun h => Group.exitOne_outside clock t ?_) ?_
    · rw [Bool.or_eq_true, decide_eq_true_eq] at h
      exact h.imp_left hout
    · simp only [List.map_cons, List.mem_cons] at hk
      simp only [Bool.or_eq_true, decide_eq_true_eq]
      tauto

/-- Each exit lowers the default counts by one (R207). -/
theorem Group.exitAll_counts (clock : Nat) (ts : List Thread) (g : Group) :
    (ts.foldl (Group.exitOne clock) g).counts = g.counts.map fun x => if x.2 then (x.1 - ts.length, x.2) else x := by
  induction ts generalizing g with
  | nil => simp
  | cons t ts ih =>
    rw [List.foldl_cons, ih, Group.exitOne_counts, List.map_map]
    refine List.map_congr_left fun x _ => ?_
    simp only [Function.comp, lowered, List.length_cons]
    by_cases hx : x.2 = true
    · simp only [hx, if_true, Prod.mk.injEq, and_true]
      omega
    · simp [hx]

/-! ### A thread that has exited stays away from the sheaf -/

/-- The thread of a key has exited and is in no sheaf. -/
def Group.Gone (g : Group) (k : Key) : Prop := g.Exited k ∧ g.Outside k

theorem Group.Outside.modSheaf {g : Group} {k : Key} (h : g.Outside k) (si : Nat) (f : Sheaf → Sheaf)
    (hf : ∀ sh, (f sh).members = sh.members) : ({ g with sheaves := modAt g.sheaves si f } : Group).Outside k := by
  intro sh hsh hm
  obtain ⟨i, hi⟩ := List.mem_iff_getElem?.mp hsh
  rw [getElem?_modAt] at hi
  split at hi
  · obtain ⟨x, hx, rfl⟩ := Option.map_eq_some_iff.mp hi
    exact h x (List.mem_of_getElem? hx) (hf x ▸ hm)
  · exact h sh (List.mem_of_getElem? hi) hm

theorem Group.Gone.send {g : Group} {k x : Key} (h : g.Gone k) (hne : k ≠ x) (p : Place) (pc : Addr) : (g.send x p pc).Gone k := by
  obtain ⟨⟨t, ht, hp⟩, hout⟩ := h
  refine ⟨⟨t, by rw [Group.find_send, if_neg hne, ht], hp⟩, fun sh hsh hm => ?_⟩
  obtain ⟨y, hy, rfl⟩ := List.mem_map.mp hsh
  exact hout y hy (List.mem_filter.mp hm).1

theorem Group.Gone.fileAll {g : Group} {k : Key} (h : g.Gone k) {f : Group → Key → Group}
    (hf : ∀ g x, Group.Gone g k → k ≠ x → Group.Gone (f g x) k) {ks : List Key} (hk : k ∉ ks) : (ks.foldl f g).Gone k := by
  induction ks generalizing g with
  | nil => exact h
  | cons x xs ih =>
    rw [List.mem_cons, not_or] at hk
    exact ih (hf g x h hk.1) hk.2

theorem Group.Gone.closeRegions {g : Group} {k : Key} (h : g.Gone k) (clock si : Nat) : (g.closeRegions clock si).Gone k := by
  cases hsh : g.sheaves[si]? with
  | none =>
    unfold Group.closeRegions
    rw [hsh]
    exact h
  | some sh =>
    have filed : (sh.members.foldl (Group.fileSome sh.exitPc clock) g).Gone k :=
      h.fileAll (fun _ x hg hne => by
        unfold Group.fileSome
        split
        · exact hg.send hne _ _
        · exact hg) (h.2 sh (List.mem_of_getElem? hsh))
    rw [Group.closeRegions_eq hsh]
    exact ⟨filed.1.of_threads rfl, filed.2.modSheaf si _ fun _ => rfl⟩

/-- The thread of a key of a group of the state has exited and is in no sheaf. -/
def State.Gone (s : State) (gi : Nat) (k : Key) : Prop := ∃ g, s.groups[gi]? = some g ∧ g.Gone k

theorem State.Gone.exited {s : State} {gi : Nat} {k : Key} (h : s.Gone gi k) : ∃ g, s.groups[gi]? = some g ∧ g.Exited k := by
  obtain ⟨g, hg, hgone⟩ := h
  exact ⟨g, hg, hgone.1⟩

theorem State.Gone.setGroup {s : State} {gi : Nat} {k : Key} (h : s.Gone gi k) (f : Group → Group)
    (hf : ∀ g, Group.Gone g k → Group.Gone (f g) k) : (s.setGroup gi f).Gone gi k := by
  obtain ⟨g, hg, hgone⟩ := h
  exact ⟨f g, by rw [State.setGroup_get, if_pos rfl, hg]; rfl, hf g hgone⟩

theorem State.Gone.setSheaf {s : State} {gi : Nat} {k : Key} (h : s.Gone gi k) (si : Nat) (f : Sheaf → Sheaf)
    (hf : ∀ sh, (f sh).members = sh.members) : (s.setSheaf gi si f).Gone gi k :=
  h.setGroup _ fun _ hg => ⟨hg.1.of_threads rfl, hg.2.modSheaf si f hf⟩

theorem State.Gone.mapThreads {s : State} {gi : Nat} {k : Key} (h : s.Gone gi k) (f : Thread → Thread)
    (hf : ∀ t, (f t).key = t.key ∧ (f t).place = t.place) :
    (s.setGroup gi fun g => { g with threads := g.threads.map f }).Gone gi k :=
  h.setGroup _ fun _ hg => ⟨hg.1.map f fun t => ⟨(hf t).1, fun hp => (hf t).2.trans hp⟩, hg.2⟩

theorem State.Gone.countIssue {s : State} {c : Cx} {k : Key} (h : s.Gone c.gi k) : (s.countIssue c).Gone c.gi k := by
  have counted : ∀ cl, State.Gone { s with clusters := cl } c.gi k := fun _ => h
  unfold State.countIssue
  refine ((counted _).mapThreads _ fun t => ?_).setSheaf c.si _ fun sh => ?_
  · split
    · split
      · split <;> exact ⟨rfl, rfl⟩
      · exact ⟨rfl, rfl⟩
    · exact ⟨rfl, rfl⟩
  · split <;> rfl

/-- A sheaf that ends its clause files its own members alone; what is left of a thread that has exited is its place. -/
theorem State.Gone.fallThrough {s : State} {gi : Nat} {k : Key} (h : s.Gone gi k) (si : Nat) (pc : Addr) :
    ∃ g, (s.fallThrough gi si pc).groups[gi]? = some g ∧ g.Exited k := by
  obtain ⟨g, hg, hgone⟩ := h
  unfold State.fallThrough
  rw [hg]
  dsimp only
  split
  · refine ⟨_, by rw [State.setGroup_get, if_pos rfl, hg]; rfl, ?_⟩
    have closed := hgone.closeRegions s.clock si
    dsimp only
    split
    · exact closed.1
    · next sh hsh =>
      have hnot : k ∉ sh.members := closed.2 sh (List.mem_of_getElem? hsh)
      exact (closed.fileAll (f := fun g x => g.file s.clock x pc) (fun _ _ hg hne => hg.send hne _ _) hnot).1.of_threads rfl
  · refine State.Gone.exited (State.Gone.setSheaf (State.Gone.mapThreads ⟨g, hg, hgone⟩ _ fun t => ?_) si _ fun _ => rfl)
    split <;> exact ⟨rfl, rfl⟩

theorem State.Gone.advance {s : State} {c : Cx} {k : Key} (h : s.Gone c.gi k) :
    ∃ g, (s.advance c).groups[c.gi]? = some g ∧ g.Exited k := by
  unfold State.advance
  dsimp only
  split
  · refine State.Gone.exited (State.Gone.setSheaf h c.si _ ?_)
    exact fun _ => rfl
  · exact (h.setSheaf c.si (fun sh => { sh with hold := .free, acted := [] }) fun _ => rfl).fallThrough c.si _

theorem State.thr_exited {s : State} {gi : Nat} {k : Key} (h : ∃ g, s.groups[gi]? = some g ∧ g.Exited k) :
    (s.thr gi k).map Thread.place = some .exited := by
  obtain ⟨g, hg, t, ht, hp⟩ := h
  unfold State.thr
  rw [hg]
  exact (congrArg (Option.map Thread.place) ht).trans (congrArg some (hp rfl))

/-- A thread that has exited by an instruction stays so as the sheaf goes on. -/
theorem State.Gone.outcome {s s' : State} {c : Cx} {k : Key} (h : s'.Gone c.gi k) :
    (((Act.done s').outcome c s).thr c.gi k).map Thread.place = some .exited := by
  obtain ⟨g, hg, hexit⟩ := h.countIssue.advance
  exact State.thr_exited ⟨g.sweepSheaves, State.tidy_get _ hg, hexit.of_threads rfl⟩

/-! ### EXIT -/

/-- Pins that end leave a thread that has exited, and the barriers (R186). -/
theorem State.onBars_group {s : State} {gi : Nat} {g : Group} (hg : s.groups[gi]? = some g) (f : Group → Group) :
    ∃ h, (s.onBars gi f).groups[gi]? = some h ∧ (f g).Woken h := by
  have hset : (s.setGroup gi fun _ => f g).groups[gi]? = some (f g) := by rw [State.setGroup_get, if_pos rfl, hg]; rfl
  unfold State.onBars
  rw [hg]
  dsimp only
  split
  · exact (State.endPins_quiet _ _).group hset
  · exact ⟨f g, hset, .refl _⟩

theorem Group.Woken.gone {g h : Group} {k : Key} (hw : g.Woken h) (hg : g.Gone k) : h.Gone k := by
  obtain ⟨⟨t, ht, hp⟩, hout⟩ := hg
  have hfree : t.heldSite = none := by simp [Thread.heldSite, hp rfl]
  refine ⟨⟨t, hw.find_free ht hfree, hp⟩, ?_⟩
  obtain ⟨f, -, rfl⟩ := hw
  exact hout

theorem exec_exit {e : Ext} {s : State} {c : Cx} (h : s.readyE .exit e = some c) :
    exec (.exit e) s = .next ((exitBody c s).outcome c s) := issueE_ready exitBody h

/-- EXIT faults neither for marks nor for a glean where there are none (R25, R256). -/
theorem exitBody_done {c : Cx} {s : State} (hact : ∀ th ∈ c.act, th.part = none ∧ th.solo = none ∧ ∀ m ∈ th.marks, m.2 ≠ .ecc)
    (hS : ∀ m ∈ c.g.marksS, m.2 ≠ .ecc) :
    exitBody c s = .done (s.onBars c.gi fun g => c.act.foldl (Group.exitOne s.clock) g) := by
  have noMark : ∀ l : List (Nat × MarkKind), (∀ m ∈ l, m.2 ≠ .ecc) → l.find? (fun m => m.2 = .ecc) = none := fun l hl =>
    List.find?_eq_none.mpr fun m hm => by simpa using hl m hm
  have last : ∀ t, c.lastMark t = none := fun t => by
    unfold Cx.lastMark
    dsimp only
    split
    · rw [noMark _ hS]
      rfl
    · rfl
  have bad : c.act.filterMap (fun t => (c.exitFault t).map fun f => (t.key, f)) = [] := by
    refine List.filterMap_eq_nil_iff.mpr fun t ht => ?_
    obtain ⟨hpart, hsolo, hmarks⟩ := hact t ht
    have : c.exitFault t = none := by
      unfold Cx.exitFault
      rw [noMark _ hmarks, last]
      simp [hpart, hsolo]
    rw [this]
    rfl
  unfold exitBody
  dsimp only
  rw [bad]
  rfl

theorem Group.bar_of_counts {g : Group} {b : Nat} {x : Nat × Bool} (hg : g.counts[b]? = some x) :
    (g.bar b).c = x.1 ∧ (g.bar b).dflt = x.2 := by
  rw [Group.counts, List.getElem?_map] at hg
  obtain ⟨y, hy, rfl⟩ := Option.map_eq_some_iff.mp hg
  rw [Group.bar_eq hy]
  exact ⟨rfl, rfl⟩

theorem exit_completes {e : Ext} {s : State} {c : Cx} (h : s.readyE .exit e = some c) (hshaped : c.g.Shaped)
    (hact : ∀ th ∈ c.act, th.part = none ∧ th.solo = none ∧ ∀ m ∈ th.marks, m.2 ≠ .ecc) (hS : ∀ m ∈ c.g.marksS, m.2 ≠ .ecc) :
    ∃ t, exec (.exit e) s = .next t ∧ (∀ th ∈ c.act, (t.thr c.gi th.key).map Thread.place = some .exited)
      ∧ ∀ b < c.g.bars.length, ∃ g ∈ t.groups[c.gi]?,
          (g.bar b).c = (c.g.bar b).c - if (c.g.bar b).dflt then c.act.length else 0 := by
  obtain ⟨hg, -⟩ := State.ready_at h
  obtain ⟨g, hgi, hwoken⟩ := State.onBars_group hg fun g => c.act.foldl (Group.exitOne s.clock) g
  refine ⟨_, by rw [exec_exit h, exitBody_done hact hS], fun th hth => State.Gone.outcome ⟨g, hgi, hwoken.gone ?_⟩, fun b hb => ?_⟩
  · exact Group.exitAll_exited (out := false) s.clock c.act ⟨th, Cx.find_of_act hshaped hth, fun h => nomatch h⟩ (fun h => nomatch h)
      (.inr (List.mem_map_of_mem hth))
  · obtain ⟨g', hg', hcore⟩ := State.group_of_cores (Act.outcome_done_cores c s _) hgi
    have hcounts : g'.counts = c.g.counts.map fun x => if x.2 then (x.1 - c.act.length, x.2) else x := by
      have ofCore : ∀ x : Group, x.counts = x.core.counts := fun _ => rfl
      rw [← Group.exitAll_counts s.clock c.act c.g, ofCore, ofCore (c.act.foldl _ _), hcore.trans hwoken.core]
    refine ⟨g', hg', ?_⟩
    have hbar : c.g.bars[b]? = some c.g.bars[b] := List.getElem?_eq_getElem hb
    have hnew : g'.counts[b]? = some (if c.g.bars[b].dflt then (c.g.bars[b].c - c.act.length, c.g.bars[b].dflt)
        else (c.g.bars[b].c, c.g.bars[b].dflt)) := by
      rw [hcounts, Group.counts, List.map_map, List.getElem?_map, hbar]
      rfl
    rw [(Group.bar_of_counts hnew).1, Group.bar_eq hbar]
    split <;> simp

/-- Settles O19: each instruction by what its body comes to. -/
theorem hintsYieldAndExit : Obligations.HintsYieldAndExit := by
  unfold Obligations.HintsYieldAndExit
  refine ⟨⟨fun e s c hc hpres => nop_completes hc hpres, fun e s c hc hpres hs => pref_completes hc hpres hs,
    fun e s c hc hpres hwait => icinv_completes hc hpres hwait⟩, fun e s c hc _ hact => ?_, fun e s c hc _ hact => ?_,
    fun e s c hc hshaped hact hS => exit_completes hc hshaped hact hS⟩
  · refine ⟨_, by rw [exec_yield hc, yieldBody, if_neg (by simpa using hact)], fun th hth => ?_⟩
    exact Cx.spot_sendPres hc _ _ hth
  · refine ⟨_, by rw [exec_yield hc, yieldBody, if_pos (by simpa using hact)], fun th hth => ?_⟩
    exact Cx.spot_sendPres hc _ _ hth

end Sys2Proof.Machine
end

section
/-! PROOFS. TRAP and BRK (R120, R371, R372): the fields of a fault record, writes that read nothing of the groups, and the entry of
one thread into its handler. -/

namespace Sys2Proof.Machine

/-! ### The fault record (R372) -/

/-- The fields of a fault record: sizes and values. -/
def recordFields (f : Flt) (site : Site) (seq : Word) : List (Nat × Nat) :=
  [(8, site.pc.toNat), (8, site.hdr.toNat), (8, site.next.toNat), (8, f.addr), (1, f.cls), (1, f.access), (1, 0), (1, 0),
    (4, f.info), (4, site.word.toNat), (4, seq.toNat), (8, 0), (4, 0), (4, 0)]

/-- Fields one after another, little-endian. -/
def fieldBytes (fs : List (Nat × Nat)) : List Byte := fs.flatMap fun x => natBytes x.1 x.2

theorem length_fieldBytes (fs : List (Nat × Nat)) : (fieldBytes fs).length = (fs.map Prod.fst).sum := by
  simp [fieldBytes, List.length_flatMap]

theorem recordBytes_eq (f : Flt) (site : Site) (seq : Word) : recordBytes f site seq none = fieldBytes (recordFields f site seq) := by
  simp [recordBytes, fieldBytes, recordFields, List.append_assoc]

/-- A field reads back at its offset, the sum of the sizes before it. -/
theorem leNat_field {n x : Nat} (before after : List (Nat × Nat)) (hx : x < 256 ^ n) :
    leNat (((fieldBytes (before ++ (n, x) :: after)).drop (before.map Prod.fst).sum).take n) = x := by
  have hsplit : fieldBytes (before ++ (n, x) :: after) = fieldBytes before ++ (natBytes n x ++ fieldBytes after) := by
    simp [fieldBytes]
  rw [hsplit, ← length_fieldBytes, List.drop_left, List.take_left' (length_natBytes n x), leNat_natBytes, Nat.mod_eq_of_lt hx]

/-- The i-th field of a fault record. -/
theorem leNat_recordField {f : Flt} {site : Site} {seq : Word} (i : Nat) {n x : Nat}
    (hi : (recordFields f site seq)[i]? = some (n, x)) (hx : x < 256 ^ n) :
    leNat (((recordBytes f site seq none).drop (((recordFields f site seq).take i).map Prod.fst).sum).take n) = x := by
  obtain ⟨hlt, hget⟩ := List.getElem?_eq_some_iff.mp hi
  have hsplit : recordFields f site seq = (recordFields f site seq).take i ++ (n, x) :: (recordFields f site seq).drop (i + 1) := by
    rw [← hget, List.getElem_cons_drop, List.take_append_drop]
  rw [recordBytes_eq]
  conv_lhs => rw [hsplit]
  have htake : (((recordFields f site seq).take i ++ (n, x) :: (recordFields f site seq).drop (i + 1)).take i) =
      (recordFields f site seq).take i := by rw [← hsplit]
  rw [htake]
  exact leNat_field _ _ hx

/-! ### What reads nothing of the groups -/

/-- The device without its groups. -/
def State.bare (s : State) : State := { s with groups := [] }

theorem bare_ite {P : Prop} [Decidable P] {a b a' b' : State} (ha : a.bare = a') (hb : b.bare = b') :
    (if P then a else b).bare = if P then a' else b' := by
  split
  · exact ha
  · exact hb

theorem State.spillLine_bare (s : State) (vf : Nat) (x : SLine) : (s.spillLine vf x).bare = s.bare.spillLine vf x :=
  bare_ite rfl rfl

theorem State.fillSlice_bare (s : State) (vf slice line arena : Nat) (kind : SliceKind) :
    (s.fillSlice vf slice line arena kind).bare = s.bare.fillSlice vf slice line arena kind := by
  have hprey : s.bare.slicePrey slice line (kind = .replica) = s.slicePrey slice line (kind = .replica) := rfl
  unfold State.fillSlice
  rw [hprey]
  cases s.slicePrey slice line (kind = .replica) with
  | none => rfl
  | some x =>
    dsimp only
    rw [← State.spillLine_bare]
    rfl

theorem State.soil_bare (s : State) (line : Nat) : (s.soil line).bare = s.bare.soil line := bare_ite rfl rfl

theorem State.atHome_bare (s : State) (vf arena pa : Nat) (write : Bool) :
    (s.atHome vf arena pa write).bare = s.bare.atHome vf arena pa write := by
  unfold State.atHome
  refine bare_ite (bare_ite rfl rfl) (bare_ite ?_ (bare_ite rfl ?_))
  · exact (State.fillSlice_bare _ _ _ _ _ _).trans (congrArg (fun x => State.fillSlice x _ _ _ _ _) (State.soil_bare _ _))
  · exact State.fillSlice_bare _ _ _ _ _ _

theorem State.writeHome_bare (s : State) (cl : Option Nat) (vf arena line : Nat) :
    (s.writeHome cl vf arena line).bare = s.bare.writeHome cl vf arena line := by
  unfold State.writeHome
  rw [← State.atHome_bare]
  rfl

theorem State.writeLine_bare (s : State) (cl : Option Nat) (vf arena line : Nat) :
    (s.writeLine cl vf arena line).bare = s.bare.writeLine cl vf arena line := bare_ite rfl (s.writeHome_bare _ _ _ _)

theorem State.notePartials_bare (s : State) (line : Nat) (ps : List Partial) :
    (s.notePartials line ps).bare = s.bare.notePartials line ps := by
  unfold State.notePartials
  induction ps generalizing s with
  | nil => rfl
  | cons p ps ih => exact ih _

theorem State.recall_bare (s : State) (line : Nat) : (s.recall line).bare = s.bare.recall line := by
  have hps : s.bare.ms.recallable line = s.ms.recallable line := rfl
  unfold State.recall
  dsimp only
  rw [hps]
  cases (s.ms.recallable line).getLast? with
  | none => rfl
  | some p =>
    dsimp only
    rw [← State.notePartials_bare]
    exact State.writeHome_bare _ _ _ _ _

theorem State.store_bare (s : State) (cl : Option Nat) (vf arena pa : Nat) (bytes : List Byte) :
    (s.store cl vf arena pa bytes).bare = s.bare.store cl vf arena pa bytes := by
  unfold State.store
  refine bare_ite rfl ?_
  dsimp only
  rw [← State.recall_bare]
  exact State.writeLine_bare _ _ _ _ _

theorem State.putAs_bare (s : State) (who : Option (Nat × Nat)) (vf arena pa : Nat) (b : Byte) :
    (s.putAs who vf arena pa b).bare = s.bare.putAs who vf arena pa b :=
  bare_ite rfl (bare_ite rfl (s.store_bare _ _ _ _ _))

/-- What the device writes does not depend on the groups. -/
theorem State.writeAs_bare (s : State) (who : Option (Nat × Nat)) (vf va : Nat) (bytes : List Byte) :
    (s.writeAs who vf va bytes).bare = s.bare.writeAs who vf va bytes := by
  induction bytes generalizing s va with
  | nil => rfl
  | cons b bs ih =>
    have hx : s.bare.xlateNow vf va { w := true } = s.xlateNow vf va { w := true } := rfl
    unfold State.writeAs
    rw [hx, ih]
    cases s.xlateNow vf va { w := true } with
    | ok pa arena => exact congrArg (State.writeAs · who vf (va + 1) bs) (s.putAs_bare _ _ _ _ _)
    | missing => rfl
    | pmiss _ => rfl
    | denied => rfl

/-- Where states differ in their groups alone, what is written leaves one memory. -/
theorem State.writeAs_ms {s t : State} (h : t.bare = s.bare) (who : Option (Nat × Nat)) (vf va : Nat) (bytes : List Byte) :
    (t.writeAs who vf va bytes).ms = (s.writeAs who vf va bytes).ms := by
  have hbare : (t.writeAs who vf va bytes).bare = (s.writeAs who vf va bytes).bare := by
    rw [State.writeAs_bare, State.writeAs_bare, h]
  have hms := congrArg State.ms hbare
  exact hms

/-! ### Handler entry (R371) -/

theorem Act.outcome_moved_cores (c : Cx) (s s' : State) : ((Act.moved s').outcome c s).cores = s'.cores := by
  simp only [Act.outcome, Act.close, State.mark_cores, State.tidy_cores, State.countIssue_cores]

/-- A present thread is not held. -/
theorem Cx.pres_free {c : Cx} {t : Thread} (h : t ∈ c.pres) : t.heldSite = none := by
  obtain ⟨hm, -⟩ := List.mem_filter.mp h
  obtain ⟨-, hs⟩ := List.mem_filter.mp ((sortKey_perm _).mem_iff.mp hm)
  simp only [Group.stands, Bool.and_eq_true, decide_eq_true_eq] at hs
  obtain ⟨-, hplace, -⟩ := hs
  simp [Thread.heldSite, hplace]

/-- The fields that the entry reads are those of the core. -/
theorem Group.entry_of_core {g h : Group} (hc : g.core = h.core) :
    g.uid = h.uid ∧ g.cl = h.cl ∧ g.vf = h.vf ∧ g.task = h.task ∧ g.gidx = h.gidx ∧ g.launch = h.launch
      ∧ g.handler = h.handler ∧ g.dbg = h.dbg := by
  have hall : ∀ x : Group, (x.uid, x.cl, x.vf, x.task, x.gidx, x.launch, x.handler, x.dbg) =
      (x.core.uid, x.core.cl, x.core.vf, x.core.task, x.core.gidx, x.core.launch, x.core.handler, x.core.dbg) := fun _ => rfl
  have heq := hall g
  rw [hc, ← hall h] at heq
  simpa only [Prod.mk.injEq] using heq

/-- The thread that has entered its handler (R371). -/
def Thread.inHandler (t : Thread) (n a clock : Nat) (handler : Addr) : Thread :=
  { (({ t with seq := t.seq + 1, solo := none : Thread }.put (.v (n - 2)) (BitVec.ofNat 32 a)).put (.v (n - 1))
      (BitVec.ofNat 32 (a / 2 ^ 32))).sent (.bin clock) handler with entered := true }

/-- A fault record leaves a group as it was, but for threads that resume and fences. -/
theorem State.putRecord_group {s : State} {gi : Nat} {g h : Group} {k : Key} {a : Nat} {bytes : List Byte}
    (hg : s.groups[gi]? = some g) : ∃ h', (s.putRecord gi h k a bytes).groups[gi]? = some h' ∧ h'.core = g.core
      ∧ ∀ j t, g.find j = some t → t.heldSite = none → h'.find j = some t := by
  obtain ⟨g', hg', hwoken⟩ := (s.writeAs_quiet (some (h.uid, h.cl)) h.vf a bytes).group hg
  unfold State.putRecord
  dsimp only
  split
  · exact ⟨g', hg', hwoken.core, fun _ _ hj ht => hwoken.find_free hj ht⟩
  · refine ⟨_, (State.setGroup_get _ _ _ _).trans ((if_pos rfl).trans (congrArg (Option.map _) hg')), hwoken.core, ?_⟩
    exact fun _ _ hj ht => hwoken.find_free hj ht

theorem State.putRecord_ms (s : State) (gi : Nat) (h : Group) (k : Key) (a : Nat) (bytes : List Byte) :
    (s.putRecord gi h k a bytes).ms = (s.writeAs (some (h.uid, h.cl)) h.vf a bytes).ms := by
  unfold State.putRecord
  dsimp only
  split <;> rfl

theorem State.putRecord_clock (s : State) (gi : Nat) (h : Group) (k : Key) (a : Nat) (bytes : List Byte) :
    (s.putRecord gi h k a bytes).clock = s.clock := by
  have hclock := (s.writeAs_quiet (some (h.uid, h.cl)) h.vf a bytes).clock
  unfold State.putRecord
  dsimp only
  split <;> exact hclock

/-- The group as the thread of a key has entered the handler with its record at an address (R371). -/
def Group.toHandler (k : Key) (seq : Word) (a clock : Nat) (g : Group) : Group :=
  let n := g.launch.nv
  let g := g.modify k fun t => { t with seq := seq, solo := none }
  let g := g.putAll k [(.v (n - 2), BitVec.ofNat 32 a), (.v (n - 1), BitVec.ofNat 32 (a / 2 ^ 32))]
  (g.file clock k g.handler).modify k fun t => { t with entered := true }

theorem Group.find_toHandler {g : Group} {k : Key} {t : Thread} (ht : g.find k = some t) (a clock : Nat) :
    (g.toHandler k (t.seq + 1) a clock).find k = some (t.inHandler g.launch.nv a clock g.handler) := by
  have modified : ∀ {h : Group} {u : Thread} {f : Thread → Thread}, (∀ t, (f t).key = t.key) → h.find k = some u →
      (h.modify k f).find k = some (f u) := fun hf hu => by
    rw [Group.find_modify _ _ _ _ hf, if_pos rfl, hu, Option.map_some]
  have put : ∀ {h : Group} {u : Thread} (i : Nat) (x : Word), h.find k = some u →
      (h.put k (.v i) x).find k = some (u.put (.v i) x) := fun i x hu => modified (fun t => Thread.put_key t _ x) hu
  have written := put (g.launch.nv - 1) (BitVec.ofNat 32 (a / 2 ^ 32)) (put (g.launch.nv - 2) (BitVec.ofNat 32 a)
    (modified (f := fun u => { u with seq := t.seq + 1, solo := none }) (fun _ => rfl) ht))
  refine modified (fun _ => rfl) ?_
  rw [Group.file, Group.find_send, if_pos rfl]
  exact congrArg (Option.map (Thread.sent (.bin clock) g.handler)) written

section
variable {s : State} {gi : Nat} {g : Group} {t : Thread} {f : Flt} {site : Site} {hdr : Header} {task : Task}
  (hg : s.groups[gi]? = some g) (ht : g.find t.key = some t) (hdbg : ¬ (f.cls = 19 ∧ g.dbg = true))
  (htask : s.taskOf g.task = some task)
include hg ht hdbg htask

/-- A thread outside gleans with a handler has its record written and enters (R371). -/
theorem State.enter_eq (hpart : t.part = none) (hh : g.handler ≠ 0) (hout : site.hdr ≠ g.handler ∨ t.entered = false) {a : Nat}
    (ha : a = recordAddr task.save (task.gx * task.gy * task.gz) g.gidx t.key.t g.launch) :
    s.enter gi t.key f site hdr none =
      (s.putRecord gi g t.key a (recordBytes f site (t.seq + 1) none)).setGroup gi (Group.toHandler t.key (t.seq + 1) a s.clock) := by
  have hnot : ¬ (g.handler = 0 ∨ (site.hdr = g.handler ∧ t.entered = true)) := by
    rintro (h0 | ⟨h1, h2⟩)
    · exact hh h0
    · exact hout.elim (fun h => h h1) fun h => by simp [h] at h2
  unfold State.enter
  rw [hg]
  dsimp only
  rw [ht]
  dsimp only
  rw [if_neg hdbg, htask]
  dsimp only
  rw [if_neg hnot, hpart, ← ha]
  dsimp only
  rw [State.putRecord_clock]
  rfl

/-- It stands in the handler's bin with the record's address, and memory holds the record (R371, R372). -/
theorem State.enter_handler (hfree : t.heldSite = none) (hpart : t.part = none) (hh : g.handler ≠ 0)
    (hout : site.hdr ≠ g.handler ∨ t.entered = false) {a : Nat}
    (ha : a = recordAddr task.save (task.gx * task.gy * task.gz) g.gidx t.key.t g.launch) :
    (∃ h, (s.enter gi t.key f site hdr none).groups[gi]? = some h
      ∧ h.find t.key = some (t.inHandler g.launch.nv a s.clock g.handler))
    ∧ (s.enter gi t.key f site hdr none).ms = (s.writeAs (some (g.uid, g.cl)) g.vf a (recordBytes f site (t.seq + 1) none)).ms := by
  obtain ⟨g', hg', hcore, hfind⟩ := State.putRecord_group (h := g) (k := t.key) (a := a)
    (bytes := recordBytes f site (t.seq + 1) none) hg
  obtain ⟨-, -, -, -, -, hlaunch, hhandler, -⟩ := Group.entry_of_core hcore
  rw [State.enter_eq hg ht hdbg htask hpart hh hout ha]
  refine ⟨⟨g'.toHandler t.key (t.seq + 1) a s.clock, by rw [State.setGroup_get, if_pos rfl, hg', Option.map_some], ?_⟩, ?_⟩
  · rw [Group.find_toHandler (hfind _ _ ht hfree), hlaunch, hhandler]
  · rw [State.setGroup_ms, State.putRecord_ms]

/-- Without a handler, or in the clause at the handler that it came into through handler entry, its task is aborted (R120). -/
theorem State.enter_abort (h : g.handler = 0 ∨ (site.hdr = g.handler ∧ t.entered = true)) :
    s.enter gi t.key f site hdr none = s.abort g.vf task.idx 6 := by
  unfold State.enter
  rw [hg]
  dsimp only
  rw [ht]
  dsimp only
  rw [if_neg hdbg, htask]
  dsimp only
  rw [if_pos h]

end

/-- The top V pair holds the record's address (R371). -/
theorem Thread.inHandler_pair {t : Thread} {n : Nat} (hn : 2 ≤ n) (hlen : t.v.length = n) (a clock : Nat) (handler : Addr) :
    (t.inHandler n a clock handler).v.getD (n - 2) 0 = BitVec.ofNat 32 a
      ∧ (t.inHandler n a clock handler).v.getD (n - 1) 0 = BitVec.ofNat 32 (a / 2 ^ 32) := by
  have hv : (t.inHandler n a clock handler).v =
      (t.v.set (n - 2) (BitVec.ofNat 32 a)).set (n - 1) (BitVec.ofNat 32 (a / 2 ^ 32)) := rfl
  have hlow : n - 2 < t.v.length := by omega
  have hhigh : n - 1 < t.v.length := by omega
  have hne : n - 1 ≠ n - 2 := by omega
  rw [hv]
  constructor <;> simp [List.getD_eq_getElem?_getD, hlow, hhigh, hne]

/-! ### TRAP and BRK -/

/-- One active thread outside gleans takes the fault of TRAP or BRK by itself (R120). -/
theorem trapBody_one {c : Cx} {th : Thread} (cls : Nat) (s : State) (hact : c.act = [th]) (hgl : th.key.gl = 0) :
    trapBody cls c s = .moved (((s.closeAt c).enter c.gi th.key { cls := cls, info := c.e.imm.toNat } c.site c.sh.hdr none).tidy c.gi) := by
  have hone : ¬ (th.key.gl != 0) = true := by simp [hgl]
  unfold trapBody State.takeAll
  rw [hact]
  simp only [List.isEmpty_cons, Bool.false_eq_true, if_false, List.map_cons, List.map_nil, List.foldl_cons, List.foldl_nil,
    State.takeOne, if_neg hone]
  rfl

/-- The group of the issuing sheaf once its regions have closed: an active thread is found as it was (R116). -/
theorem State.closeAt_group {s : State} {word : Word} {len : Nat} {o : Op} {e : Ext} {c : Cx} (h : s.ready word len o e = some c)
    (hshaped : c.g.Shaped) {th : Thread} (hth : th ∈ c.act) :
    ∃ g, (s.closeAt c).groups[c.gi]? = some g ∧ g.core = c.g.core ∧ g.find th.key = some th := by
  obtain ⟨hg, hsh, -⟩ := State.ready_at h
  obtain ⟨-, -, hmask⟩ := Cx.mem_pres (List.mem_of_mem_filter hth)
  refine ⟨c.g.closeRegions s.clock c.si, ?_, Group.closeRegions_core _ _ _, ?_⟩
  · rw [State.closeAt, State.setGroup_get, if_pos rfl, hg]
    rfl
  · rw [(Group.closeRegions_unmasked hsh hmask s.clock).1, Cx.find_of_act hshaped hth]

/-- The address of the fault record of a thread of the issuing group (R372). -/
def Cx.recordAt (c : Cx) (th : Thread) (task : Task) : Nat :=
  recordAddr task.save (task.gx * task.gy * task.gz) c.g.gidx th.key.t c.g.launch

/-- What TRAP or BRK of one thread leaves where its handler takes the fault (R120, R371, R372). -/
def Cx.Handled (c : Cx) (s t : State) (th : Thread) (task : Task) (cls : Nat) : Prop :=
  let a := c.recordAt th task
  let f : Flt := { cls := cls, info := c.e.imm.toNat }
  t.spot c.gi th.key = some (.bin s.clock, c.g.handler)
    ∧ (t.thr c.gi th.key).map Thread.seq = some (th.seq + 1)
    ∧ t.reg c.gi th.key (.v (c.g.launch.nv - 2)) = some (BitVec.ofNat 32 a)
    ∧ t.reg c.gi th.key (.v (c.g.launch.nv - 1)) = some (BitVec.ofNat 32 (a / 2 ^ 32))
    ∧ t.ms = (s.writeAs (some (c.g.uid, c.g.cl)) c.g.vf a (recordBytes f c.site (th.seq + 1) none)).ms

section
variable {s : State} {word : Word} {len : Nat} {o : Op} {e : Ext} {c : Cx} {th : Thread} {task : Task} {cls : Nat}
  (hready : s.ready word len o e = some c) (hshaped : c.g.Shaped) (hact : c.act = [th]) (hgl : th.key.gl = 0)
  (hdbg : ¬ (cls = 19 ∧ c.g.dbg = true)) (htask : s.taskOf c.g.task = some task)
include hready hshaped hact hgl hdbg htask

theorem trap_handled (hpart : th.part = none) (hnv : 8 ≤ c.g.launch.nv) (hh : c.g.handler ≠ 0)
    (hout : c.site.hdr ≠ c.g.handler ∨ th.entered = false) : c.Handled s ((trapBody cls c s).outcome c s) th task cls := by
  have hmem : th ∈ c.act := by rw [hact]; exact List.mem_singleton_self th
  obtain ⟨g, hg, hcore, hfind⟩ := State.closeAt_group hready hshaped hmem
  obtain ⟨huid, hcl, hvf, htsk, hgidx, hlaunch, hhandler, hdb⟩ := Group.entry_of_core hcore
  have hfree : th.heldSite = none := Cx.pres_free (List.mem_of_mem_filter hmem)
  have hlen : th.v.length = c.g.launch.nv := (hshaped.2.1 th (Cx.mem_threads_of_act hmem)).1
  obtain ⟨⟨h, hh', hin⟩, hms⟩ := State.enter_handler (f := { cls := cls, info := c.e.imm.toNat }) (site := c.site)
    (hdr := c.sh.hdr) hg hfind (hdb ▸ hdbg) (htsk ▸ htask) hfree hpart (hhandler ▸ hh) (hhandler ▸ hout) rfl
  rw [hgidx, hlaunch, hhandler, ← Cx.recordAt] at hin
  rw [huid, hcl, hvf, hgidx, hlaunch, ← Cx.recordAt] at hms
  obtain ⟨hlow, hhigh⟩ := Thread.inHandler_pair (t := th) (by omega) hlen (c.recordAt th task) s.clock c.g.handler
  rw [trapBody_one cls s hact hgl]
  generalize hu : (s.closeAt c).enter c.gi th.key { cls := cls, info := c.e.imm.toNat } c.site c.sh.hdr none = u at hh' hms
  have hcores : ((Act.moved (u.tidy c.gi)).outcome c s).cores = u.cores := by rw [Act.outcome_moved_cores, State.tidy_cores]
  have hthr : u.thr c.gi th.key = some (th.inHandler c.g.launch.nv (c.recordAt th task) s.clock c.g.handler) := by
    rw [State.thr, hh']
    exact hin
  refine ⟨?_, ?_, ?_, ?_, ?_⟩
  · rw [Act.spot_moved (State.tidy_get u hh'), Group.spot]
    exact congrArg (Option.map fun t : Thread => (t.place, t.pc)) hin
  · rw [State.thr_map_of_cores hcores _ _ _ fun _ => rfl, hthr]
    rfl
  · rw [State.reg_of_cores hcores, State.reg, hthr, Option.map_some, hlow]
  · rw [State.reg_of_cores hcores, State.reg, hthr, Option.map_some, hhigh]
  · refine (Act.close_moved_ms c s _).trans ?_
    have hbare : (s.closeAt c).bare = s.bare := rfl
    rw [State.countIssue_ms, State.tidy_ms, hms, State.writeAs_ms hbare]

theorem trap_aborts (h : c.g.handler = 0 ∨ (c.site.hdr = c.g.handler ∧ th.entered = true)) :
    ((trapBody cls c s).outcome c s).ms = ((s.closeAt c).abort c.g.vf task.idx 6).ms
      ∧ ((trapBody cls c s).outcome c s).tasks = ((s.closeAt c).abort c.g.vf task.idx 6).tasks := by
  have hmem : th ∈ c.act := by rw [hact]; exact List.mem_singleton_self th
  obtain ⟨g, hg, hcore, hfind⟩ := State.closeAt_group hready hshaped hmem
  obtain ⟨-, -, hvf, htsk, -, -, hhandler, hdb⟩ := Group.entry_of_core hcore
  rw [trapBody_one cls s hact hgl, State.enter_abort (f := { cls := cls, info := c.e.imm.toNat }) (site := c.site) hg hfind
    (hdb ▸ hdbg) (htsk ▸ htask) (hhandler ▸ h), hvf]
  generalize (s.closeAt c).abort c.g.vf task.idx 6 = u
  exact ⟨Act.close_moved_ms c s (u.tidy c.gi), rfl⟩
end

/-- Settles O22: the entry of the one thread, and the fields of the record at their offsets. -/
theorem trapEntersHandler : Obligations.TrapEntersHandler := by
  unfold Obligations.TrapEntersHandler
  refine ⟨fun e s c th task => ⟨?_, fun hdbg => ?_⟩, fun f site seq ha hc hx hi => ?_⟩
  · intro hc hshaped hnv hact hgl hpart _ htask
    obtain ⟨-, -, -, rfl⟩ := State.ready_at hc
    have hdbg : ¬ (18 = 19 ∧ c.g.dbg = true) := by simp
    exact ⟨fun hh hout => ⟨_, issueE_ready (trapBody 18) hc, trap_handled hc hshaped hact hgl hdbg htask hpart hnv hh hout⟩,
      fun h => ⟨_, issueE_ready (trapBody 18) hc, trap_aborts hc hshaped hact hgl hdbg htask h⟩⟩
  · intro hc hshaped hnv hact hgl hpart _ htask
    obtain ⟨-, -, -, rfl⟩ := State.ready_at hc
    have hdbg : ¬ (19 = 19 ∧ c.g.dbg = true) := by simp [hdbg]
    exact ⟨fun hh hout => ⟨_, issueE_ready (trapBody 19) hc, trap_handled hc hshaped hact hgl hdbg htask hpart hnv hh hout⟩,
      fun h => ⟨_, issueE_ready (trapBody 19) hc, trap_aborts hc hshaped hact hgl hdbg htask h⟩⟩
  · refine ⟨?_, leNat_recordField 0 rfl site.pc.isLt, leNat_recordField 1 rfl site.hdr.isLt, leNat_recordField 2 rfl site.next.isLt,
      leNat_recordField 3 rfl (by simpa using ha), leNat_recordField 4 rfl (by simpa using hc), leNat_recordField 5 rfl (by simpa using hx),
      leNat_recordField 8 rfl (by simpa using hi), leNat_recordField 9 rfl site.word.isLt, leNat_recordField 10 rfl seq.isLt⟩
    rw [recordBytes_eq, length_fieldBytes]
    rfl

end Sys2Proof.Machine
end

section
/-! PROOFS. STS and STX (R138, R155, R162 to R164, R206, R212). -/

namespace Sys2Proof.Machine

/-! ### STS -/

theorem exec_sts {e : Ext} {s : State} {c : Cx} (h : s.readyE .sts e = some c) :
    exec (.sts e) s = .next ((stsBody c s).outcome c s) := issueE_ready stsBody h

theorem Cx.bads_none {ts : List Thread} {f : Thread → Option Flt} (h : ∀ t ∈ ts, f t = none) : Cx.bads ts f = [] :=
  List.filterMap_eq_nil_iff.mpr fun t ht => by rw [h t ht]; rfl

theorem spFault_none {o width hi : Nat} (w : Bool) (ha : o % width = 0) (hb : o + width ≤ hi) : spFault o width 0 hi w = none := by
  unfold spFault
  simp [ha, hb]

/-- The group after the threads' bytes have been stored at their offsets, in order (R138). -/
def Group.spStored (ts : List Thread) (o : Thread → Nat) (data : Thread → List Byte) (g : Group) : Group :=
  ts.foldl (fun g t => g.spWrite (o t) (data t)) g

theorem Group.spStored_keeps {α : Type} {f : Group → α} (hf : ∀ g o bytes, f (Group.spWrite g o bytes) = f g) (ts : List Thread)
    (o : Thread → Nat) (data : Thread → List Byte) (g : Group) : f (g.spStored ts o data) = f g := by
  unfold Group.spStored
  induction ts generalizing g with
  | nil => rfl
  | cons t ts ih => exact (ih _).trans (hf g _ _)

theorem Group.spStored_scratch (ts : List Thread) (o : Thread → Nat) (data : Thread → List Byte) (g : Group) :
    (g.spStored ts o data).scratch = stored g.scratch ts (fun t => g.spOffset (o t)) data := by
  unfold Group.spStored stored
  induction ts generalizing g with
  | nil => rfl
  | cons t ts ih => exact ih _

theorem engineChange_spStored (ts : List Thread) (o : Thread → Nat) (data : Thread → List Byte) :
    EngineChange (Group.spStored ts o data) := fun g =>
  ⟨g.spStored_keeps (fun _ _ _ => rfl) ts o data, g.spStored_keeps (fun _ _ _ => rfl) ts o data,
    g.spStored_keeps (fun _ _ _ => rfl) ts o data, g.spStored_keeps (fun _ _ _ => rfl) ts o data⟩

/-- Counting bank conflicts changes the clusters alone. -/
theorem State.conflicts_eq (s : State) (cl : Nat) (ws : List Nat) : ∃ k, s.conflicts cl ws = { s with clusters := k } := ⟨_, rfl⟩

theorem sts_completes {e : Ext} {s : State} {c : Cx} (h : s.readyE .sts e = some c)
    (ho : ∀ th ∈ c.act, c.sp th e.scale % c.width = 0 ∧ c.sp th e.scale + c.width ≤ c.g.launch.space) :
    ∃ t, exec (.sts e) s = .next t ∧ SameRegs s t ∧ t.ms = s.ms
      ∧ t.groupAt c.gi Group.scratch = some (stored c.g.scratch c.act (fun th => c.g.spOffset (c.sp th e.scale)) c.data)
      ∧ ∀ gi, gi ≠ c.gi → t.groupAt gi Group.scratch = s.groupAt gi Group.scratch := by
  obtain ⟨hg, -, -, rfl⟩ := State.ready_at h
  have hnone : Cx.bads c.act (fun t => spFault (c.sp t c.e.scale) c.width 0 c.g.launch.space true) = [] :=
    Cx.bads_none fun t ht => spFault_none true (ho t ht).1 (ho t ht).2
  obtain ⟨k, hk⟩ := s.conflicts_eq c.g.cl (spWords c.width (c.act.map fun t => c.sp t c.e.scale)).eraseDups
  have hbody : stsBody c s = .done (({ s with clusters := k } : State).setGroup c.gi
      (Group.spStored c.act (fun t => c.sp t c.e.scale) c.data)) := by
    unfold stsBody
    dsimp only
    rw [hnone, hk]
    rfl
  generalize hs' : ({ s with clusters := k } : State).setGroup c.gi (Group.spStored c.act (fun t => c.sp t c.e.scale) c.data) = s'
    at hbody
  have hcores := Act.outcome_done_cores c s s'
  have hat : ∀ gi, ((Act.done s').outcome c s).groupAt gi Group.scratch = s'.groupAt gi Group.scratch :=
    fun gi => State.groupAt_of_cores hcores gi _ fun _ => rfl
  have hregs : SameRegs s s' := by
    rw [← hs']
    exact (engineChange_spStored _ _ _).sameRegs { s with clusters := k } c.gi
  refine ⟨_, by rw [exec_sts h, hbody], fun gi k r => (State.reg_of_cores hcores gi k r).trans (hregs gi k r), ?_, ?_, fun gi hgi => ?_⟩
  · rw [Act.outcome_done_ms, ← hs', State.setGroup_ms]
  · rw [hat, ← hs', State.groupAt, State.setGroup_get, if_pos rfl, hg, Option.map_some, Option.map_some, Group.spStored_scratch]
  · rw [hat, ← hs', State.groupAt, State.setGroup_get, if_neg (Ne.symm hgi)]
    rfl

/-! ### STX -/

theorem exec_stx {e : Ext} {s : State} {c : Cx} (h : s.readyE .stx e = some c) :
    exec (.stx e) s = .next ((stxBody c s).outcome c s) := issueE_ready stxBody h

/-- Where groups of tasks are is read of their tasks, their indices and the task list alone. -/
def State.SamePlaces (s u : State) : Prop :=
  u.groups.map (fun g => (g.task, g.gidx)) = s.groups.map (fun g => (g.task, g.gidx)) ∧ u.tasks = s.tasks

theorem State.SamePlaces.targetGroup {s u : State} (h : s.SamePlaces u) (task gidx : Nat) :
    u.targetGroup task gidx = s.targetGroup task gidx := by
  have hfind : ∀ v : State, (v.groups.findIdx? fun g => g.task = task && g.gidx = gidx) =
      (v.groups.map fun g => (g.task, g.gidx)).findIdx? fun x => x.1 = task && x.2 = gidx := fun v => by
    rw [List.findIdx?_map]
    rfl
  unfold State.targetGroup State.taskOf
  rw [hfind, hfind, h.1, h.2]

theorem State.SamePlaces.setGroup {s u : State} (h : s.SamePlaces u) (i : Nat) (f : Group → Group)
    (hf : ∀ g, (f g).task = g.task ∧ (f g).gidx = g.gidx) : s.SamePlaces (u.setGroup i f) :=
  ⟨(map_modAt_of _ f (fun g => Prod.ext (hf g).1 (hf g).2) u.groups i).trans h.1, h.2⟩

/-- One thread's STX, for where its member is (R155, R212). -/
def Cx.stxStep (c : Cx) (dest : Nat) (u : State) (t : Thread) : GroupAt → State
  | .here gi => u.setGroup gi fun g => g.stxPut (c.sp t c.e.scale) (c.data t)
  | .finished => u
  | .later => { u with uids := u.uids + 1 }.setGroup c.gi fun g => { g with stx := g.stx ++
      [({ id := u.uids + 1, key := t.key, gidx := dest, off := c.sp t c.e.scale, data := c.data t } : Stx)] }

/-- What one thread's STX does to the storage of a group. -/
def Cx.stxBytes (c : Cx) (gi : Nat) (g : Group) (m : Memory) (t : Thread) : GroupAt → Memory
  | .here i => if i = gi then Memory.writeN m (g.shadowOffset (c.sp t c.e.scale)) (c.data t) else m
  | _ => m

/-- What one thread's STX leaves to be delivered. -/
def Cx.stxLater (c : Cx) (dest : Nat) (t : Thread) : GroupAt → Option (Key × Nat × Nat × List Byte)
  | .later => some (t.key, dest, c.sp t c.e.scale, c.data t)
  | _ => none

/-- An undelivered store without its identity. -/
def Stx.content (x : Stx) : Key × Nat × Nat × List Byte := (x.key, x.gidx, x.off, x.data)

theorem Cx.stxStep_samePlaces {c : Cx} {s u : State} (h : s.SamePlaces u) (dest : Nat) (t : Thread) (w : GroupAt) :
    s.SamePlaces (c.stxStep dest u t w) := by
  cases w with
  | here gi => exact h.setGroup gi _ fun _ => ⟨rfl, rfl⟩
  | finished => exact h
  | later => exact State.SamePlaces.setGroup (u := { u with uids := u.uids + 1 }) h c.gi _ fun _ => ⟨rfl, rfl⟩

theorem Cx.stxStep_ms (c : Cx) (dest : Nat) (u : State) (t : Thread) (w : GroupAt) : (c.stxStep dest u t w).ms = u.ms := by
  cases w <;> rfl

theorem Cx.stxStep_sameRegs (c : Cx) (dest : Nat) (u : State) (t : Thread) (w : GroupAt) : SameRegs u (c.stxStep dest u t w) := by
  have put : ∀ o bytes, EngineChange fun g => g.stxPut o bytes := fun _ _ _ => ⟨rfl, rfl, rfl, rfl⟩
  have wait : ∀ x : Stx, EngineChange fun g => { g with stx := g.stx ++ [x] } := fun _ _ => ⟨rfl, rfl, rfl, rfl⟩
  cases w with
  | here gi => exact (put _ _).sameRegs u gi
  | finished => exact fun _ _ _ => rfl
  | later => exact (wait _).sameRegs { u with uids := u.uids + 1 } c.gi

/-- What is read of the groups' storage after the step. -/
theorem Cx.stxStep_scratch {α : Type} (c : Cx) (dest : Nat) (u : State) (t : Thread) (w : GroupAt) (gi : Nat)
    (f : Group → Memory → α) (hf : ∀ (g h : Group) m, h.swapped = g.swapped → h.launch = g.launch → f h m = f g m) :
    ((c.stxStep dest u t w).groupAt gi fun g => f g g.scratch) = u.groupAt gi fun g => f g (c.stxBytes gi g g.scratch t w) := by
  have other : ∀ (v : State) (i : Nat) (F : Group → Group), i ≠ gi →
      (v.setGroup i F).groupAt gi (fun g => f g g.scratch) = v.groupAt gi fun g => f g g.scratch := fun v i F hi => by
    rw [State.groupAt, State.setGroup_get, if_neg hi]
    rfl
  have same : ∀ (v : State) (F : Group → Group), (∀ g, (F g).swapped = g.swapped ∧ (F g).launch = g.launch) →
      (v.setGroup gi F).groupAt gi (fun g => f g g.scratch) = v.groupAt gi fun g => f g (F g).scratch := fun v F hF => by
    rw [State.groupAt, State.setGroup_get, if_pos rfl, Option.map_map]
    exact congrArg (Option.map · _) (funext fun g => hf _ _ _ (hF g).1 (hF g).2)
  cases w with
  | here i =>
    by_cases hi : i = gi
    · subst hi
      simp only [Cx.stxBytes, if_true]
      exact same u _ fun _ => ⟨rfl, rfl⟩
    · simp only [Cx.stxBytes, if_neg hi]
      exact other u i _ hi
  | finished => rfl
  | later =>
    by_cases hi : c.gi = gi
    · subst hi
      exact same { u with uids := u.uids + 1 } _ fun _ => ⟨rfl, rfl⟩
    · exact other { u with uids := u.uids + 1 } c.gi _ hi

theorem Cx.stxStep_stx (c : Cx) (dest : Nat) (u : State) (t : Thread) (w : GroupAt) :
    ((c.stxStep dest u t w).groupAt c.gi Group.stx).map (List.map Stx.content) =
      (u.groupAt c.gi Group.stx).map fun xs => xs.map Stx.content ++ (c.stxLater dest t w).toList := by
  cases w with
  | here i =>
    have hsame : (u.setGroup i fun g => g.stxPut (c.sp t c.e.scale) (c.data t)).groupAt c.gi Group.stx = u.groupAt c.gi Group.stx := by
      rw [State.groupAt, State.setGroup_get, State.groupAt]
      split
      · rw [Option.map_map]
        rfl
      · rfl
    simp only [Cx.stxStep, hsame, Cx.stxLater, Option.toList_none, List.append_nil]
  | finished => simp only [Cx.stxStep, Cx.stxLater, Option.toList_none, List.append_nil]
  | later =>
    simp only [Cx.stxStep, Cx.stxLater, Option.toList_some]
    rw [State.groupAt, State.setGroup_get, if_pos rfl, State.groupAt]
    cases u.groups[c.gi]? with
    | none => rfl
    | some g => simp [Stx.content]

/-- The STX of several threads in order. -/
def Cx.stxAll (c : Cx) (dest : Thread → Nat) (w : Thread → GroupAt) (ts : List Thread) (u : State) : State :=
  ts.foldl (fun u t => c.stxStep (dest t) u t (w t)) u

/-- No STX changes where groups are, so that each may be looked up in the state before them all. -/
theorem Cx.stxAll_eq {c : Cx} {s : State} (dest : Thread → Nat) (ts : List Thread) {u : State} (h : s.SamePlaces u) :
    ts.foldl (fun u t => c.stxStep (dest t) u t (u.targetGroup c.g.task (dest t))) u =
      c.stxAll dest (fun t => s.targetGroup c.g.task (dest t)) ts u := by
  unfold Cx.stxAll
  induction ts generalizing u with
  | nil => rfl
  | cons t ts ih =>
    rw [List.foldl_cons, List.foldl_cons, h.targetGroup]
    exact ih (Cx.stxStep_samePlaces h _ _ _)

theorem Cx.stxAll_ms (c : Cx) (dest : Thread → Nat) (w : Thread → GroupAt) (ts : List Thread) (u : State) :
    (c.stxAll dest w ts u).ms = u.ms := by
  unfold Cx.stxAll
  induction ts generalizing u with
  | nil => rfl
  | cons t ts ih => exact (ih _).trans (c.stxStep_ms _ _ _ _)

theorem Cx.stxAll_sameRegs (c : Cx) (dest : Thread → Nat) (w : Thread → GroupAt) (ts : List Thread) (u : State) :
    SameRegs u (c.stxAll dest w ts u) := by
  unfold Cx.stxAll
  induction ts generalizing u with
  | nil => exact fun _ _ _ => rfl
  | cons t ts ih => exact fun gi k r => (ih _ gi k r).trans (c.stxStep_sameRegs _ _ _ _ gi k r)

/-- The storage of a group after the threads' STX, in order. -/
def Cx.stxMemory (c : Cx) (w : Thread → GroupAt) (gi : Nat) (ts : List Thread) (g : Group) (m : Memory) : Memory :=
  ts.foldl (fun m t => c.stxBytes gi g m t (w t)) m

theorem Cx.stxBytes_congr (c : Cx) (gi : Nat) {g h : Group} (hs : h.swapped = g.swapped) (hl : h.launch = g.launch) (m : Memory)
    (t : Thread) (w : GroupAt) : c.stxBytes gi h m t w = c.stxBytes gi g m t w := by
  unfold Cx.stxBytes Group.shadowOffset
  rw [hs, hl]

theorem Cx.stxMemory_congr (c : Cx) (w : Thread → GroupAt) (gi : Nat) (ts : List Thread) {g h : Group} (m : Memory)
    (hs : h.swapped = g.swapped) (hl : h.launch = g.launch) : c.stxMemory w gi ts h m = c.stxMemory w gi ts g m := by
  unfold Cx.stxMemory
  exact congrArg (fun f => ts.foldl f m) (funext fun m => funext fun t => c.stxBytes_congr gi hs hl m t (w t))

theorem Cx.stxAll_scratch (c : Cx) (dest : Thread → Nat) (w : Thread → GroupAt) (gi : Nat) (ts : List Thread) (u : State) :
    (c.stxAll dest w ts u).groupAt gi Group.scratch = u.groupAt gi fun g => c.stxMemory w gi ts g g.scratch := by
  induction ts generalizing u with
  | nil => rfl
  | cons t ts ih =>
    refine (ih (c.stxStep (dest t) u t (w t))).trans ?_
    exact c.stxStep_scratch (dest t) u t (w t) gi (c.stxMemory w gi ts) fun g h m hs hl => c.stxMemory_congr w gi ts m hs hl

theorem Cx.stxAll_stx (c : Cx) (dest : Thread → Nat) (w : Thread → GroupAt) (ts : List Thread) (u : State) :
    ((c.stxAll dest w ts u).groupAt c.gi Group.stx).map (List.map Stx.content) =
      (u.groupAt c.gi Group.stx).map fun xs => xs.map Stx.content ++ ts.filterMap fun t => c.stxLater (dest t) t (w t) := by
  induction ts generalizing u with
  | nil => simp [Cx.stxAll]
  | cons t ts ih =>
    have hstep := c.stxStep_stx (dest t) u t (w t)
    refine (ih (c.stxStep (dest t) u t (w t))).trans ?_
    have hmap : ∀ (o : Option (List Stx)) (l : List (Key × Nat × Nat × List Byte)),
        (o.map fun xs => xs.map Stx.content ++ l) = (o.map (List.map Stx.content)).map fun ys => ys ++ l := fun o l => by
      rw [Option.map_map]
      rfl
    rw [hmap, hstep, Option.map_map]
    refine congrArg (Option.map · _) (funext fun xs => ?_)
    simp only [Function.comp, List.append_assoc, List.filterMap_cons]
    cases c.stxLater (dest t) t (w t) <;> rfl

/-- Counting conflicts in several clusters changes the clusters alone. -/
theorem foldl_conflicts {α : Type} (cl : α → Nat) (ws : α → List Nat) (xs : List α) (s : State) :
    ∃ k, xs.foldl (fun s x => s.conflicts (cl x) (ws x)) s = { s with clusters := k } := by
  induction xs generalizing s with
  | nil => exact ⟨s.clusters, rfl⟩
  | cons x xs ih =>
    obtain ⟨k, hk⟩ := ih (s.conflicts (cl x) (ws x))
    exact ⟨k, hk⟩

/-- STX without a fault delivers, drops or keeps the store of each thread (R212). -/
theorem stxBody_done {c : Cx} {s : State} {set : Nat} {entry : BitVec 64} {m : Nat} (hx : c.g.xchgSet = some (set, entry, m))
    (hf : ∀ th ∈ c.act, c.stxFault (setCount entry) th = none) :
    ∃ k, stxBody c s = .done (c.stxAll (fun t => s.memberGroup c.g entry (c.member t))
      (fun t => s.targetGroup c.g.task (s.memberGroup c.g entry (c.member t))) c.act { s with clusters := k }) := by
  unfold stxBody
  rw [hx]
  dsimp only
  rw [Cx.bads_none hf]
  obtain ⟨k, hk⟩ := foldl_conflicts (fun x : Group × Nat => x.1.cl) (fun x => (spWords c.width ((c.act.filter fun t =>
    match s.targetGroup c.g.task (s.memberGroup c.g entry (c.member t)) with
    | .here i => decide (i = x.2)
    | _ => false).map fun t => c.sp t c.e.scale)).eraseDups) s.groups.zipIdx s
  refine ⟨k, ?_⟩
  rw [if_neg (by simp), ← Cx.stxAll_eq (s := s) (u := { s with clusters := k }) _ _ ⟨rfl, rfl⟩, ← hk]
  rfl

theorem stx_completes {e : Ext} {s : State} {c : Cx} {set : Nat} {entry : BitVec 64} {m : Nat} (h : s.readyE .stx e = some c)
    (hx : c.g.xchgSet = some (set, entry, m)) (hf : ∀ th ∈ c.act, c.stxFault (setCount entry) th = none) :
    let dest : Thread → Nat := fun th => s.memberGroup c.g entry (c.member th)
    let w : Thread → GroupAt := fun th => s.targetGroup c.g.task (dest th)
    ∃ t, exec (.stx e) s = .next t ∧ SameRegs s t ∧ t.ms = s.ms
      ∧ (∀ gi, t.groupAt gi Group.scratch = s.groupAt gi fun g => c.stxMemory w gi c.act g g.scratch)
      ∧ (t.groupAt c.gi Group.stx).map (List.map Stx.content) =
          some (c.g.stx.map Stx.content ++ c.act.filterMap fun th => c.stxLater (dest th) th (w th)) := by
  intro dest w
  obtain ⟨hg, -⟩ := State.ready_at h
  obtain ⟨k, hbody⟩ := stxBody_done (s := s) hx hf
  have hcores := Act.outcome_done_cores c s (c.stxAll dest w c.act { s with clusters := k })
  refine ⟨_, by rw [exec_stx h, hbody], fun gi k r => ?_, ?_, fun gi => ?_, ?_⟩
  · exact (State.reg_of_cores hcores gi k r).trans (c.stxAll_sameRegs dest w c.act _ gi k r)
  · rw [Act.outcome_done_ms, Cx.stxAll_ms]
  · rw [State.groupAt_of_cores hcores gi _ fun _ => rfl, Cx.stxAll_scratch]
    rfl
  · rw [State.groupAt_of_cores hcores c.gi _ fun _ => rfl, Cx.stxAll_stx]
    show ((s.groups[c.gi]?).map Group.stx).map _ = _
    rw [hg]
    rfl

/-- Settles O27: STS by the stores of its threads, STX by the step of each thread for where its member is. -/
theorem scratchStores : Obligations.ScratchStores := by
  unfold Obligations.ScratchStores
  refine ⟨fun e s c hc ho => sts_completes hc ho, fun e s c set entry m hc hx hf => ?_⟩
  obtain ⟨-, -, -, rfl⟩ := State.ready_at hc
  exact stx_completes hc hx hf

end Sys2Proof.Machine
end

section
/-! PROOFS. Sheaves (R118, R144 to R147, R150, R186): drawing, aging, the end of a delay and of a pin, and the order of issue. -/

namespace Sys2Proof.Machine

/-! ### Drawing -/

/-- A change of a group in which every register reads as before leaves every register. -/
theorem SameRegs.setGroup {F : Group → Group} (hF : ∀ g k r, (F g).reg k r = g.reg k r) (s : State) (i : Nat) :
    SameRegs s (s.setGroup i F) := by
  intro gi k r
  by_cases hi : i = gi
  · subst hi
    cases hg : s.groups[i]? with
    | none => cases r <;> simp [State.reg, State.thr, State.setGroup_get, hg]
    | some g =>
      rw [State.reg_eq (g := F g) (by rw [State.setGroup_get, if_pos rfl, hg]; rfl), State.reg_eq hg, hF]
  · exact s.setGroup_reg_other F hi k r

/-- Threads that move keep what the registers read. -/
theorem Group.reg_mapThreads {g h : Group} {f : Thread → Thread} (ht : h.threads = g.threads.map f) (hs : h.s = g.s)
    (hf : ∀ t, (f t).key = t.key ∧ (f t).v = t.v ∧ (f t).p = t.p) (k : Key) (r : Reg) : h.reg k r = g.reg k r := by
  have hkey : ((fun t : Thread => decide (t.key = k)) ∘ f) = fun t => decide (t.key = k) := funext fun t => by simp [(hf t).1]
  have hfind : h.find k = (g.find k).map f := by
    unfold Group.find
    rw [ht, List.find?_map, hkey]
  cases r with
  | v i => simp only [Group.reg, hfind, Option.map_map, Function.comp_def, (hf _).2.1]
  | s i => simp only [Group.reg, hs]
  | p i =>
    simp only [Group.reg, hfind, Option.map_map, Function.comp_def, Thread.pred, (hf _).2.2]
    rfl

/-- A thread that is drawn stands in its sheaf (R146). -/
def Thread.drawn (ks : List Key) (t : Thread) : Thread := if ks.contains t.key then { t with place := .sheaf } else t

theorem Thread.drawn_keeps (ks : List Key) (t : Thread) :
    (t.drawn ks).key = t.key ∧ (t.drawn ks).v = t.v ∧ (t.drawn ks).p = t.p := by
  unfold Thread.drawn
  split <;> exact ⟨rfl, rfl, rfl⟩

/-- The group after a bin has been drawn (R146). -/
def Group.drawBin (clock : Nat) (d : Draw) (ks : List Key) (g : Group) : Group :=
  { g with threads := g.threads.map (Thread.drawn ks), aged := g.aged.filter fun p => p.1 != d.pc
           sheaves := g.sheaves ++ [newSheaf ks d.pc clock] }

theorem State.drawBin_eq {s : State} {d : Draw} {g : Group} (hg : s.groups[d.gi]? = some g) :
    s.drawBin d = (s.setGroup d.gi (Group.drawBin s.clock d (g.compose s.clock d.pc))).count g.cl 3 1 := by
  unfold State.drawBin
  rw [hg]
  rfl

/-- A new sheaf is composed of threads of the group, of 32 at most (R146). -/
theorem Group.mem_compose {g : Group} {clock : Nat} {pc : Addr} {k : Key} (h : k ∈ g.compose clock pc) :
    ∃ t ∈ g.threads, t.key = k := by
  unfold Group.compose at h
  obtain ⟨t, ht, rfl⟩ := List.mem_map.mp h
  have hall : t ∈ sortKey ((g.binThreads clock pc).map Prod.fst) := by
    rcases List.mem_append.mp (List.mem_of_mem_take ht) with h | h <;> exact List.mem_of_mem_filter h
  obtain ⟨x, hx, rfl⟩ := List.mem_map.mp ((sortKey_perm _).mem_iff.mp hall)
  obtain ⟨u, hu, hux⟩ := List.mem_filterMap.mp hx
  refine ⟨x.1, ?_, rfl⟩
  split at hux
  · split at hux
    · cases hux
      exact hu
    · cases hux
  · cases hux

theorem Group.compose_length (g : Group) (clock : Nat) (pc : Addr) : (g.compose clock pc).length ≤ 32 := by
  unfold Group.compose
  rw [List.length_map]
  exact List.length_take_le _ _

theorem drawBin_completes {s : State} {d : Draw} {g : Group} (hg : s.groups[d.gi]? = some g) :
    SameRegs s (s.drawBin d) ∧ (s.drawBin d).ms = s.ms
      ∧ (∃ sh, (s.drawBin d).groupAt d.gi Group.sheaves = some (g.sheaves ++ [sh]) ∧ sh.members = g.compose s.clock d.pc
          ∧ sh.pc = d.pc ∧ sh.inClause = false ∧ sh.regions = [] ∧ sh.members.length ≤ 32)
      ∧ ∀ k ∈ g.compose s.clock d.pc, ((s.drawBin d).thr d.gi k).map Thread.place = some .sheaf := by
  have hat : (s.drawBin d).groups[d.gi]? = some (g.drawBin s.clock d (g.compose s.clock d.pc)) := by
    rw [State.drawBin_eq hg]
    show (s.setGroup d.gi _).groups[d.gi]? = _
    rw [State.setGroup_get, if_pos rfl, hg]
    rfl
  refine ⟨?_, ?_, ⟨newSheaf (g.compose s.clock d.pc) d.pc s.clock, ?_, rfl, rfl, rfl, rfl, g.compose_length _ _⟩, fun k hk => ?_⟩
  · rw [State.drawBin_eq hg]
    exact SameRegs.setGroup (F := Group.drawBin s.clock d (g.compose s.clock d.pc))
      (fun _ => Group.reg_mapThreads rfl rfl (Thread.drawn_keeps _)) s d.gi
  · rw [State.drawBin_eq hg]
    rfl
  · rw [State.groupAt, hat]
    rfl
  · obtain ⟨t, ht, rfl⟩ := Group.mem_compose hk
    obtain ⟨u, hu⟩ := Option.isSome_iff_exists.mp (Group.find_isSome_of_mem ht)
    have hkey : u.key = t.key := by simpa using List.find?_some hu
    have hfind : (g.drawBin s.clock d (g.compose s.clock d.pc)).find t.key = some (u.drawn (g.compose s.clock d.pc)) := by
      have hcomp : ((fun x : Thread => decide (x.key = t.key)) ∘ Thread.drawn (g.compose s.clock d.pc)) =
          fun x => decide (x.key = t.key) := funext fun x => by simp [(x.drawn_keeps _).1]
      unfold Group.find at hu ⊢
      show ((g.threads.map _).find? _) = _
      rw [List.find?_map, hcomp, hu]
      rfl
    rw [State.thr, hat]
    refine (congrArg (Option.map Thread.place) hfind).trans ?_
    unfold Thread.drawn
    rw [hkey, if_pos (by simpa using hk)]
    rfl

theorem exec_sheafDraw (cl slot : Nat) (s : State) : exec (.sheafDraw cl slot) s = .next (evSheafDraw cl slot s) := rfl

/-- A slot with a free context gives it to a sheaf that waits ahead of every bin (R147). -/
theorem evSheafDraw_ahead {s : State} {cl slot since gi : Nat} {k : Key} (hroom : s.contexts cl slot < 32)
    (h : s.firstAhead cl slot = some (since, gi, k)) : evSheafDraw cl slot s = s.resumeSheaf gi k := by
  unfold evSheafDraw
  rw [if_neg (by omega), h]

/-- Otherwise the context goes to what the order of R145 puts first. -/
theorem evSheafDraw_first {s : State} {cl slot : Nat} {d : Draw} (hroom : s.contexts cl slot < 32)
    (hnone : s.firstAhead cl slot = none) (hahead : s.contexts cl slot + s.aheads cl slot < 32)
    (hd : firstDraw (s.draws cl slot) = some d) :
    evSheafDraw cl slot s = (d.back.map fun k => s.resumeSheaf d.gi k).getD (s.drawBin d) := by
  unfold evSheafDraw
  rw [if_neg (by omega), hnone]
  dsimp only
  rw [if_neg (by omega), hd]
  dsimp only
  cases d.back <;> rfl

/-! ### Aging and the end of a delay -/

theorem exec_binAgeExpiry (gi : Nat) (pc : Addr) (s : State) : exec (.binAgeExpiry gi pc) s = .next (evBinAgeExpiry gi pc s) := rfl

theorem le_foldl_max (l : List Nat) (n : Nat) : n ≤ l.foldl Nat.max n ∧ ∀ x ∈ l, x ≤ l.foldl Nat.max n := by
  induction l generalizing n with
  | nil => exact ⟨Nat.le_refl n, fun _ h => absurd h List.not_mem_nil⟩
  | cons y ys ih =>
    obtain ⟨hle, hall⟩ := ih (Nat.max n y)
    refine ⟨(Nat.le_max_left n y).trans hle, fun x hx => ?_⟩
    rcases List.mem_cons.mp hx with rfl | hx
    · exact (Nat.le_max_right n x).trans hle
    · exact hall x hx

/-- A bin is aged for every thread that was filed 16 clocks ago (R145). -/
theorem binAge_completes {s : State} {gi : Nat} {pc : Addr} {g : Group} (hg : s.groups[gi]? = some g) (hd : g.delayed pc = false) :
    ∃ aged, SameRegs s (evBinAgeExpiry gi pc s) ∧ (evBinAgeExpiry gi pc s).ms = s.ms
      ∧ (evBinAgeExpiry gi pc s).groupAt gi Group.aged = some aged
      ∧ ∀ x ∈ g.binThreads s.clock pc, x.2 + 16 ≤ s.clock → ∃ y ∈ aged, y.1 = pc ∧ x.2 ≤ y.2 := by
  have hold : ∀ x ∈ g.binThreads s.clock pc, x.2 + 16 ≤ s.clock →
      x.2 ∈ ((g.binThreads s.clock pc).map Prod.snd).filter fun f => f + 16 ≤ s.clock := fun x hx h16 =>
    List.mem_filter.mpr ⟨List.mem_map_of_mem hx, by simpa using h16⟩
  unfold evBinAgeExpiry
  rw [hg]
  dsimp only
  rw [hd, Bool.false_or]
  split
  · next hall =>
    refine ⟨g.aged, fun _ _ _ => rfl, rfl, by rw [State.groupAt, hg]; rfl, fun x hx h16 => ?_⟩
    obtain ⟨y, hy, heq⟩ := List.any_eq_true.mp (List.all_eq_true.mp hall _ (hold x hx h16))
    simp only [Bool.and_eq_true, decide_eq_true_eq] at heq
    exact ⟨y, hy, heq⟩
  · refine ⟨(pc, (((g.binThreads s.clock pc).map Prod.snd).filter fun f => f + 16 ≤ s.clock).foldl Nat.max 0) ::
      g.aged.filter fun x => x.1 != pc, SameRegs.setGroup (fun _ _ r => by cases r <;> rfl) s gi, rfl, ?_, fun x hx h16 => ?_⟩
    · rw [State.groupAt, State.setGroup_get, if_pos rfl, hg]
      rfl
    · exact ⟨_, List.mem_cons_self, rfl, (le_foldl_max _ 0).2 _ (hold x hx h16)⟩

theorem exec_yieldDelayExpiry (gi : Nat) (pc : Addr) (s : State) :
    exec (.yieldDelayExpiry gi pc) s = .next (evYieldDelayExpiry gi pc s) := rfl

/-- A thread of a bin whose delay ends counts as filed now (R118). -/
def Thread.undelayed (clock : Nat) (pc : Addr) (t : Thread) : Thread :=
  match t.place with
  | .held .delay _ _ _ => if t.pc = pc then { t with place := .bin clock } else t
  | .bin _ => if t.pc = pc then { t with place := .bin clock } else t
  | _ => t

theorem Thread.undelayed_keeps (clock : Nat) (pc : Addr) (t : Thread) :
    (t.undelayed clock pc).key = t.key ∧ (t.undelayed clock pc).v = t.v ∧ (t.undelayed clock pc).p = t.p := by
  unfold Thread.undelayed
  split
  · split <;> exact ⟨rfl, rfl, rfl⟩
  · split <;> exact ⟨rfl, rfl, rfl⟩
  · exact ⟨rfl, rfl, rfl⟩

theorem Thread.undelayed_of_yields {clock : Nat} {pc : Addr} {t : Thread} (h : t.yields pc = true) :
    (t.undelayed clock pc).key = t.key ∧ (t.undelayed clock pc).place = .bin clock ∧ (t.undelayed clock pc).pc = pc := by
  unfold Thread.yields at h
  unfold Thread.undelayed
  split at h
  · next hp =>
    simp only [decide_eq_true_eq] at h
    rw [hp]
    dsimp only
    rw [if_pos h]
    exact ⟨rfl, rfl, h⟩
  · cases h

/-- The group after the delay of a YIELD (R118). -/
def Group.undelayed (clock : Nat) (pc : Addr) (g : Group) : Group :=
  { g with threads := g.threads.map (Thread.undelayed clock pc), aged := g.aged.filter fun x => x.1 != pc }

theorem evYieldDelayExpiry_over {s : State} {gi : Nat} {pc : Addr} {g : Group} (hg : s.groups[gi]? = some g)
    (hd : g.delayed pc = true)
    (hlate : ∀ th ∈ g.threads, ∀ site since order, th.place = .held .delay site since order → th.pc = pc → since + 32 ≤ s.clock) :
    evYieldDelayExpiry gi pc s = s.setGroup gi (Group.undelayed s.clock pc) := by
  unfold evYieldDelayExpiry
  rw [hg]
  dsimp only
  rw [hd, Bool.true_and, if_pos]
  · rfl
  · refine List.all_eq_true.mpr fun t ht => ?_
    split
    · next site since order hp =>
      by_cases hpc : t.pc = pc
      · simp [hlate t ht site since order hp hpc]
      · simp [hpc]
    · rfl

theorem yieldDelay_completes {s : State} {gi : Nat} {pc : Addr} {g : Group} (hg : s.groups[gi]? = some g) :
    SameRegs s (s.setGroup gi (Group.undelayed s.clock pc))
      ∧ ∀ th ∈ g.threads, th.yields pc = true →
        ∃ u ∈ (((s.setGroup gi (Group.undelayed s.clock pc)).groups[gi]?).map Group.threads).getD [],
          u.key = th.key ∧ u.place = .bin s.clock ∧ u.pc = pc := by
  refine ⟨SameRegs.setGroup (F := Group.undelayed s.clock pc)
    (fun _ => Group.reg_mapThreads rfl rfl (Thread.undelayed_keeps _ _)) s gi, fun th hth hy => ?_⟩
  refine ⟨th.undelayed s.clock pc, ?_, Thread.undelayed_of_yields hy⟩
  rw [State.setGroup_get, if_pos rfl, hg]
  exact List.mem_map_of_mem hth

/-! ### The end of a pin -/

theorem exec_pinTimeout (line : Nat) (s : State) : exec (.pinTimeout line) s = .next (evPinTimeout line s) := rfl

theorem State.flushFar_keeps (s : State) (a : Asker) (x : FarLine) : (s.flushFar a x).ms.mem = s.ms.mem
    ∧ (s.flushFar a x).ms.partials = s.ms.partials := by
  have asked : ∀ (l : List Nat) (f : State → Nat → State), (∀ u i, (f u i).ms = u.ms) → ∀ u, (l.foldl f u).ms = u.ms := fun l f hf => by
    induction l with
    | nil => exact fun _ => rfl
    | cons i is ih => exact fun u => (ih _).trans (hf u i)
  unfold State.flushFar
  refine ⟨(congrArg MemSide.mem (asked _ _ (fun u i => ?_) _)).trans rfl, (congrArg MemSide.partials (asked _ _ (fun u i => ?_) _)).trans rfl⟩
  all_goals
    dsimp only
    split <;> rfl

/-- The line of a pin that has ended goes home, and every byte reads as before (R186). -/
theorem State.writeBack_keeps (s : State) (p : Pin) : (s.writeBack p).ms.mem = s.ms.mem ∧ (s.writeBack p).ms.partials = s.ms.partials := by
  unfold State.writeBack
  split
  · exact State.flushFar_keeps _ _ _
  · split
    · exact ⟨rfl, rfl⟩
    · obtain ⟨hm, hp, -⟩ := s.writeHome_keeps (some p.cl) p.vf p.arena p.line
      exact ⟨hm, hp⟩

/-- Where nothing waits for the pins, their end leaves every byte (R186). -/
theorem State.endPins_byte {s : State} (hl : s.ms.late = []) (ends : Pin → Bool) (a : Nat) : (s.endPins ends).byte a = s.byte a := by
  have folded : ∀ (ps : List Pin) (u : State), (ps.foldl State.writeBack u).ms.mem = u.ms.mem
      ∧ (ps.foldl State.writeBack u).ms.partials = u.ms.partials := fun ps => by
    induction ps with
    | nil => exact fun _ => ⟨rfl, rfl⟩
    | cons p ps ih => exact fun u => ⟨(ih _).1.trans (u.writeBack_keeps p).1, (ih _).2.trans (u.writeBack_keeps p).2⟩
  unfold State.endPins
  rw [hl]
  exact State.byte_pins (folded _ _).1 (folded _ _).2 a

theorem pinTimeout_completes {s : State} (hl : s.Settled) (line : Nat) :
    (∀ a, (evPinTimeout line s).byte a = s.byte a) ∧ SameRegs s (evPinTimeout line s)
      ∧ (evPinTimeout line s).groups.map Group.uid = s.groups.map Group.uid
      ∧ ∀ p, p ∈ (evPinTimeout line s).ms.pins ↔ p ∈ s.ms.pins ∧ ¬ (p.line = line ∧ p.taken + 65536 ≤ s.clock) := by
  have quiet := s.endPins_quiet fun p => p.line = line && p.taken + 65536 ≤ s.clock
  refine ⟨State.endPins_byte hl _, quiet.sameRegs, quiet.uids, fun p => ?_⟩
  rw [evPinTimeout, quiet.pins]
  simp only [List.mem_filter, Bool.not_eq_true', Bool.and_eq_false_iff, decide_eq_false_iff_not, ← not_and_or]

/-! ### The order of issue (R150) -/

/-- The order of R150, rule by rule. -/
theorem Offer.before_iff (a b : Offer) : a.before b = true ↔
    (256 ≤ a.idle ∧ ¬ 256 ≤ b.idle) ∨ (256 ≤ a.idle ∧ 256 ≤ b.idle ∧ b.idle < a.idle)
      ∨ (((256 ≤ a.idle ∧ 256 ≤ b.idle ∧ a.idle = b.idle) ∨ (¬ 256 ≤ a.idle ∧ ¬ 256 ≤ b.idle)) ∧
        (a.recent < b.recent ∨ (a.recent = b.recent ∧ (a.drawn < b.drawn ∨ (a.drawn = b.drawn ∧
          (a.gidx < b.gidx ∨ (a.gidx = b.gidx ∧ a.low < b.low))))))) := by
  unfold Offer.before
  dsimp only
  simp only [bne_iff_ne, ne_eq, Bool.and_eq_true, decide_eq_true_eq, decide_eq_decide]
  split_ifs <;> simp only [decide_eq_true_eq] <;> omega

theorem Offer.before_trans {a b c : Offer} (hab : a.before b = true) (hbc : b.before c = true) : a.before c = true := by
  rw [Offer.before_iff] at hab hbc ⊢
  omega

theorem Offer.before_asymm {a b : Offer} (h : a.before b = true) : b.before a = false := by
  rw [Bool.eq_false_iff, Ne, Offer.before_iff]
  rw [Offer.before_iff] at h
  omega

/-- None comes before an earlier one. -/
def OffersSorted (l : List Offer) : Prop := l.Pairwise fun x y => y.before x = false

theorem mem_insertOffer {x y : Offer} {l : List Offer} : x ∈ insertOffer y l ↔ x = y ∨ x ∈ l := by
  induction l with
  | nil => simp [insertOffer]
  | cons z zs ih =>
    rw [insertOffer]
    split
    · rw [List.mem_cons]
    · rw [List.mem_cons, ih, List.mem_cons]
      tauto

theorem mem_sortOffers {x : Offer} {l : List Offer} : x ∈ sortOffers l ↔ x ∈ l := by
  induction l with
  | nil => rfl
  | cons y ys ih => rw [sortOffers, mem_insertOffer, ih, List.mem_cons]

theorem OffersSorted.insert {x : Offer} {l : List Offer} (h : OffersSorted l) : OffersSorted (insertOffer x l) := by
  induction l with
  | nil => exact List.pairwise_singleton _ _
  | cons y ys ih =>
    obtain ⟨hy, hys⟩ := List.pairwise_cons.mp h
    rw [insertOffer]
    split
    · next hxy =>
      refine List.pairwise_cons.mpr ⟨fun z hz => ?_, h⟩
      rcases List.mem_cons.mp hz with rfl | hz
      · exact Offer.before_asymm hxy
      · rw [Bool.eq_false_iff]
        intro hzx
        exact Bool.eq_false_iff.mp (hy z hz) (Offer.before_trans hzx hxy)
    · next hxy =>
      refine List.pairwise_cons.mpr ⟨fun z hz => ?_, ih hys⟩
      rcases mem_insertOffer.mp hz with rfl | hz
      · exact Bool.eq_false_iff.mpr hxy
      · exact hy z hz

theorem sortOffers_sorted (l : List Offer) : OffersSorted (sortOffers l) := by
  induction l with
  | nil => exact List.Pairwise.nil
  | cons x xs ih => exact ih.insert

/-- A slot offers its sheaves inside a clause that do not wait (R150). -/
theorem State.mem_offers {s : State} {cl slot : Nat} {x : Offer} : x ∈ s.offers cl slot ↔
    ∃ g ∈ s.groups, g.cl = cl ∧ g.slot = slot ∧ ∃ sh ∈ g.sheaves,
      (sh.atRc 9).inClause = true ∧ s.waits g sh = false ∧ x = s.offerOf g sh := by
  simp only [State.offers, mem_sortOffers, State.drawnAt, List.mem_map, List.mem_flatMap, List.mem_filter, Bool.and_eq_true,
    decide_eq_true_eq, Bool.not_eq_true']
  constructor
  · rintro ⟨-, ⟨g, ⟨hg, hcl, hslot⟩, sh, ⟨hsh, hin, hw⟩, rfl⟩, rfl⟩
    exact ⟨g, hg, hcl, hslot, sh, hsh, hin, hw, rfl⟩
  · rintro ⟨g, hg, hcl, hslot, sh, hsh, hin, hw, rfl⟩
    exact ⟨_, ⟨g, ⟨hg, hcl, hslot⟩, sh, ⟨hsh, hin, hw⟩, rfl⟩, rfl⟩

/-- Settles O48: each event by what it comes to, and the order of issue by the sort that the slot does. -/
theorem sheafEvents : Obligations.SheafEvents := by
  unfold Obligations.SheafEvents
  refine ⟨⟨fun s cl slot hroom => ⟨fun since gi k h => ?_, fun d g hnone hahead hd hg _ => ⟨fun k hk => ?_, fun hk => ?_⟩⟩,
    fun s gi pc g hg hd => ?_, fun s gi pc g hg hd hlate => ?_, fun s line _ hl => ⟨_, exec_pinTimeout line s, pinTimeout_completes hl line⟩⟩,
    Offer.before_iff, fun s cl slot => ⟨fun x xs h y hy => ?_, fun x => State.mem_offers⟩⟩
  · rw [exec_sheafDraw, evSheafDraw_ahead hroom h]
  · rw [exec_sheafDraw, evSheafDraw_first hroom hnone hahead hd, hk]
    rfl
  · refine ⟨s.drawBin d, ?_, drawBin_completes hg⟩
    rw [exec_sheafDraw, evSheafDraw_first hroom hnone hahead hd, hk]
    rfl
  · obtain ⟨aged, hregs, hms, haged, hall⟩ := binAge_completes hg hd
    exact ⟨_, aged, exec_binAgeExpiry gi pc s, hregs, hms, haged, hall⟩
  · obtain ⟨hregs, hall⟩ := yieldDelay_completes (pc := pc) hg
    exact ⟨_, by rw [exec_yieldDelayExpiry, evYieldDelayExpiry_over hg hd hlate], hregs, rfl, hall⟩
  · have hsorted : OffersSorted (x :: xs) := h ▸ sortOffers_sorted _
    exact (List.pairwise_cons.mp hsorted).1 y hy

end Sys2Proof.Machine
end

section
/-! PROOFS. The ends of groups and tasks, and aging (R119, R156, R186, R251, R266, R269, R271, R275). -/

namespace Sys2Proof.Machine

/-! ### Work that leaves the tasks but for when they became ready -/

/-- A task without the clocks of its readiness (R266, R271). -/
def Task.timeless (t : Task) : Task := { t with readyAt := 0, agedAt := 0 }

/-- A task that becomes ready at a time and a clock (R266, R271). -/
def Task.ready (ns clock : Nat) (t : Task) : Task := { t with readyAt := ns, agedAt := clock }

/-- What work for a task leaves: groups but for held threads, pins, and the tasks but for when they became ready. -/
structure State.Stirs (s t : State) : Prop where
  groups : ∃ f : Group → Group, (∀ g : Group, g.Woken (f g)) ∧ t.groups = s.groups.map f
  pins : t.ms.pins = s.ms.pins
  tasks : t.tasks.map Task.timeless = s.tasks.map Task.timeless

theorem State.Quiet.stirs {s t : State} (h : s.Quiet t) : s.Stirs t := ⟨h.groups, h.pins, by rw [h.tasks]⟩

theorem State.Stirs.of_eq {s t : State} (hg : t.groups = s.groups) (hp : t.ms.pins = s.ms.pins)
    (ht : t.tasks.map Task.timeless = s.tasks.map Task.timeless) : s.Stirs t :=
  ⟨⟨id, Group.Woken.refl, by simpa using hg⟩, hp, ht⟩

theorem State.Stirs.refl (s : State) : s.Stirs s := .of_eq rfl rfl rfl

theorem State.Stirs.trans {s t u : State} (h : s.Stirs t) (h' : t.Stirs u) : s.Stirs u := by
  obtain ⟨f, hf, hg⟩ := h.groups
  obtain ⟨f', hf', hg'⟩ := h'.groups
  exact ⟨⟨f' ∘ f, fun g => (hf g).trans (hf' (f g)), by rw [hg', hg, List.map_map]⟩, h'.pins.trans h.pins, h'.tasks.trans h.tasks⟩

theorem State.Stirs.foldl {α : Type} {f : State → α → State} (hf : ∀ (u : State) x, u.Stirs (f u x)) (xs : List α) (s : State) :
    s.Stirs (xs.foldl f s) := by
  induction xs generalizing s with
  | nil => exact .refl s
  | cons x xs ih => exact (hf s x).trans (ih _)

theorem State.Stirs.cores {s t : State} (h : s.Stirs t) : t.cores = s.cores := by
  obtain ⟨f, hf, hgs⟩ := h.groups
  unfold State.cores
  rw [hgs, List.map_map]
  exact List.map_congr_left fun g _ => (hf g).core

theorem State.uids_of_cores {s t : State} (h : t.cores = s.cores) : t.groups.map Group.uid = s.groups.map Group.uid := by
  have hcore : ∀ l : List Group, l.map Group.uid = (l.map Group.core).map Group.uid := fun l => by rw [List.map_map]; rfl
  rw [hcore, hcore s.groups]
  exact congrArg _ h

/-- The identities of the tasks. -/
theorem State.Stirs.taskUids {s t : State} (h : s.Stirs t) : t.tasks.map Task.uid = s.tasks.map Task.uid := by
  have htl : ∀ l : List Task, l.map Task.uid = (l.map Task.timeless).map Task.uid := fun l => by rw [List.map_map]; rfl
  rw [htl, htl s.tasks, h.tasks]

/-- A task is still there, but for when it became ready. -/
theorem State.Stirs.task {s t : State} (h : s.Stirs t) {k : Task} (hk : k ∈ s.tasks) : ∃ k' ∈ t.tasks, k'.timeless = k.timeless := by
  have hin : k.timeless ∈ t.tasks.map Task.timeless := h.tasks ▸ List.mem_map_of_mem hk
  exact List.mem_map.mp hin

theorem State.note_quiet (s : State) (t : Tally) : s.Quiet (s.note t) := .of_eq rfl rfl rfl rfl rfl rfl

theorem State.setVf_quiet (s : State) (i : Nat) (f : VF → VF) : s.Quiet (s.setVf i f) := .of_eq rfl rfl rfl rfl rfl rfl

/-- A task becomes READY (R266). -/
theorem State.makeReady_stirs (s : State) (vf i : Nat) : s.Stirs (s.makeReady vf i) := by
  have put := (s.tcbPut_quiet vf i 30 1 2).trans (State.tcbPut_quiet _ vf i 216 8 (s.tcbPut vf i 30 1 2).ns)
  unfold State.makeReady
  dsimp only
  split
  · refine put.stirs.trans (.of_eq rfl rfl ?_)
    exact map_modAt_of Task.timeless (Task.ready _ _) (fun _ => rfl) _ _
  · exact put.stirs

/-- A predecessor has ended (R269). -/
theorem State.decPred_stirs (s : State) (vf i : Nat) : s.Stirs (s.decPred vf i) := by
  unfold State.decPred
  dsimp only
  split
  · exact (s.note_quiet _).stirs
  · split
    · exact (s.tcbPut_quiet _ _ _ _ _).stirs.trans (State.makeReady_stirs _ _ _)
    · exact (s.tcbPut_quiet _ _ _ _ _).stirs

theorem State.reportCursor_stirs (s : State) (t : Task) (old new : Nat) : s.Stirs (s.reportCursor t old new) := by
  unfold State.reportCursor
  dsimp only
  split
  · exact .refl s
  · exact (s.tcbPut_quiet _ _ _ _ _).stirs.trans (.foldl (fun u _ => u.decPred_stirs _ _) _ _)

theorem State.post_quiet (s : State) (vf tgt value kind b9 h10 w12 : Nat) : s.Quiet (s.post vf tgt value kind b9 h10 w12) := by
  unfold State.post
  split
  · exact s.note_quiet _
  · next t _ =>
    dsimp only
    split
    · exact (s.devWrite_quiet _ _ _).trans (State.note_quiet _ _)
    · have written := (s.devWrite_quiet vf (t.ring + 64 + 16 * (s.devNat vf t.ring 8 % 2 ^ t.logn))
        (natBytes 8 value ++ natBytes 1 kind ++ natBytes 1 b9 ++ natBytes 2 h10 ++ natBytes 4 w12)).trans
        (State.devWrite_quiet _ vf t.ring (natBytes 8 (s.devNat vf t.ring 8 + 1)))
      exact written.trans (.of_eq rfl rfl rfl rfl rfl rfl)

theorem State.completionNotice_quiet (s : State) (vf i state err : Nat) : s.Quiet (s.completionNotice vf i state err) := by
  unfold State.completionNotice
  split
  · exact s.post_quiet _ _ _ _ _ _ _
  · exact .refl s

theorem State.dropArena_quiet (s : State) (vf h : Nat) : s.Quiet (s.dropArena vf h) := by
  unfold State.dropArena
  split
  · exact .of_eq rfl rfl rfl rfl rfl rfl
  · exact s.note_quiet _

/-! ### A group ends (R119, R156) -/

theorem exec_groupExit (gi : Nat) (s : State) : exec (.groupExit gi) s = .next (evGroupExit gi s) := rfl

/-- The task counts a group finished: its cursor goes past those that follow it (R156). -/
def Task.finish (gidx c : Nat) (fin : List Nat) (t : Task) : Task :=
  { t with cursor := c, finished := fin.filter fun i => c ≤ i, placed := t.placed.filter fun i => i != gidx }

/-- The state once a group that has nothing left to do is gone (R119, R156, R243). -/
def State.withoutGroup (s : State) (gi : Nat) (g : Group) : State :=
  (List.range g.markCount).foldl (fun s _ => s.note .mark) { s with groups := s.groups.eraseIdx gi }

theorem State.withoutGroup_quiet (s : State) (gi : Nat) (g : Group) :
    State.Quiet { s with groups := s.groups.eraseIdx gi } (s.withoutGroup gi g) := .foldl (fun u _ => u.note_quiet _) _ _

/-- Where the pins of a group have ended, and what it filled has gone (R185, R186). -/
theorem State.unpinned_quiet (s : State) (uid : Nat) :
    State.Quiet { s with ms := { s.ms with pins := s.ms.pins.filter fun p => !decide (p.group = uid) } }
      ((s.unpin uid).dropFills uid) :=
  (s.endPins_quiet fun p => p.group = uid).trans (.of_eq rfl rfl rfl rfl rfl rfl)

theorem evGroupExit_waits {s : State} {gi : Nat} {g : Group} (hg : s.groups[gi]? = some g) (hdone : s.groupDone g = true)
    (hwait : ((s.unpin g.uid).dropFills g.uid).groupDone g = false) :
    evGroupExit gi s = (s.unpin g.uid).dropFills g.uid := by
  unfold evGroupExit
  rw [hg]
  dsimp only
  rw [if_pos hdone, if_pos (by rw [hwait]; rfl)]

theorem evGroupExit_gone {s u : State} {gi : Nat} {g : Group} {k : Task} (hg : s.groups[gi]? = some g) (hdone : s.groupDone g = true)
    (hu : u = (s.unpin g.uid).dropFills g.uid) (hgone : u.groupDone g = true) (hk : (u.withoutGroup gi g).taskOf g.task = some k) :
    let fin := k.finished ++ [g.gidx]
    let c := advanceCursor fin.length k.cursor fin
    evGroupExit gi s = ((u.withoutGroup gi g).setTask k.uid (Task.finish g.gidx c fin)).reportCursor k k.cursor c := by
  intro fin c
  unfold evGroupExit
  rw [hg]
  dsimp only
  rw [if_pos hdone, ← hu, if_neg (by rw [hgone]; decide)]
  unfold State.withoutGroup at hk
  rw [hk]
  rfl

/-- The finished task counts the group: below its cursor, or among the finished, and no more among the placed (R156). -/
theorem Task.finish_counts (k : Task) (gidx c : Nat) :
    (gidx < (k.finish gidx c (k.finished ++ [gidx])).cursor ∨ gidx ∈ (k.finish gidx c (k.finished ++ [gidx])).finished)
      ∧ gidx ∉ (k.finish gidx c (k.finished ++ [gidx])).placed := by
  refine ⟨?_, fun h => ?_⟩
  · rcases Nat.lt_or_ge gidx c with h | h
    · exact .inl h
    · exact .inr (List.mem_filter.mpr ⟨by simp, by simpa using h⟩)
  · have := (List.mem_filter.mp h).2
    simp at this

theorem groupExit_gone {s : State} {gi : Nat} {g : Group} {k : Task} (hg : s.groups[gi]? = some g) (hdone : s.groupDone g = true)
    (hgone : ((s.unpin g.uid).dropFills g.uid).groupDone g = true) (hk : s.taskOf g.task = some k) :
    (evGroupExit gi s).groups.map Group.uid = (s.groups.eraseIdx gi).map Group.uid
      ∧ (∀ p ∈ (evGroupExit gi s).ms.pins, p.group ≠ g.uid)
      ∧ ∃ k' ∈ (evGroupExit gi s).tasks, k'.uid = k.uid ∧ (g.gidx < k'.cursor ∨ g.gidx ∈ k'.finished) ∧ g.gidx ∉ k'.placed := by
  have ended := s.unpinned_quiet g.uid
  generalize hu : (s.unpin g.uid).dropFills g.uid = u at ended hgone
  have erased := u.withoutGroup_quiet gi g
  have htask : (u.withoutGroup gi g).taskOf g.task = some k := by
    unfold State.taskOf at hk ⊢
    rw [erased.tasks]
    exact (congrArg (List.find? _) ended.tasks).trans hk
  rw [evGroupExit_gone hg hdone hu.symm hgone htask]
  generalize advanceCursor (k.finished ++ [g.gidx]).length k.cursor (k.finished ++ [g.gidx]) = c
  have reported := State.reportCursor_stirs
    ((u.withoutGroup gi g).setTask k.uid (Task.finish g.gidx c (k.finished ++ [g.gidx]))) k k.cursor c
  refine ⟨?_, fun p hp => ?_, ?_⟩
  · rw [State.uids_of_cores reported.cores]
    refine (State.uids_of_cores erased.cores).trans ?_
    have huids := State.uids_of_cores ended.cores
    show (u.groups.eraseIdx gi).map Group.uid = _
    rw [← List.eraseIdx_map, huids, List.eraseIdx_map]
  · rw [reported.pins] at hp
    have hp' : p ∈ u.ms.pins := by
      rw [← erased.pins]
      exact hp
    rw [ended.pins] at hp'
    simpa using (List.mem_filter.mp hp').2
  · have hmem : k ∈ (u.withoutGroup gi g).tasks := List.mem_of_find?_eq_some htask
    have hfin : k.finish g.gidx c (k.finished ++ [g.gidx]) ∈
        ((u.withoutGroup gi g).setTask k.uid (Task.finish g.gidx c (k.finished ++ [g.gidx]))).tasks :=
      List.mem_map.mpr ⟨k, hmem, if_pos rfl⟩
    obtain ⟨k', hk', heq⟩ := reported.task hfin
    have hfields : ∀ x : Task, (x.uid, x.cursor, x.finished, x.placed) =
        (x.timeless.uid, x.timeless.cursor, x.timeless.finished, x.timeless.placed) := fun _ => rfl
    have hall := hfields k'
    rw [heq, ← hfields] at hall
    simp only [Prod.mk.injEq] at hall
    obtain ⟨huid, hcursor, hfinished, hplaced⟩ := hall
    obtain ⟨hcount, hnot⟩ := k.finish_counts g.gidx c
    exact ⟨k', hk', huid, by rw [hcursor, hfinished]; exact hcount, by rw [hplaced]; exact hnot⟩

/-! ### A task retires (R275) -/

theorem exec_taskRetire (uid : Nat) (s : State) : exec (.taskRetire uid) s = .next (evTaskRetire uid s) := rfl

/-- The task of a VF and an index leaves the list, where no other has them (R263). -/
theorem State.dropTask_eq {s : State} {k : Task} (hk : k ∈ s.tasks) (hone : ∀ x ∈ s.tasks, x.vf = k.vf → x.idx = k.idx → x = k) :
    ∃ vfs, s.dropTask k.vf k.idx = { s with vfs := vfs, tasks := s.tasks.filter fun x => x.uid != k.uid } := by
  have hfind : (s.tasks.find? fun t => t.vf = k.vf && t.idx = k.idx) = some k := by
    obtain ⟨x, hx⟩ := Option.isSome_iff_exists.mp (List.find?_isSome.mpr ⟨k, hk, by simp⟩ :
      (s.tasks.find? fun t => t.vf = k.vf && t.idx = k.idx).isSome)
    have hprop := List.find?_some hx
    simp only [Bool.and_eq_true, decide_eq_true_eq] at hprop
    rw [hx, hone x (List.mem_of_find?_eq_some hx) hprop.1 hprop.2]
  unfold State.dropTask
  rw [hfind]
  exact ⟨_, rfl⟩

/-- What a task's end does once the task has left the list (R266, R269, R275). -/
theorem State.retire_stirs (s : State) (vf i arena : Nat) (drop : Bool) (succs : List (Nat × Nat)) (f : VF → VF) :
    let u := succs.foldl (fun s e => s.decPred vf e.2) ((s.tcbPut vf i 29 1 0).tcbPut vf i 30 1 4)
    s.Stirs (State.completionNotice ((if drop then u.dropArena vf arena else u).setVf vf f) vf i 4 0) := by
  intro u
  have hput : s.Stirs ((s.tcbPut vf i 29 1 0).tcbPut vf i 30 1 4) :=
    ((s.tcbPut_quiet _ _ _ _ _).trans (State.tcbPut_quiet _ _ _ _ _ _)).stirs
  have hu : s.Stirs u := hput.trans
    (State.Stirs.foldl (f := fun s (e : Nat × Nat) => s.decPred vf e.2) (fun t e => State.decPred_stirs t vf e.2) succs _)
  have hdrop : u.Stirs (if drop then u.dropArena vf arena else u) := by
    cases drop with
    | false => exact .refl u
    | true => exact (u.dropArena_quiet vf arena).stirs
  exact (hu.trans hdrop).trans ((State.setVf_quiet _ _ _).trans (State.completionNotice_quiet _ _ _ _ _)).stirs

theorem taskRetire_completes {s : State} {uid : Nat} {k : Task} (hk : s.taskOf uid = some k) (hcount : k.cursor = k.count)
    (hnone : ∀ g ∈ s.groups, g.task ≠ uid) (hone : ∀ x ∈ s.tasks, x.vf = k.vf → x.idx = k.idx → x = k) :
    (evTaskRetire uid s).tasks.map Task.uid = (s.tasks.filter fun x => x.uid != uid).map Task.uid
      ∧ SameRegs s (evTaskRetire uid s) := by
  have huid : k.uid = uid := by simpa using List.find?_some hk
  obtain ⟨vfs, hdrop⟩ := State.dropTask_eq (List.mem_of_find?_eq_some hk) hone
  have stirs : (s.dropTask k.vf k.idx).Stirs (evTaskRetire uid s) := by
    unfold evTaskRetire
    rw [hk]
    dsimp only
    rw [if_neg (by simpa [hcount] using hnone)]
    exact State.retire_stirs _ _ _ _ _ _ _
  rw [hdrop, huid] at stirs
  exact ⟨stirs.taskUids, .of_cores stirs.cores⟩

/-! ### Priorities age (R271) -/

/-- A task whose priority has aged for a millisecond more. -/
def Task.ageAgain (t : Task) : Task := { t with agedAt := t.agedAt + 2400000 }

theorem exec_agingTick (uid : Nat) (s : State) : exec (.agingTick uid) s = .next (evAgingTick uid s) := rfl

theorem State.taskOf_setTask {s : State} {uid : Nat} {k : Task} {f : Task → Task} (hk : s.taskOf uid = some k)
    (hf : ∀ t, (f t).uid = t.uid) : (s.setTask uid f).taskOf uid = some (f k) := by
  have huid : k.uid = uid := by simpa using List.find?_some hk
  have hcomp : ((fun t : Task => decide (t.uid = uid)) ∘ fun t => if t.uid = uid then f t else t) = fun t => decide (t.uid = uid) :=
    funext fun t => by
      by_cases h : t.uid = uid <;> simp [h, hf]
  unfold State.taskOf at hk ⊢
  unfold State.setTask
  rw [List.find?_map, hcomp, hk, Option.map_some, if_pos huid]

theorem agingTick_completes {s : State} {uid : Nat} {k : Task} (hk : s.taskOf uid = some k) (hst : s.tcbNat k.vf k.idx 30 1 = 2)
    (hrun : (s.vf k.vf).running = true) (hclock : k.agedAt + 2400000 ≤ s.clock) :
    SameRegs s (evAgingTick uid s)
      ∧ (evAgingTick uid s).ms = (s.tcbPut k.vf k.idx 29 1 (s.tcbNat k.vf k.idx 29 1 % 8
          + 8 * Nat.min 7 (s.tcbNat k.vf k.idx 29 1 / 8 % 8 + 1))).ms
      ∧ ((evAgingTick uid s).taskOf uid).map Task.agedAt = some (k.agedAt + 2400000) := by
  have hbody : evAgingTick uid s = (s.tcbPut k.vf k.idx 29 1 (s.tcbNat k.vf k.idx 29 1 % 8
      + 8 * Nat.min 7 (s.tcbNat k.vf k.idx 29 1 / 8 % 8 + 1))).setTask uid Task.ageAgain := by
    unfold evAgingTick
    rw [hk]
    dsimp only
    rw [if_pos (by simp [hst, hrun, hclock])]
    rfl
  have quiet := s.tcbPut_quiet k.vf k.idx 29 1 (s.tcbNat k.vf k.idx 29 1 % 8
    + 8 * Nat.min 7 (s.tcbNat k.vf k.idx 29 1 / 8 % 8 + 1))
  rw [hbody]
  refine ⟨quiet.sameRegs, rfl, ?_⟩
  rw [State.taskOf_setTask (k := k) (f := Task.ageAgain) (by rw [State.taskOf, quiet.tasks]; exact hk) fun _ => rfl]
  rfl

/-! ### A halt keeps the stops of other groups, and the tasks (R318) -/

/-- A group stands halting. -/
def State.Halting (s : State) (gi : Nat) : Prop := ∃ since ns, s.groupAt gi Group.stop = some (.halting since ns)

/-- What leaves the groups' stops and the tasks. -/
structure State.KeepsStops (s t : State) : Prop where
  stops : t.groups.map Group.stop = s.groups.map Group.stop
  tasks : t.tasks = s.tasks

theorem State.KeepsStops.refl (s : State) : s.KeepsStops s := ⟨rfl, rfl⟩

theorem State.KeepsStops.trans {s t u : State} (h : s.KeepsStops t) (h' : t.KeepsStops u) : s.KeepsStops u :=
  ⟨h'.stops.trans h.stops, h'.tasks.trans h.tasks⟩

theorem State.KeepsStops.foldl {α : Type} {f : State → α → State} (hf : ∀ (u : State) x, u.KeepsStops (f u x)) (xs : List α)
    (s : State) : s.KeepsStops (xs.foldl f s) := by
  induction xs generalizing s with
  | nil => exact .refl s
  | cons x xs ih => exact (hf s x).trans (ih _)

theorem State.KeepsStops.setGroup {F : Group → Group} (hF : ∀ g, (F g).stop = g.stop) (s : State) (gi : Nat) :
    s.KeepsStops (s.setGroup gi F) := ⟨map_modAt_of Group.stop F hF _ _, rfl⟩

theorem State.KeepsStops.mapGroups {F : Group → Group} (hF : ∀ g, (F g).stop = g.stop) (s : State) :
    s.KeepsStops { s with groups := s.groups.map F } :=
  ⟨by rw [List.map_map]; exact List.map_congr_left fun g _ => hF g, rfl⟩

theorem State.Quiet.keepsStops {s t : State} (h : s.Quiet t) : s.KeepsStops t := by
  obtain ⟨f, hf, hgs⟩ := h.groups
  refine ⟨?_, h.tasks⟩
  rw [hgs, List.map_map]
  refine List.map_congr_left fun g _ => ?_
  obtain ⟨w, -, hw⟩ := hf g
  exact (congrArg Group.stop hw).trans rfl

theorem State.KeepsStops.groupAt {s t : State} (h : s.KeepsStops t) (gi : Nat) : t.groupAt gi Group.stop = s.groupAt gi Group.stop := by
  unfold State.groupAt
  rw [← List.getElem?_map, h.stops, List.getElem?_map]

theorem Group.put_stop (g : Group) (k : Key) (r : Reg) (x : Word) : (g.put k r x).stop = g.stop := by
  cases r <;> rfl

theorem Group.putAll_stop (g : Group) (k : Key) (ws : List (Reg × Word)) : (g.putAll k ws).stop = g.stop := by
  unfold Group.putAll
  induction ws generalizing g with
  | nil => rfl
  | cons w ws ih => rw [List.foldl_cons, ih, Group.put_stop]

theorem Group.endGlean_stop (g : Group) (clock : Nat) (k : Key) (gl : Glean) : (g.endGlean clock k gl).stop = g.stop := by
  unfold Group.endGlean
  dsimp only
  split <;> exact Group.putAll_stop _ _ _

theorem Group.settleGlean_stop (g : Group) (clock : Nat) (k : Key) : (g.settleGlean clock k).stop = g.stop := by
  unfold Group.settleGlean
  split
  · rfl
  · dsimp only
    split
    · split
      · rfl
      · split
        · rfl
        · exact Group.endGlean_stop _ _ _ _
    · rfl

theorem State.giveBack_keepsStops (s : State) (slots : List (Nat × Nat × Nat)) : s.KeepsStops (s.giveBack slots) :=
  .mapGroups (fun _ => by rfl) s

theorem State.releaseHelper_keepsStops (s : State) (gi : Nat) (k : Key) : s.KeepsStops (s.releaseHelper gi k) := by
  unfold State.releaseHelper
  split
  · exact .refl s
  · split
    · exact .refl s
    · exact (s.giveBack_keepsStops _).trans (.setGroup (fun _ => by rfl) _ _)

/-- The glean of a part takes the iteration back that it had (R257). -/
def Group.takeBack (p : GPart) (g : Group) : Group :=
  { g with gleans := g.gleans.map fun x => if x.id = p.glean then { x with returned := x.returned ++ p.cur.toList } else x }

/-- A recruiter whose part is abandoned (R257). -/
def Thread.giveUp (p : GPart) (t : Thread) : Thread :=
  { t with part := some { p with cur := none, staged := List.replicate 4 none, release := none }, solo := none }

theorem State.abandon_none {s : State} {gi : Nat} {k : Key} (h : ((s.groups[gi]?).bind fun g => (g.find k).bind Thread.part) = none) :
    s.abandon gi k = s := by
  unfold State.abandon
  cases hg : s.groups[gi]? with
  | none => rfl
  | some g =>
    rw [hg, Option.bind_some] at h
    dsimp only
    rw [h]

theorem State.abandon_some {s : State} {gi : Nat} {k : Key} {p : GPart}
    (h : ((s.groups[gi]?).bind fun g => (g.find k).bind Thread.part) = some p) :
    s.abandon gi k =
      if k.gl = 0 then (s.setGroup gi (Group.takeBack p)).setGroup gi fun g => g.modify k (Thread.giveUp p)
      else ((s.setGroup gi (Group.takeBack p)).releaseHelper gi k).afterRelease gi k := by
  unfold State.abandon
  cases hg : s.groups[gi]? with
  | none => rw [hg] at h; cases h
  | some g =>
    rw [hg, Option.bind_some] at h
    dsimp only
    rw [h]
    rfl

theorem State.afterRelease_keepsStops (s : State) (gi : Nat) (k : Key) : s.KeepsStops (s.afterRelease gi k) :=
  .setGroup (F := fun g => g.settleGlean s.clock { t := k.t, gl := 0 }) (fun g => g.settleGlean_stop _ _) s gi

theorem State.abandon_keepsStops (s : State) (gi : Nat) (k : Key) : s.KeepsStops (s.abandon gi k) := by
  cases hp : (s.groups[gi]?).bind fun g => (g.find k).bind Thread.part with
  | none => rw [State.abandon_none hp]; exact .refl s
  | some p =>
    rw [State.abandon_some hp]
    have back : s.KeepsStops (s.setGroup gi (Group.takeBack p)) := .setGroup (fun _ => by rfl) s gi
    split
    · exact back.trans (.setGroup (fun _ => by rfl) _ _)
    · exact (back.trans (State.releaseHelper_keepsStops _ gi k)).trans (State.afterRelease_keepsStops _ gi k)

theorem State.restGleans_keepsStops (s : State) (gi : Nat) : s.KeepsStops (s.restGleans gi) := by
  unfold State.restGleans
  split
  · exact .refl s
  · exact (State.KeepsStops.foldl (fun u (x : Nat × Key) => u.abandon_keepsStops x.1 x.2) _ _).trans
      (.foldl (fun u (t : Thread) => u.abandon_keepsStops gi t.key) _ _)

/-! ### The groups that a test picks halt (R318) -/

/-- What halts groups: no group goes, none that halts goes on, and the tasks stay. -/
structure State.Halts (s t : State) : Prop where
  length : t.groups.length = s.groups.length
  halting : ∀ gi, s.Halting gi → t.Halting gi
  tasks : t.tasks = s.tasks

theorem State.Halts.refl (s : State) : s.Halts s := ⟨rfl, fun _ h => h, rfl⟩

theorem State.Halts.trans {s t u : State} (h : s.Halts t) (h' : t.Halts u) : s.Halts u :=
  ⟨h'.length.trans h.length, fun gi hi => h'.halting gi (h.halting gi hi), h'.tasks.trans h.tasks⟩

theorem State.KeepsStops.halts {s t : State} (h : s.KeepsStops t) : s.Halts t := by
  refine ⟨?_, fun gi hi => ?_, h.tasks⟩
  · simpa using congrArg List.length h.stops
  · unfold State.Halting
    rw [h.groupAt]
    exact hi

theorem State.setStop_groupAt (s : State) {F : Group → Group} {stop : Stop} (hF : ∀ g, (F g).stop = stop) (gi gj : Nat) :
    (s.setGroup gi F).groupAt gj Group.stop =
      if gj = gi ∧ gi < s.groups.length then some stop else s.groupAt gj Group.stop := by
  unfold State.groupAt
  rw [State.setGroup_get]
  by_cases hj : gi = gj
  · subst hj
    by_cases hlen : gi < s.groups.length
    · simp [hlen, hF]
    · simp [hlen]
  · rw [if_neg hj, if_neg fun h => hj h.1.symm]

/-- A group takes a stop of a halt. -/
theorem State.Halts.setGroup {F : Group → Group} {since : Nat} {ns : Option Nat} (hF : ∀ g, (F g).stop = .halting since ns)
    (s : State) (gi : Nat) : s.Halts (s.setGroup gi F) ∧ (gi < s.groups.length → (s.setGroup gi F).Halting gi) := by
  refine ⟨⟨?_, fun gj hj => ?_, rfl⟩, fun hlen => ⟨since, ns, ?_⟩⟩
  · exact length_modAt ..
  · unfold State.Halting
    rw [s.setStop_groupAt hF]
    split
    · exact ⟨since, ns, rfl⟩
    · exact hj
  · rw [s.setStop_groupAt hF, if_pos ⟨rfl, hlen⟩]

/-- A halting group: its participants go under release, and the others resume or stand apart (R318). -/
def Group.halt (clock : Nat) (stop : Stop) (g : Group) : Group :=
  { g with stop := stop, threads := g.threads.map (fun t => (t.underRelease clock).endWaita clock)
           sheaves := g.sheaves.flatMap g.partSheaf }

/-- The helpers in the slots of a group go under release (R318). -/
def State.releaseGuests (s : State) (uid : Nat) : State :=
  (s.guests uid).foldl (fun t x => t.setGroup x.1 fun g => g.modify x.2 (Thread.underRelease t.clock)) s

theorem State.haltWith_eq {s : State} {gi : Nat} {g : Group} (hg : s.groups[gi]? = some g) (stop : Stop) :
    s.haltWith gi stop = (s.releaseGuests g.uid).setGroup gi (Group.halt (s.releaseGuests g.uid).clock stop) := by
  unfold State.haltWith
  rw [hg]
  rfl

theorem State.releaseGuests_keepsStops (s : State) (uid : Nat) : s.KeepsStops (s.releaseGuests uid) :=
  .foldl (fun u (x : Nat × Key) => .setGroup (fun _ => by rfl) u x.1) _ _

theorem State.haltWith_halts {s : State} {gi : Nat} (since : Nat) (hlen : gi < s.groups.length) :
    s.Halts (s.haltWith gi (.halting since none)) ∧ (s.haltWith gi (.halting since none)).Halting gi := by
  rw [State.haltWith_eq (List.getElem?_eq_getElem hlen)]
  have released := (s.releaseGuests_keepsStops (s.groups[gi]).uid).halts
  obtain ⟨halts, halting⟩ := State.Halts.setGroup
    (F := Group.halt (s.releaseGuests (s.groups[gi]).uid).clock (.halting since none)) (fun _ => rfl)
    (s.releaseGuests (s.groups[gi]).uid) gi
  exact ⟨released.trans halts, halting (by rw [released.length]; exact hlen)⟩

/-- The time of a completed halt. -/
def Group.haltedAt (since ns : Nat) (g : Group) : Group := { g with stop := .halting since (some ns) }

/-- The frame of a halted group takes its header (R322). -/
def State.stampFrame (s : State) (g : Group) : State :=
  match s.taskOf g.task with
  | some t => s.devWrite g.vf (t.frameAt g.gidx) (frameHeader g s.ns 0 false)
  | none => s

theorem State.stampFrame_quiet (s : State) (g : Group) : s.Quiet (s.stampFrame g) := by
  unfold State.stampFrame
  split
  · exact s.devWrite_quiet _ _ _
  · exact .refl s

/-- A halt that is complete leaves its gleans and takes its time and its header; another is left as it is (R318, R322). -/
theorem State.settleHalt_cases (s : State) (gi : Nat) : s.settleHalt gi = s
    ∨ ∃ g since, s.groups[gi]? = some g ∧ g.stop = .halting since none ∧ s.allHalted g = true
      ∧ s.settleHalt gi =
        ((s.restGleans gi).setGroup gi (Group.haltedAt since s.ns)).stampFrame g := by
  unfold State.settleHalt
  split
  · exact .inl rfl
  · next g hg =>
    split
    · next since hstop =>
      split
      · exact .inl rfl
      · next hall => exact .inr ⟨g, since, hg, hstop, by simpa using hall, rfl⟩
    · exact .inl rfl

theorem State.settleHalt_halts (s : State) (gi : Nat) : s.Halts (s.settleHalt gi) := by
  rcases s.settleHalt_cases gi with h | ⟨g, since, -, -, -, h⟩ <;> rw [h]
  · exact .refl s
  · have rested := (s.restGleans_keepsStops gi).halts
    generalize s.restGleans gi = u at rested
    have timed := (State.Halts.setGroup (F := Group.haltedAt since s.ns) (since := since) (ns := some s.ns) (fun _ => rfl) u gi).1
    have stamped := (State.stampFrame_quiet (u.setGroup gi (Group.haltedAt since s.ns)) g).keepsStops.halts
    exact (rested.trans timed).trans stamped

theorem State.haltGroup_halts {s : State} {gi : Nat} (hlen : gi < s.groups.length) :
    s.Halts (s.haltGroup gi) ∧ (s.haltGroup gi).Halting gi := by
  unfold State.haltGroup
  split
  · next since ns hstop => exact ⟨.refl s, since, ns, hstop⟩
  · obtain ⟨halts, halting⟩ := s.haltWith_halts s.clock hlen
    have settled := State.settleHalt_halts (s.haltWith gi (.halting s.clock none)) gi
    exact ⟨halts.trans settled, settled.halting gi halting⟩
  · next hnone => simp [hlen] at hnone

theorem State.foldl_haltGroup_halts (xs : List (Group × Nat)) (s : State) (hxs : ∀ x ∈ xs, x.2 < s.groups.length) :
    s.Halts (xs.foldl (fun s x => s.haltGroup x.2) s) ∧ ∀ x ∈ xs, (xs.foldl (fun s x => s.haltGroup x.2) s).Halting x.2 := by
  induction xs generalizing s with
  | nil => exact ⟨.refl s, fun _ hx => nomatch hx⟩
  | cons x xs ih =>
    obtain ⟨halts, halting⟩ := s.haltGroup_halts (hxs x List.mem_cons_self)
    obtain ⟨rest, each⟩ := ih (s.haltGroup x.2) fun y hy => by
      rw [halts.length]
      exact hxs y (List.mem_cons_of_mem x hy)
    refine ⟨halts.trans rest, fun y hy => ?_⟩
    rcases List.mem_cons.mp hy with rfl | hy
    · exact rest.halting _ halting
    · exact each y hy

/-- Every group that the test picks halts, and the tasks stay (R318). -/
theorem State.haltAll_halts (s : State) (p : Group → Bool) :
    s.Halts (s.haltAll p) ∧ ∀ gi g, s.groups[gi]? = some g → p g = true → (s.haltAll p).Halting gi := by
  have bound : ∀ x ∈ s.groups.zipIdx.filter fun x => p x.1, x.2 < s.groups.length := fun x hx =>
    List.snd_lt_of_mem_zipIdx (List.mem_of_mem_filter hx) |>.trans_eq (by simp)
  obtain ⟨halts, each⟩ := State.foldl_haltGroup_halts _ s bound
  exact ⟨halts, fun gi g hg hp => each (g, gi) (List.mem_filter.mpr ⟨List.mem_zipIdx_iff_getElem?.mpr hg, hp⟩)⟩

/-! ### Where no group gleans, a halt leaves the registers (R318) -/

/-- No group gleans. -/
def State.Gleanless (s : State) : Prop := ∀ h ∈ s.groups, h.gleans = []

theorem State.Gleanless.guests {s : State} (hs : s.Gleanless) (uid : Nat) : s.guests uid = [] := by
  unfold State.guests
  refine List.flatMap_eq_nil_iff.mpr fun x hx => ?_
  dsimp only
  rw [hs x.1 (List.fst_mem_of_mem_zipIdx hx), List.flatMap_nil]

theorem State.Gleanless.of_quiet {s t : State} (hs : s.Gleanless) (h : s.Quiet t) : t.Gleanless := by
  obtain ⟨f, hf, hgs⟩ := h.groups
  intro g' hg'
  rw [hgs] at hg'
  obtain ⟨g, hg, rfl⟩ := List.mem_map.mp hg'
  obtain ⟨w, -, hw⟩ := hf g
  rw [hw]
  exact hs g hg

/-- What leaves the registers and starts no glean. -/
structure State.Plain (s t : State) : Prop where
  regs : SameRegs s t
  gleanless : t.Gleanless

theorem State.Plain.refl {s : State} (hs : s.Gleanless) : s.Plain s := ⟨fun _ _ _ => rfl, hs⟩

theorem State.Plain.trans {s t u : State} (h : s.Plain t) (h' : t.Plain u) : s.Plain u :=
  ⟨fun gi k r => (h'.regs gi k r).trans (h.regs gi k r), h'.gleanless⟩

theorem State.Plain.of_quiet {s t : State} (hs : s.Gleanless) (h : s.Quiet t) : s.Plain t := ⟨h.sameRegs, hs.of_quiet h⟩

theorem State.Plain.foldl {α : Type} {f : State → α → State} (xs : List α)
    (hf : ∀ (u : State), ∀ x ∈ xs, u.Gleanless → u.Plain (f u x)) (s : State) (hs : s.Gleanless) : s.Plain (xs.foldl f s) := by
  induction xs generalizing s with
  | nil => exact .refl hs
  | cons x xs ih =>
    have first := hf s x List.mem_cons_self hs
    exact first.trans (ih (fun u y hy => hf u y (List.mem_cons_of_mem x hy)) _ first.gleanless)

theorem State.Plain.setGroup {F : Group → Group} (hreg : ∀ g k r, (F g).reg k r = g.reg k r)
    (hgl : ∀ g, g.gleans = [] → (F g).gleans = []) (s : State) (hs : s.Gleanless) (gi : Nat) : s.Plain (s.setGroup gi F) := by
  refine ⟨SameRegs.setGroup hreg s gi, fun h hh => ?_⟩
  obtain ⟨j, hj⟩ := List.mem_iff_getElem?.mp hh
  rw [State.setGroup_get] at hj
  split at hj
  · obtain ⟨g, hg, rfl⟩ := Option.map_eq_some_iff.mp hj
    exact hgl g (hs g (List.mem_of_getElem? hg))
  · exact hs h (List.mem_of_getElem? hj)

theorem Group.reg_modify_of {g : Group} {k : Key} {f : Thread → Thread} (hf : ∀ t, (f t).key = t.key ∧ (f t).v = t.v ∧ (f t).p = t.p)
    (k' : Key) (r : Reg) : (g.modify k f).reg k' r = g.reg k' r :=
  Group.reg_mapThreads (g := g) (h := g.modify k f) (f := fun t => if t.key = k then f t else t) rfl rfl
    (fun t => by split; exacts [hf t, ⟨rfl, rfl, rfl⟩]) k' r

theorem State.Gleanless.abandon {s : State} (hs : s.Gleanless) (gi : Nat) {k : Key} (hk : k.gl = 0) : s.Plain (s.abandon gi k) := by
  cases hp : (s.groups[gi]?).bind fun g => (g.find k).bind Thread.part with
  | none => rw [State.abandon_none hp]; exact .refl hs
  | some p =>
    rw [State.abandon_some hp, if_pos hk]
    have back : s.Plain (s.setGroup gi (Group.takeBack p)) :=
      .setGroup (fun _ _ r => by cases r <;> rfl) (fun g hg => by simp [Group.takeBack, hg]) s hs gi
    refine back.trans (.setGroup (fun g k' r => ?_) (fun _ hg => by exact hg) _ back.gleanless gi)
    exact Group.reg_modify_of (f := Thread.giveUp p) (fun _ => ⟨rfl, rfl, rfl⟩) k' r

theorem State.Gleanless.restGleans {s : State} (hs : s.Gleanless) {gi : Nat} {g : Group} (hg : s.groups[gi]? = some g)
    (hrest : g.participates = false) : s.Plain (s.restGleans gi) := by
  unfold State.restGleans
  rw [hg]
  dsimp only
  rw [hs.guests, List.foldl_nil]
  refine .foldl _ (fun u t ht hu => hu.abandon gi ?_) s hs
  have hpart := List.any_eq_false.mp hrest t (List.mem_of_mem_filter ht)
  simp only [Bool.or_eq_true, not_or, bne_iff_ne, Decidable.not_not] at hpart
  exact hpart.1

theorem Thread.underRelease_regs (clock : Nat) (t : Thread) : (t.underRelease clock).key = t.key
    ∧ (t.underRelease clock).v = t.v ∧ (t.underRelease clock).p = t.p := by
  unfold Thread.underRelease
  split
  · split <;> exact ⟨rfl, rfl, rfl⟩
  · exact ⟨rfl, rfl, rfl⟩

theorem Thread.endWaita_regs (clock : Nat) (t : Thread) : (t.endWaita clock).key = t.key
    ∧ (t.endWaita clock).v = t.v ∧ (t.endWaita clock).p = t.p := by
  unfold Thread.endWaita
  split <;> exact ⟨rfl, rfl, rfl⟩

theorem Group.halt_reg (clock : Nat) (stop : Stop) (g : Group) (k : Key) (r : Reg) : (g.halt clock stop).reg k r = g.reg k r := by
  refine Group.reg_mapThreads (g := g) (h := g.halt clock stop) (f := fun t => (t.underRelease clock).endWaita clock) rfl rfl (fun t => ?_) k r
  obtain ⟨hk, hv, hp⟩ := t.underRelease_regs clock
  obtain ⟨hk', hv', hp'⟩ := (t.underRelease clock).endWaita_regs clock
  exact ⟨hk'.trans hk, hv'.trans hv, hp'.trans hp⟩

theorem State.Gleanless.settleHalt {s : State} (hs : s.Gleanless) {gi : Nat}
    (hsince : ∀ g since, s.groups[gi]? = some g → g.stop = .halting since none → since = s.clock) : s.Plain (s.settleHalt gi) := by
  rcases s.settleHalt_cases gi with h | ⟨g, since, hg, hstop, hall, h⟩ <;> rw [h]
  · exact .refl hs
  · have early : g.stop.overdue s.clock = false := by
      rw [hstop, hsince g since hg hstop]
      simp [Stop.overdue]
    have hrest : g.participates = false := by
      unfold State.allHalted at hall
      simp only [early, Bool.false_or, Bool.not_eq_true', Bool.or_eq_false_iff] at hall
      exact hall.1
    have rested := hs.restGleans hg hrest
    have timed : (s.restGleans gi).Plain ((s.restGleans gi).setGroup gi (Group.haltedAt since s.ns)) :=
      .setGroup (F := Group.haltedAt since s.ns) (fun _ _ r => by cases r <;> rfl) (fun _ hgl => hgl) _
        rested.gleanless gi
    exact (rested.trans timed).trans (.of_quiet timed.gleanless (State.stampFrame_quiet _ g))

theorem State.Gleanless.haltGroup {s : State} (hs : s.Gleanless) (gi : Nat) : s.Plain (s.haltGroup gi) := by
  unfold State.haltGroup
  split
  · exact .refl hs
  · next stop hstop =>
    obtain ⟨g, hg, -⟩ := Option.map_eq_some_iff.mp hstop
    have released : s.releaseGuests g.uid = s := by
      unfold State.releaseGuests
      rw [hs.guests, List.foldl_nil]
    rw [State.haltWith_eq hg, released]
    have halted : s.Plain (s.setGroup gi (Group.halt s.clock (.halting s.clock none))) :=
      .setGroup (Group.halt_reg _ _) (fun _ hgl => hgl) s hs gi
    refine halted.trans (halted.gleanless.settleHalt fun g' since hg' hstop' => ?_)
    rw [State.setGroup_get, if_pos rfl, hg, Option.map_some, Option.some.injEq] at hg'
    subst hg'
    injection hstop' with hsince
    exact hsince.symm
  · exact .refl hs

theorem State.Gleanless.haltAll {s : State} (hs : s.Gleanless) (p : Group → Bool) : s.Plain (s.haltAll p) :=
  .foldl _ (fun _ x _ hu => hu.haltGroup x.2) s hs

/-! ### A set that has not fully started (R274) -/

theorem exec_coresidentSetTimeout (uid set : Nat) (s : State) :
    exec (.coresidentSetTimeout uid set) s = .next (evCoresidentSetTimeout uid set s) := rfl

/-- A task of which a set has failed: it waits no more to start, and is placed as one (R274). -/
def Task.failSet (set : Nat) (t : Task) : Task :=
  { t with setStart := t.setStart.filter fun x => x.1 != set, setFailed := t.setFailed ++ [set] }

theorem Task.failSet_lookup (set : Nat) (t : Task) : (t.failSet set).setStart.lookup set = none := by
  refine List.lookup_eq_none_iff.mpr fun x hx => ?_
  have hne := (List.mem_filter.mp hx).2
  rw [bne_iff_ne] at hne
  simpa using fun h => hne h.symm

theorem evCoresidentSetTimeout_fails {s : State} {uid set c : Nat} {k : Task} (hk : s.taskOf uid = some k)
    (hset : k.setStart.lookup set = some c) (hclock : c + 2400000 ≤ s.clock) (hstarted : s.setStarted k set = false) :
    evCoresidentSetTimeout uid set s =
      (s.haltAll fun g => g.task = uid && (s.setMembers k set).contains g.gidx).setTask uid (Task.failSet set) := by
  unfold evCoresidentSetTimeout
  rw [hk]
  dsimp only
  rw [hset]
  dsimp only
  rw [if_pos (by simp [hclock, hstarted])]
  rfl

theorem coresidentSetTimeout_completes {s : State} {uid set c : Nat} {k : Task} (hk : s.taskOf uid = some k)
    (hset : k.setStart.lookup set = some c) (hclock : c + 2400000 ≤ s.clock) (hstarted : s.setStarted k set = false) :
    ((∀ h ∈ s.groups, h.gleans = []) → SameRegs s (evCoresidentSetTimeout uid set s))
      ∧ (∃ k' ∈ (evCoresidentSetTimeout uid set s).tasks, k'.uid = uid ∧ set ∈ k'.setFailed ∧ k'.setStart.lookup set = none)
      ∧ ∀ gi g, s.groups[gi]? = some g → g.task = uid → g.gidx ∈ s.setMembers k set →
          ∃ since ns, (evCoresidentSetTimeout uid set s).groupAt gi Group.stop = some (.halting since ns) := by
  rw [evCoresidentSetTimeout_fails hk hset hclock hstarted]
  obtain ⟨halts, each⟩ := s.haltAll_halts fun g => g.task = uid && (s.setMembers k set).contains g.gidx
  refine ⟨fun hgl => (State.Gleanless.haltAll hgl _).regs, ?_, fun gi g hg htask hmem => ?_⟩
  · have huid : k.uid = uid := by simpa using List.find?_some hk
    refine ⟨k.failSet set, List.mem_map.mpr ⟨k, ?_, if_pos huid⟩, huid, List.mem_append_right _ List.mem_cons_self,
      k.failSet_lookup set⟩
    rw [halts.tasks]
    exact List.mem_of_find?_eq_some hk
  · exact each gi g hg (by simp [htask, hmem])

/-- Settles O47: once a group is gone its task counts it finished and the successors' predecessors are counted down, which leaves
every task but for when it became ready; the halt of a failed set changes stops, and no register where no group gleans. -/
theorem groupsAndTasksEnd : Obligations.GroupsAndTasksEnd := by
  refine ⟨⟨fun s gi g k hg hdone => ?_, fun s uid k hk hcount hnone hone => ?_⟩,
    fun s uid k hk hst hrun hclock => ?_, fun s uid set c k hk hset hclock hstarted => ?_⟩
  · intro u
    refine ⟨fun hwait => ?_, fun hgone hk => ⟨_, exec_groupExit gi s, groupExit_gone hg hdone hgone hk⟩⟩
    rw [exec_groupExit, evGroupExit_waits hg hdone hwait]
  · exact ⟨_, exec_taskRetire uid s, taskRetire_completes hk hcount hnone hone⟩
  · exact ⟨_, exec_agingTick uid s, agingTick_completes hk hst hrun hclock⟩
  · exact ⟨_, exec_coresidentSetTimeout uid set s, coresidentSetTimeout_completes hk hset hclock hstarted⟩

end Sys2Proof.Machine
end

section
/-! PROOFS. Row-collectives of one row that arrives together, and the stall of a row (R19, R124 to R130, R152, R316). -/

namespace Sys2Proof.Machine

/-! ### A row that arrives together -/

/-- The live threads of the group are one row, and all of them stand in the issuing sheaf, outside gleans (R124). -/
structure Cx.OneRow (c : Cx) : Prop where
  shaped : c.g.Shaped
  running : c.g.stop = .running
  insts : c.g.insts = []
  sheaves : c.g.sheaves = [c.sh]
  regions : c.sh.regions = []
  members : c.g.members c.sh ≠ []
  threads : ∀ th ∈ c.g.threads, th.key.gl = 0 ∧ th.key.t < 32 ∧ th.part = none ∧ th.solo = none
    ∧ (th.place = .exited ∨ (th.place = .sheaf ∧ th.key ∈ c.sh.members))

/-- A lane of the row: its live thread, which receives where its guard is true (R125). -/
def Cx.rowLane (c : Cx) (i : Nat) : Option Lane :=
  (c.g.threads.find? fun th => th.key = { t := i, gl := 0 } && th.place != .exited).map fun th =>
    { t := th, recv := Ext.guards c.e th }

/-- The lanes of the row. -/
def Cx.rowOf (c : Cx) : RowLanes := (List.range 32).map c.rowLane

/-- The issuing sheaf in the collective hold. -/
def Cx.heldSheaf (c : Cx) (last : Nat) : Sheaf := { c.sh with last := last, hold := .collective c.o c.e c.site [] }

/-- The group of the issue, whose row waits to act. -/
def Cx.heldGroup (c : Cx) (clock last : Nat) : Group :=
  { c.g with insts := [{ row := 0, pc := c.site.pc, since := clock }], sheaves := [c.heldSheaf last] }

theorem Cx.mem_members {c : Cx} {th : Thread} : th ∈ c.g.members c.sh ↔
    th ∈ c.g.threads ∧ c.sh.members.contains th.key = true ∧ c.g.stands th = true := by
  unfold Group.members
  rw [(sortKey_perm _).mem_iff, List.mem_filter, Bool.and_eq_true]

theorem Cx.OneRow.part {c : Cx} (h : c.OneRow) {th : Thread} (hth : th ∈ c.g.threads) : th.part = none := by
  obtain ⟨-, -, hpart, -⟩ := h.threads th hth
  exact hpart

theorem Cx.OneRow.gleans {c : Cx} (h : c.OneRow) {th : Thread} (hth : th ∈ c.g.threads) : th.gleans = false := by
  obtain ⟨-, -, hpart, hsolo, -⟩ := h.threads th hth
  simp [Thread.gleans, hpart, hsolo]

theorem Cx.OneRow.stands {c : Cx} (h : c.OneRow) {th : Thread} (hth : th ∈ c.g.threads) (hlive : th.place ≠ .exited) :
    th.place = .sheaf ∧ th.key ∈ c.sh.members := by
  obtain ⟨-, -, -, -, hplace⟩ := h.threads th hth
  exact hplace.resolve_left hlive

/-- A thread of the sheaf: one is there. -/
theorem Cx.OneRow.exists_member {c : Cx} (h : c.OneRow) :
    ∃ th ∈ c.g.threads, th.place = .sheaf ∧ th.key ∈ c.sh.members := by
  obtain ⟨th, hth⟩ := List.exists_mem_of_ne_nil _ h.members
  obtain ⟨hmem, hkey, hstands⟩ := Cx.mem_members.mp hth
  refine ⟨th, hmem, ?_, by simpa using hkey⟩
  simp only [Group.stands, Bool.and_eq_true, decide_eq_true_eq] at hstands
  exact hstands.1

theorem Cx.OneRow.si {c : Cx} (h : c.OneRow) (hsh : c.g.sheaves[c.si]? = some c.sh) : c.si = 0 := by
  rw [h.sheaves] at hsh
  obtain ⟨hlt, -⟩ := List.getElem?_eq_some_iff.mp hsh
  simpa using hlt

theorem Cx.OneRow.rowsOf {c : Cx} (h : c.OneRow) : c.g.rowsOf c.sh = [0] := by
  have members : ((c.g.members c.sh).filter fun t => t.key.gl = 0 && !t.gleans) = c.g.members c.sh := by
    refine List.filter_eq_self.mpr fun th hth => ?_
    obtain ⟨hmem, -, -⟩ := Cx.mem_members.mp hth
    obtain ⟨hgl, -⟩ := h.threads th hmem
    simp [hgl, h.gleans hmem]
  have rows : ∀ r ∈ (c.g.members c.sh).map fun t => t.key.t / 32, r = 0 := by
    intro r hr
    obtain ⟨th, hth, rfl⟩ := List.mem_map.mp hr
    obtain ⟨-, hlt, -⟩ := h.threads th (Cx.mem_members.mp hth).1
    omega
  unfold Group.rowsOf
  rw [members, List.eq_replicate_of_mem rows]
  exact List.replicate_dedup (by simpa using h.members)

/-! ### The arrival (R124) -/

/-- The state in which the row has arrived: its clock begins, and its sheaf stands in the collective hold. -/
def State.rowHeld (s : State) (c : Cx) : State :=
  let begun := s.setGroup c.gi fun _ => { c.g with insts := [{ row := 0, pc := c.site.pc, since := s.clock }] }
  let held := (begun.countIssue c).setSheaf c.gi c.si fun sh => { sh with hold := .collective c.o c.e c.site [] }
  (held.takeAll c.gi c.site c.sh.hdr []).mark c

theorem rowBody_oneRow {c : Cx} (h : c.OneRow) (s : State) : rowBody c s = .stay (s.rowHeld c) := by
  have none_gleans : c.act.filter Thread.gleans = [] := by
    refine List.filter_eq_nil_iff.mpr fun th hth => ?_
    simp [h.gleans (Cx.mem_threads_of_act hth)]
  unfold rowBody
  dsimp only
  rw [none_gleans, List.foldl_nil, h.rowsOf, h.insts]
  rfl

/-- Counting an issue leaves the threads of a group without gleans. -/
theorem State.countIssue_oneSheaf {s : State} {c : Cx} {g : Group} {sh : Sheaf} (hg : s.groups[c.gi]? = some g)
    (hpart : ∀ th ∈ g.threads, th.part = none) (hsheaves : g.sheaves = [sh]) (hsi : c.si = 0) :
    ∃ last, (s.countIssue c).groups[c.gi]? = some { g with sheaves := [{ sh with last := last }] } := by
  have unaged : ∀ F : Thread → Thread, (∀ t, t.part = none → F t = t) → g.threads.map F = g.threads := fun F hF =>
    (List.map_congr_left fun t ht => hF t (hpart t ht)).trans (List.map_id _)
  unfold State.countIssue
  dsimp only
  rw [State.setSheaf, State.setGroup_get, if_pos rfl, State.setGroup_get, if_pos rfl, hg, hsi]
  refine ⟨if sh.members.all c.sh.members.contains then s.clock else sh.last, ?_⟩
  simp only [Option.map_some, hsheaves]
  rw [unaged _ fun t ht => by rw [ht]]
  simp only [modAt]
  split <;> rfl

theorem Sheaf.settle_noRegions {sh : Sheaf} (hregions : sh.regions = []) (fuel : Nat) : sh.settle fuel = sh := by
  cases fuel with
  | zero => rfl
  | succ fuel =>
    unfold Sheaf.settle
    rw [hregions]
    split <;> rfl

/-- A group of one undivided sheaf with members has no sheaf to sweep. -/
theorem Group.sweepSheaves_one {g : Group} {sh : Sheaf} (hsheaves : g.sheaves = [sh]) (hmembers : sh.members ≠ [])
    (hregions : sh.regions = []) : g.sweepSheaves = g := by
  have swept : ((g.sheaves.filter fun sh => !sh.members.isEmpty).map (Sheaf.settle 9)) = g.sheaves := by
    rw [hsheaves, List.filter_cons_of_pos (by simpa using hmembers), List.filter_nil, List.map_cons, List.map_nil,
      Sheaf.settle_noRegions hregions]
  unfold Group.sweepSheaves
  rw [swept]

theorem Cx.OneRow.rowHeld {c : Cx} (h : c.OneRow) {s : State} (hg : s.groups[c.gi]? = some c.g) (hsi : c.si = 0) :
    ∃ last, (s.rowHeld c).groups[c.gi]? = some (c.heldGroup s.clock last) := by
  have begun : (s.setGroup c.gi fun _ => { c.g with insts := [{ row := 0, pc := c.site.pc, since := s.clock }] }).groups[c.gi]? =
      some { c.g with insts := [{ row := 0, pc := c.site.pc, since := s.clock }] } := by
    rw [State.setGroup_get, if_pos rfl, hg]
    rfl
  obtain ⟨last, counted⟩ := State.countIssue_oneSheaf begun (fun th hth => h.part hth) h.sheaves hsi
  refine ⟨last, ?_⟩
  have members : (c.heldSheaf last).members ≠ [] := by
    obtain ⟨th, -, -, hkey⟩ := h.exists_member
    exact List.ne_nil_of_mem hkey
  unfold State.rowHeld State.takeAll
  dsimp only
  rw [List.foldl_nil]
  show (State.setGroup _ c.gi Group.sweepSheaves).groups[c.gi]? = _
  rw [State.setGroup_get, if_pos rfl, State.setSheaf, State.setGroup_get, if_pos rfl, counted, hsi, Option.map_some, Option.map_some]
  exact congrArg some (Group.sweepSheaves_one (g := c.heldGroup s.clock last) rfl members h.regions)

theorem State.takeAll_nil_cores (s : State) (gi : Nat) (site : Site) (hdr : Header) : (s.takeAll gi site hdr []).cores = s.cores :=
  s.setGroup_cores gi _ fun _ => rfl

theorem Cx.rowHeld_regs {c : Cx} {s : State} (hg : s.groups[c.gi]? = some c.g) : SameRegs s (s.rowHeld c) := by
  have begun : SameRegs s (s.setGroup c.gi fun _ => { c.g with insts := [{ row := 0, pc := c.site.pc, since := s.clock }] }) := by
    intro gi k r
    by_cases hgi : c.gi = gi
    · subst hgi
      rw [State.reg_eq hg, State.reg_eq (by rw [State.setGroup_get, if_pos rfl, hg]; rfl)]
      cases r <;> rfl
    · unfold State.reg State.thr
      rw [State.setGroup_get, if_neg hgi]
  intro gi k r
  unfold State.rowHeld
  rw [← begun gi k r]
  refine State.reg_of_cores ?_ gi k r
  rw [State.mark_cores, State.takeAll_nil_cores, State.setSheaf_cores, State.countIssue_cores]

/-! ### The row in its hold -/

theorem Cx.OneRow.sheafOf {c : Cx} {k : Key} (hk : k ∈ c.sh.members) (clock last : Nat) :
    (c.heldGroup clock last).sheafOf k = some (c.heldSheaf last, 0) := by
  have hit : (c.heldSheaf last).members.contains k = true := List.contains_iff_mem.mpr hk
  unfold Group.sheafOf
  exact List.find?_cons_of_pos hit

/-- The threads that have arrived are the live ones (R124). -/
theorem Cx.OneRow.arrived {c : Cx} (h : c.OneRow) {th : Thread} (hth : th ∈ c.g.threads) (clock last : Nat) :
    (c.heldGroup clock last).arrived c.site.pc th = (th.place != .exited) := by
  obtain ⟨-, hlt, -, -, hplace⟩ := h.threads th hth
  unfold Group.arrived
  rcases hplace with hplace | ⟨hplace, hkey⟩
  · simp [hplace]
  · have waits : (c.heldSheaf last).waitsAt c.site.pc (th.key.t / 32) = true := by simp [Sheaf.waitsAt, Cx.heldSheaf]
    rw [Cx.OneRow.sheafOf hkey clock last, hplace]
    dsimp only
    rw [waits]
    rfl

theorem Cx.OneRow.readyInst {c : Cx} (h : c.OneRow) (clock last : Nat) :
    (c.heldGroup clock last).readyInst 0 = some { row := 0, pc := c.site.pc, since := clock } := by
  obtain ⟨th, hth, hplace, -⟩ := h.exists_member
  have live : th ∈ (c.heldGroup clock last).awaited 0 := by
    obtain ⟨hgl, hlt, -⟩ := h.threads th hth
    have hrow : th.key.t / 32 = 0 := by omega
    exact List.mem_filter.mpr ⟨hth, by simp [hgl, hrow, hplace, h.gleans hth]⟩
  have nonempty : ((c.heldGroup clock last).awaited 0).isEmpty = false :=
    List.isEmpty_eq_false_iff.mpr (List.ne_nil_of_mem live)
  have all : ((c.heldGroup clock last).awaited 0).all ((c.heldGroup clock last).arrived c.site.pc) = true := by
    refine List.all_eq_true.mpr fun u hu => ?_
    obtain ⟨hmem, hawait⟩ := List.mem_filter.mp hu
    rw [h.arrived hmem]
    simp only [Bool.and_eq_true] at hawait
    exact hawait.1.1.2
  have hstop : (c.heldGroup clock last).stop = .running := h.running
  unfold Group.readyInst
  refine List.find?_cons_of_pos ?_
  dsimp only
  rw [nonempty, all, hstop]
  rfl

theorem Cx.OneRow.holdAt {c : Cx} (h : c.OneRow) (clock last : Nat) :
    (c.heldGroup clock last).holdAt c.site.pc 0 = some (0, c.o, c.e, c.site) := by
  have waits : (c.heldSheaf last).waitsAt c.site.pc 0 = true := by simp [Sheaf.waitsAt, Cx.heldSheaf]
  have rows : (c.heldGroup clock last).rowsOf (c.heldSheaf last) = [0] := h.rowsOf
  have hit : ((c.heldSheaf last).waitsAt c.site.pc 0 && ((c.heldGroup clock last).rowsOf (c.heldSheaf last)).contains 0) = true := by
    rw [waits, rows]
    rfl
  unfold Group.holdAt
  refine (List.findSome?_cons_of_isSome ?_).trans ?_
  all_goals
    dsimp only
    rw [if_pos hit]
    rfl

/-- The lanes of the row at its hold are those of its live threads (R125). -/
theorem Cx.OneRow.rowLanes {c : Cx} (h : c.OneRow) (clock last : Nat) :
    (c.heldGroup clock last).rowLanes c.site.pc 0 c.e = c.rowOf := by
  unfold Group.rowLanes Cx.rowOf
  refine List.map_congr_left fun i _ => ?_
  unfold Cx.rowLane
  have same : ((c.heldGroup clock last).threads.find? fun t =>
      t.key = { t := 32 * 0 + i, gl := 0 } && !t.gleans && (c.heldGroup clock last).arrived c.site.pc t) =
      c.g.threads.find? fun th => th.key = { t := i, gl := 0 } && th.place != .exited := by
    refine List.find?_congr fun th hth => ?_
    rw [h.arrived hth, h.gleans hth]
    simp
  rw [same]
  refine Option.map_congr fun th hth => ?_
  have hprop := List.find?_some hth
  simp only [Bool.and_eq_true, bne_iff_ne] at hprop
  obtain ⟨-, hkey⟩ := h.stands (List.mem_of_find?_eq_some hth) hprop.2
  have unmasked : (c.heldSheaf last).masks th.key = false := by
    show (c.sh.regions.any fun r => r.masked.contains th.key) = false
    rw [h.regions]
    rfl
  rw [Cx.OneRow.sheafOf hkey clock last]
  dsimp only
  rw [unmasked, Bool.not_false, Bool.and_true]

/-- Of the threads of the sheaf the first active one leads it (R19). -/
theorem Cx.heldGroup_leads {c : Cx} {k : Key} (hk : k ∈ c.sh.members) (clock last : Nat) :
    (c.heldGroup clock last).leads c.e k = decide (c.act.head?.map Thread.key = some k) := by
  have actives : (c.heldGroup clock last).actives (c.heldSheaf last) c.e = c.act := rfl
  unfold Group.leads
  rw [Cx.OneRow.sheafOf hk clock last]
  dsimp only
  rw [actives]

/-! ### The lanes of the row -/

theorem RowLanes.part_range (f : Nat → Option Lane) (n : Nat) :
    RowLanes.part ((List.range n).map f) = (List.range n).filterMap fun i => (f i).map fun l => (i, l) := by
  have zip : ((List.range n).map f).zipIdx = (List.range n).map fun i => (f i, i) := by
    refine List.ext_getElem (by simp) fun i _ _ => ?_
    simp
  unfold RowLanes.part
  rw [zip, List.filterMap_map]
  rfl

theorem Cx.mem_rowOf_part {c : Cx} {x : Nat × Lane} : x ∈ c.rowOf.part ↔ x.1 < 32 ∧ c.rowLane x.1 = some x.2 := by
  obtain ⟨i, l⟩ := x
  unfold Cx.rowOf
  rw [RowLanes.part_range, List.mem_filterMap]
  constructor
  · rintro ⟨j, hj, hx⟩
    obtain ⟨l', hl', heq⟩ := Option.map_eq_some_iff.mp hx
    cases heq
    exact ⟨List.mem_range.mp hj, hl'⟩
  · rintro ⟨hi, hl⟩
    exact ⟨i, List.mem_range.mpr hi, by rw [hl]; rfl⟩

theorem Cx.rowLane_some {c : Cx} {i : Nat} {l : Lane} (hl : c.rowLane i = some l) :
    l.t ∈ c.g.threads ∧ l.t.key = { t := i, gl := 0 } ∧ l.t.place ≠ .exited ∧ l.recv = Ext.guards c.e l.t := by
  obtain ⟨th, hth, rfl⟩ := Option.map_eq_some_iff.mp hl
  have hprop := List.find?_some hth
  simp only [Bool.and_eq_true, decide_eq_true_eq, bne_iff_ne] at hprop
  exact ⟨List.mem_of_find?_eq_some hth, hprop.1, hprop.2, rfl⟩

/-- The lanes that receive, with their indices (R125). -/
def Cx.receivers (c : Cx) : List (Nat × Lane) := c.rowOf.part.filter fun x => x.2.recv

theorem Cx.mem_receivers {c : Cx} {x : Nat × Lane} : x ∈ c.receivers ↔ x.1 < 32 ∧ c.rowLane x.1 = some x.2 ∧ x.2.recv = true := by
  rw [Cx.receivers, List.mem_filter, Cx.mem_rowOf_part, and_assoc]

/-- No two receiving lanes have one thread. -/
theorem Cx.receivers_nodup (c : Cx) : (c.receivers.map fun x => x.2.t.key).Nodup := by
  have indices : (c.receivers.map Prod.fst).Nodup := by
    have sub : (c.rowOf.part.map Prod.fst).Sublist (List.range 32) := by
      unfold Cx.rowOf
      rw [RowLanes.part_range]
      generalize List.range 32 = l
      induction l with
      | nil => exact .slnil
      | cons i l ih =>
        cases hl : c.rowLane i with
        | none =>
          rw [List.filterMap_cons_none (by rw [hl]; rfl)]
          exact ih.cons i
        | some x =>
          rw [List.filterMap_cons_some (b := (i, x)) (by rw [hl]; rfl)]
          exact ih.cons_cons i
    exact List.nodup_range.sublist ((List.filter_sublist.map Prod.fst).trans sub)
  have keys : (c.receivers.map fun x => x.2.t.key) = (c.receivers.map Prod.fst).map fun i => { t := i, gl := 0 } := by
    rw [List.map_map]
    refine List.map_congr_left fun x hx => ?_
    obtain ⟨-, hlane, -⟩ := Cx.mem_receivers.mp hx
    obtain ⟨-, hkey, -⟩ := Cx.rowLane_some hlane
    exact hkey
  rw [keys]
  exact indices.map fun i j hij => by injection hij

/-- An active thread is a receiving lane of the row. -/
theorem Cx.OneRow.act_receives {c : Cx} (h : c.OneRow) {th : Thread} (hth : th ∈ c.act) :
    (th.key.t, { t := th, recv := true }) ∈ c.receivers := by
  have hmem := Cx.mem_threads_of_act hth
  obtain ⟨hgl, hlt, -⟩ := h.threads th hmem
  have guards : Ext.guards c.e th = true := (List.mem_filter.mp hth).2
  have hmember := List.mem_of_mem_filter (List.mem_of_mem_filter hth)
  have live : th.place ≠ .exited := by
    obtain ⟨-, -, hstands⟩ := Cx.mem_members.mp hmember
    simp only [Group.stands, Bool.and_eq_true, decide_eq_true_eq] at hstands
    simp [hstands.1]
  have hkey : th.key = { t := th.key.t, gl := 0 } := by rw [← hgl]
  have lane : c.rowLane th.key.t = some { t := th, recv := true } := by
    obtain ⟨u, hu⟩ := Option.isSome_iff_exists.mp (List.find?_isSome.mpr ⟨th, hmem, by simp [← hkey, live]⟩ :
      (c.g.threads.find? fun u => u.key = { t := th.key.t, gl := 0 } && u.place != .exited).isSome)
    have hprop := List.find?_some hu
    simp only [Bool.and_eq_true, decide_eq_true_eq] at hprop
    have same : u = th := by
      have hfind := Group.find_of_mem h.shaped (List.mem_of_find?_eq_some hu)
      rw [hprop.1, ← hkey, Group.find_of_mem h.shaped hmem] at hfind
      exact (Option.some.inj hfind).symm
    unfold Cx.rowLane
    rw [hu, same, Option.map_some, guards]
  exact Cx.mem_receivers.mpr ⟨hlt, lane, rfl⟩

/-! ### The acting of the row (R19, R124, R126) -/

/-- The row's instruction at its hold: of the group as it stands there. -/
def Cx.inHold (c : Cx) (clock last : Nat) (site : Site) : Cx :=
  { gi := c.gi, si := 0, g := c.heldGroup clock last, sh := c.heldSheaf last, o := c.o, e := c.e, site := site, len := Ext.words c.e }

theorem Cx.inHold_of {c : Cx} {t : State} {clock last : Nat} (ht : t.groups[c.gi]? = some (c.heldGroup clock last)) :
    ∃ site, t.cxAt c.gi 0 c.site.word (Ext.words c.e) c.o c.e = some (c.inHold clock last site) := by
  unfold State.cxAt
  rw [ht]
  exact ⟨_, rfl⟩

/-- What a receiving lane writes (R126 to R130, R316). -/
def Cx.laneVal (c : Cx) (r : RowLanes) (x : Nat × Lane) : List (Reg × Word) :=
  if c.o = .qblk then blockWrites c r x.2.t else collVal c r x.1 x.2.t

/-- The hold changes nothing that a lane's value depends on. -/
theorem Cx.laneVal_inHold (c : Cx) (clock last : Nat) (site : Site) (r : RowLanes) (x : Nat × Lane) :
    (c.inHold clock last site).laneVal r x = c.laneVal r x := rfl

/-- A write counts: one to an S register for the leading thread alone (R19). -/
def Reg.writtenIf (leads : Bool) : Reg → Bool
  | .s _ => leads
  | _ => true

/-- The lowest receiving thread that leads its sheaf. -/
def Cx.leader (c : Cx) (r : RowLanes) (g : Group) : Option Key :=
  ((r.part.filter fun x => x.2.recv).find? fun x => g.leads c.e x.2.t.key).map fun x => x.2.t.key

/-- The writes of the row. -/
def Cx.rowWrites (c : Cx) (r : RowLanes) (g : Group) : List (Key × List (Reg × Word)) :=
  (r.part.filter fun x => x.2.recv).map fun x =>
    (x.2.t.key, (c.laneVal r x).filter fun w => w.1.writtenIf (c.leader r g = some x.2.t.key))

/-- The group whose receiving lanes have drawn the words of QBLK's rounding (R43). -/
def Cx.drewRow (c : Cx) (r : RowLanes) (g : Group) : Group :=
  let recv := r.part.filter fun x => x.2.recv
  { g with threads := g.threads.map fun t =>
      if recv.any (fun x => x.2.t.key = t.key) then t.drew (if c.rmCode = 5 then c.e.lo.toNat + 1 else 0) else t }

/-- The RESCALE faults of QBLK's receiving lanes, where one overflows (R316). -/
def Cx.rowTraps (c : Cx) (r : RowLanes) : List (Key × Flt) :=
  let ovf := (r.part.filter fun x => x.2.recv).map fun x => (x.2.t.key, (blockCodes c r x.2.t).any Prod.snd)
  if c.slot.ovft && ovf.any Prod.snd then
    ovf.map fun x => (x.1, { cls := 11, info := c.e.op2.toBits.toNat + if x.2 then 2 ^ 16 else 0 })
  else []

theorem Cx.actLanes_eq (c : Cx) (r : RowLanes) (g : Group) : c.actLanes r g =
    if c.o = .qblk then (c.drewRow r (g.apply (c.rowWrites r g)), c.rowTraps r) else (g.apply (c.rowWrites r g), []) := by
  rfl

/-- The registers after the row has acted are those after its writes. -/
theorem Cx.actLanes_reg (c : Cx) (r : RowLanes) (g : Group) (k : Key) (x : Reg) :
    (c.actLanes r g).1.reg k x = (g.apply (c.rowWrites r g)).reg k x := by
  rw [Cx.actLanes_eq]
  split
  · refine Group.reg_mapThreads (g := g.apply (c.rowWrites r g)) (h := c.drewRow r (g.apply (c.rowWrites r g))) rfl rfl
      (fun t => ?_) k x
    split
    · exact ⟨t.drew_key _, t.drew_v _, t.drew_p _⟩
    · exact ⟨rfl, rfl, rfl⟩
  · rfl

theorem Cx.actLanes_faults {c : Cx} (hovft : c.o = .qblk → c.slot.ovft = false) (r : RowLanes) (g : Group) :
    (c.actLanes r g).2 = [] := by
  rw [Cx.actLanes_eq]
  split
  · next ho =>
    show c.rowTraps r = []
    unfold Cx.rowTraps
    rw [hovft ho]
    rfl
  · rfl

theorem State.standBack_cores (s : State) (gi : Nat) (k : Key) : (s.standBack gi k).cores = s.cores :=
  s.setGroup_cores gi _ fun _ => rfl

/-- Sheaves that go on after their collective leave the cores (R124, R147). -/
theorem State.finishSheaves_cores (fuel : Nat) (s : State) (gi : Nat) : (State.finishSheaves fuel s gi).cores = s.cores := by
  induction fuel generalizing s with
  | zero => rfl
  | succ fuel ih =>
    unfold State.finishSheaves
    split
    · rfl
    · split
      · rfl
      · split
        · split
          · dsimp only
            rw [ih]
            split
            · rw [State.standBack_cores, State.advance_cores]
            · exact State.advance_cores _ _
          · rfl
        · rfl

theorem State.finishAll_cores (s : State) (gi : Nat) : (s.finishAll gi).cores = s.cores := by
  unfold State.finishAll
  split
  · exact State.finishSheaves_cores _ s gi
  · rfl

/-- The row acts at its hold: the group's registers are those after the row's writes (R124). -/
theorem Cx.OneRow.acts {c : Cx} (h : c.OneRow) (hovft : c.o = .qblk → c.slot.ovft = false) {t : State} {clock last : Nat}
    (ht : t.groups[c.gi]? = some (c.heldGroup clock last)) (k : Key) (x : Reg) :
    (evRowCollectiveAct c.gi 0 t).reg c.gi k x =
      ((c.heldGroup clock last).apply (c.rowWrites c.rowOf (c.heldGroup clock last))).reg k x := by
  obtain ⟨site, hcx⟩ := Cx.inHold_of ht
  have faults : ((c.inHold clock last site).actLanes c.rowOf (c.heldGroup clock last)).2 = [] := Cx.actLanes_faults hovft _ _
  have regs := (c.inHold clock last site).actLanes_reg c.rowOf (c.heldGroup clock last) k x
  unfold evRowCollectiveAct
  rw [ht]
  dsimp only
  rw [h.readyInst]
  dsimp only
  rw [h.holdAt]
  dsimp only
  rw [hcx]
  dsimp only
  rw [h.rowLanes, faults]
  refine (State.reg_of_cores ((State.finishAll_cores _ _).trans (State.takeAll_nil_cores _ _ _ _)) _ _ _).trans ?_
  rw [State.reg_eq (by rw [State.setGroup_get, if_pos rfl, ht]; rfl)]
  refine Eq.trans ?_ regs
  cases x <;> rfl

/-! ### What the row wrote (R19, R126) -/

theorem Cx.OneRow.receiver_member {c : Cx} (h : c.OneRow) {x : Nat × Lane} (hx : x ∈ c.receivers) : x.2.t.key ∈ c.sh.members := by
  obtain ⟨-, hlane, -⟩ := Cx.mem_receivers.mp hx
  obtain ⟨hmem, -, hlive, -⟩ := Cx.rowLane_some hlane
  exact (h.stands hmem hlive).2

/-- The first active thread leads the row. -/
theorem Cx.OneRow.leader {c : Cx} (h : c.OneRow) {th : Thread} (hhead : c.act.head? = some th) (clock last : Nat) :
    c.leader c.rowOf (c.heldGroup clock last) = some th.key := by
  have leads : ∀ x ∈ c.receivers, (c.heldGroup clock last).leads c.e x.2.t.key = true ↔ th.key = x.2.t.key := fun x hx => by
    rw [Cx.heldGroup_leads (h.receiver_member hx), hhead]
    simp
  have hreceives := h.act_receives (List.mem_of_mem_head? hhead)
  obtain ⟨x, hx⟩ := Option.isSome_iff_exists.mp (List.find?_isSome.mpr ⟨_, hreceives, (leads _ hreceives).mpr rfl⟩ :
    (c.receivers.find? fun x => (c.heldGroup clock last).leads c.e x.2.t.key).isSome)
  have hkey := (leads x (List.mem_of_find?_eq_some hx)).mp
    (List.find?_some (p := fun x : Nat × Lane => (c.heldGroup clock last).leads c.e x.2.t.key) hx)
  unfold Cx.leader
  show (c.receivers.find? fun x => (c.heldGroup clock last).leads c.e x.2.t.key).map (fun x => x.2.t.key) = some th.key
  rw [hx, hkey]
  rfl

/-- Of writes of distinct threads, S registers by the leading one alone, each thread's registers hold what it wrote last (R19). -/
theorem Group.apply_led_reg {α : Type} {g : Group} {xs : List α} {key : α → Key} {val : α → List (Reg × Word)} {lead : Option Key}
    (hg : g.Shaped) (hkeys : (xs.map key).Nodup) {a : α} (ha : a ∈ xs) (hk : (g.find (key a)).isSome) {r : Reg} {x : Word}
    (hr : r.takes g.launch.nv) (hx : lastWrite (val a) r = some x) (hs : ∀ i, r = .s i → lead = some (key a)) :
    (g.apply (xs.map fun y => (key y, (val y).filter fun w => w.1.writtenIf (lead = some (key y))))).reg (key a) r =
      some (r.shown x) := by
  obtain ⟨pre, post, rfl⟩ := List.append_of_mem ha
  have writes : r.writtenIf (lead = some (key a)) = true := by
    cases r with
    | s i => exact decide_eq_true (hs i rfl)
    | v i | p i => rfl
  rw [List.map_append, List.map_cons, List.nodup_append, List.nodup_cons] at hkeys
  obtain ⟨-, ⟨hnot, -⟩, -⟩ := hkeys
  rw [List.map_append, List.map_cons]
  refine Group.apply_reg_last hg hk hr (by rw [lastWrite_filter _ writes]; exact hx) fun y hy hmem => ?_
  obtain ⟨b, hb, rfl⟩ := List.mem_map.mp hy
  have other : key b ≠ key a := fun e => hnot (e ▸ List.mem_map_of_mem hb)
  obtain ⟨w, hw, rfl⟩ := List.mem_map.mp hmem
  have written := (List.mem_filter.mp hw).2
  cases hwr : w.1 with
  | s i =>
    rw [hwr] at written
    have leads : lead = some (key b) := of_decide_eq_true written
    rw [hs i hwr] at leads
    exact absurd (Option.some.inj leads).symm other
  | v i | p i => exact other

/-- THE ACTING OF THE ROW writes each receiving lane's result (R126). -/
theorem Cx.OneRow.wrote {c : Cx} (h : c.OneRow) (hovft : c.o = .qblk → c.slot.ovft = false) {t : State} {clock last : Nat}
    (ht : t.groups[c.gi]? = some (c.heldGroup clock last)) {f : Cx → Thread → List (Reg × Word)}
    (hval : ∀ th, c.laneVal c.rowOf (th.key.t, { t := th, recv := true }) = f c th) (hf : c.Fits f) :
    Wrote (evRowCollectiveAct c.gi 0 t) c f := by
  intro th hth r x hx
  have hfit := hf th hth _ (mem_of_lastWrite hx)
  have found : ((c.heldGroup clock last).find th.key).isSome := Group.find_isSome_of_mem (g := c.g) (Cx.mem_threads_of_act hth)
  have shaped : (c.heldGroup clock last).Shaped := h.shaped
  rw [← hval] at hx
  have lane := h.act_receives hth
  generalize hy : ((th.key.t, { t := th, recv := true }) : Nat × Lane) = y at lane hx
  have hkey : y.2.t.key = th.key := by rw [← hy]
  have read : r.takes c.g.launch.nv → (∀ i, r = .s i → c.act.head? = some th) →
      (evRowCollectiveAct c.gi 0 t).reg c.gi th.key r = some (r.shown x) := by
    intro hr hs
    rw [h.acts hovft ht, ← hkey]
    rw [← hkey] at found
    exact Group.apply_led_reg (key := fun y => y.2.t.key) (val := c.laneVal c.rowOf) shaped c.receivers_nodup lane found hr hx
      fun i hi => (h.leader (hs i hi) clock last).trans (congrArg some hkey.symm)
  cases r with
  | v i => exact read hfit fun _ h => nomatch h
  | s i => exact fun hhead => read hfit fun _ _ => hhead
  | p i => exact fun hi => read hi fun _ h => nomatch h

/-- A ROW-COLLECTIVE of one row completes in two steps (R124). -/
theorem rowCollective_completes {o : Op} {i : Instr} {e : Ext} {s : State} {c : Cx} {f : Cx → Thread → List (Reg × Word)}
    (h : c.OneRow) (hexec : exec i s = issueE o e s rowBody) (hready : s.readyE o e = some c)
    (hovft : c.o = .qblk → c.slot.ovft = false)
    (hval : ∀ th, c.laneVal c.rowOf (th.key.t, { t := th, recv := true }) = f c th) (hf : c.Fits f) :
    ∃ t u, exec i s = .next t
      ∧ (∃ g ∈ t.groups[c.gi]?, ∃ sh ∈ g.sheaves, sh.hold = .collective o e c.site [])
      ∧ (∀ gi k x, t.reg gi k x = s.reg gi k x)
      ∧ exec (.rowCollectiveAct c.gi 0) t = .next u ∧ Wrote u c f := by
  obtain ⟨hg, hsh, ho, he⟩ := State.ready_at hready
  obtain ⟨last, held⟩ := h.rowHeld hg (h.si hsh)
  refine ⟨s.rowHeld c, _, ?_, ⟨_, held, _, List.mem_singleton.mpr rfl, ?_⟩, Cx.rowHeld_regs hg, rfl, h.wrote hovft held hval hf⟩
  · rw [hexec, issueE_ready _ hready, rowBody_oneRow h]
    rfl
  · rw [← ho, ← he]
    rfl

/-! ### The destinations of the collectives have room (R17, R69) -/

/-- VOTE writes one of its three results: a predicate, or the mask to a register (R128). -/
theorem Cx.vote_dest {e : Ext} (hw : Op.vote.wellFormed e = true) :
    e.lo = 0 ∨ e.lo = 1 ∨ e.lo = 2 := by
  have hmod : Op.vote.modOk e = true := by
    simp only [Op.wellFormed, Bool.and_eq_true] at hw
    exact hw.1.1.1.1.1
  have hlo : e.lo.toNat ≤ 2 := by
    simp only [Op.modOk, Bool.and_eq_true, decide_eq_true_eq] at hmod
    exact hmod.2
  have hcases : e.lo.toNat = 0 ∨ e.lo.toNat = 1 ∨ e.lo.toNat = 2 := by omega
  rcases hcases with h | h | h
  · exact .inl (BitVec.eq_of_toNat_eq h)
  · exact .inr (.inl (BitVec.eq_of_toNat_eq h))
  · exact .inr (.inr (BitVec.eq_of_toNat_eq h))

/-- What each lane of a row writes (R126 to R130). -/
def rowVal (r : RowLanes) (c : Cx) (th : Thread) : List (Reg × Word) := collVal c r th.key.t th

/-- MATCH's mask takes one register. -/
theorem fits_rowMatch {s : State} {e : Ext} {c : Cx} (h : s.readyE .rowMatch e = some c) (r : RowLanes) : c.Fits (rowVal r) := by
  obtain ⟨-, -, ho, -⟩ := State.ready_at h
  exact Cx.fits_dst h 1 le_rfl (by decide) fun t => ⟨_, by unfold rowVal collVal; rw [ho]; rfl⟩

/-- BFLY, SHFL and ROWRED write a value of their type. -/
theorem fits_typed {s : State} {o : Op} {e : Ext} {c : Cx} (h : s.readyE o e = some c)
    (hspan : regSpan c.g.launch.ks o e 0 = e.tyRegs) {r : RowLanes} (hval : ∀ t, ∃ x, rowVal r c t = c.e.op0.writes c.n x) :
    c.Fits (rowVal r) := by
  have hn := State.readyE_n h
  exact Cx.fits_dst h c.n (by omega) (hn ▸ regsOfType_le _) hval

theorem fits_bfly {s : State} {e : Ext} {c : Cx} (h : s.readyE .bfly e = some c) (r : RowLanes) : c.Fits (rowVal r) := by
  obtain ⟨-, -, ho, -⟩ := State.ready_at h
  exact fits_typed h rfl fun t => ⟨_, by unfold rowVal collVal; rw [ho]; rfl⟩

theorem fits_shfl {s : State} {e : Ext} {c : Cx} (h : s.readyE .shfl e = some c) (r : RowLanes) : c.Fits (rowVal r) := by
  obtain ⟨-, -, ho, -⟩ := State.ready_at h
  exact fits_typed h rfl fun t => ⟨_, by unfold rowVal collVal; rw [ho]; rfl⟩

theorem fits_rowred {s : State} {e : Ext} {c : Cx} (h : s.readyE .rowred e = some c) (r : RowLanes) : c.Fits (rowVal r) := by
  obtain ⟨-, -, ho, -⟩ := State.ready_at h
  exact fits_typed h rfl fun t => ⟨_, by unfold rowVal collVal; rw [ho]; rfl⟩

/-- A predicate is there in every launch (R20). -/
theorem fits_pred {c : Cx} {f : Cx → Thread → List (Reg × Word)} (hval : ∀ t, ∃ b, f c t = c.dstP 0 b) : c.Fits f := by
  intro t _ w hw
  obtain ⟨b, hb⟩ := hval t
  rw [hb] at hw
  rw [List.mem_singleton.mp hw]
  trivial

theorem fits_elect {s : State} {e : Ext} {c : Cx} (h : s.readyE .elect e = some c) (r : RowLanes) : c.Fits (rowVal r) := by
  obtain ⟨-, -, ho, -⟩ := State.ready_at h
  exact fits_pred fun t => ⟨_, by unfold rowVal collVal; rw [ho]⟩

theorem fits_vote {s : State} {e : Ext} {c : Cx} (h : s.readyE .vote e = some c) (hw : Op.vote.wellFormed e = true) (r : RowLanes) :
    c.Fits (rowVal r) := by
  obtain ⟨-, -, ho, he⟩ := State.ready_at h
  rcases Cx.vote_dest hw with hlo | hlo | hlo
  · exact fits_pred fun t => ⟨_, by unfold rowVal collVal; rw [ho, he, hlo]; rfl⟩
  · exact fits_pred fun t => ⟨_, by unfold rowVal collVal; rw [ho, he, hlo]; rfl⟩
  · have hspan : regSpan c.g.launch.ks .vote e 0 = 1 := by
      unfold regSpan
      dsimp only [Op.positions]
      rw [hlo]
      rfl
    have hlo' : c.e.lo = 2 := he ▸ hlo
    exact Cx.fits_dst h 1 hspan.ge (by decide) fun t =>
      ⟨r.mask fun u => u.pred c.e.op1.index, by unfold rowVal collVal; rw [ho, hlo']; rfl⟩

/-- QBLK writes its codes and, beside them, its scales (R316). -/
theorem fits_qblk {s : State} {e : Ext} {c : Cx} (h : s.readyE .qblk e = some c) (r : RowLanes) :
    c.Fits fun c th => blockWrites c r th := by
  obtain ⟨-, -, -, he⟩ := State.ready_at h
  have hv := State.ready_vregsOk h
  intro t _ w hw
  unfold blockWrites at hw
  rcases List.mem_append.mp hw with hw | hw
  · rw [Cx.dstN, he] at hw
    exact Opnd.writes_inLaunch (k := 0) (n := 1) hv (by decide) (litAt_zero _ e) le_rfl (by decide) w hw
  · rw [he] at hw
    have hlo := e.lo.isLt
    exact Opnd.writes_inLaunch (k := 2) (n := (e.lo.toNat + 1 + 3) / 4) hv (by decide) (litAt_of_none rfl 2) le_rfl (by omega) w hw

theorem Cx.rowOf_eq {c : Cx} {e : Ext} (he : c.e = e) :
    ((List.range 32).map fun i => (c.g.threads.find? fun th => th.key = { t := i, gl := 0 } && th.place != .exited).map
      fun th => ({ t := th, recv := Ext.guards e th } : Lane)) = c.rowOf := by
  rw [← he]
  rfl

/-! ### The stall of a row (R152) -/

theorem exec_rowStall (gi row : Nat) (s : State) : exec (.rowStall gi row) s = .next (evRowStall gi row s) := rfl

/-- Two changes of a group that agree on it are one. -/
theorem State.setGroup_congr {s : State} {gi : Nat} {g : Group} {F G : Group → Group} (hg : s.groups[gi]? = some g) (h : F g = G g) :
    s.setGroup gi F = s.setGroup gi G := by
  have same : modAt s.groups gi F = modAt s.groups gi G := by
    refine List.ext_getElem? fun j => ?_
    rw [getElem?_modAt, getElem?_modAt]
    split
    · next hj =>
      subst hj
      rw [hg, Option.map_some, Option.map_some, h]
    · rfl
  unfold State.setGroup
  rw [same]

/-- A row whose timeout has come: its arrived lanes that receive fault, and the others go back to the clause's header (R152). -/
theorem evRowStall_faults {s : State} {gi row : Nat} {g : Group} {i : Inst} {si : Nat} {o : Op} {e : Ext} {site : Site} {sh : Sheaf}
    (hg : s.groups[gi]? = some g) (hinsts : g.insts = [i]) (hrow : i.row = row) (hsince : i.since + 2 ^ g.launch.cexp ≤ s.clock)
    (hstopped : g.instStopped s.ms.walks i = false) (hhold : g.holdAt i.pc row = some (si, o, e, site)) (hsh : g.sheaves[si]? = some sh)
    (hmissing : ((g.awaited row).filter fun t => !g.arrived i.pc t) ≠ []) :
    let parts := (g.rowLanes i.pc row e).part
    let mask := (((g.awaited row).filter fun t => !g.arrived i.pc t).map fun t => 2 ^ (t.key.t % 32)).sum
    evRowStall gi row s = ((s.setGroup gi fun g =>
      ((parts.filter fun x => !x.2.recv).map fun x => x.2.t.key).foldl (fun g k => g.file s.clock k site.hdr) { g with insts := [] }).takeAll
        gi site sh.hdr ((parts.filter fun x => x.2.recv).map fun x => (x.2.t.key, { cls := 12, info := mask }))).finishAll gi := by
  intro parts mask
  have due : (g.insts.find? fun j => j.row = row && j.since + 2 ^ g.launch.cexp ≤ s.clock && !g.instStopped s.ms.walks j) = some i := by
    rw [hinsts]
    exact List.find?_cons_of_pos (by simp [hrow, hsince, hstopped])
  have left : (g.insts.filter fun j => j != i) = [] := by simp [hinsts]
  unfold evRowStall
  rw [hg]
  dsimp only
  rw [due]
  dsimp only
  rw [hhold]
  dsimp only
  rw [if_neg (by simpa [List.isEmpty_iff] using hmissing), hsh]
  exact congrArg (fun u : State => (u.takeAll gi site sh.hdr _).finishAll gi) (State.setGroup_congr hg (by rw [left]))

/-- Settles O24: a row that arrives together stands in its hold with the lanes that its live threads are, and acts with their values
in the order of its lanes; a write to an S register is that of its first active thread. -/
theorem rowCollectives : Obligations.RowCollectives := by
  refine ⟨fun e s c hshaped hrunning hinsts hsheaves hregions hmembers hthreads => ?_,
    fun s gi row g i si o e site sh hg hinsts hrow hsince hstopped hhold hsh => ?_⟩
  · have h : c.OneRow := ⟨hshaped, hrunning, hinsts, hsheaves, hregions, hmembers, hthreads⟩
    intro lane r does value
    have settle : ∀ {o : Op} {i : Instr}, o ≠ .qblk → (exec i s = issueE o e s rowBody) →
        (s.readyE o e = some c → o.wellFormed e = true → c.Fits (rowVal r)) → does o i value := by
      intro o i hqblk hexec hfits hready hw
      obtain ⟨-, -, ho, he⟩ := State.ready_at hready
      have hr : c.rowOf = r := (Cx.rowOf_eq he).symm
      have hne : c.o ≠ .qblk := ho ▸ hqblk
      exact rowCollective_completes (f := rowVal r) h hexec hready (fun hq => absurd hq hne)
        (fun th => by rw [hr]; exact if_neg hne) (hfits hready hw)
    refine ⟨settle (by decide) rfl fun h _ => fits_rowMatch h _, settle (by decide) rfl fun h _ => fits_bfly h _,
      settle (by decide) rfl fun h _ => fits_shfl h _, settle (by decide) rfl fun h hw => fits_vote h hw _,
      settle (by decide) rfl fun h _ => fits_rowred h _, settle (by decide) rfl fun h _ => fits_elect h _,
      fun hovft hready _ => ?_⟩
    obtain ⟨-, -, ho, he⟩ := State.ready_at hready
    have hr : c.rowOf = r := (Cx.rowOf_eq he).symm
    exact rowCollective_completes h rfl hready (fun _ => hovft) (fun th => by rw [hr]; exact if_pos ho) (fits_qblk hready r)
  · intro missing hmissing parts back mask
    rw [exec_rowStall]
    exact congrArg _ (evRowStall_faults hg hinsts hrow hsince hstopped hhold hsh hmissing)

end Sys2Proof.Machine
end
